-- ==== Sys2Proof/Word.lean ====
section
/-! DEFINITION. Word types of the DZ128 model: bytes, and bounded numbers that name its blocks (R5 to R9, R38). -/

namespace Sys2Proof

/-- One byte of a packet, a frame or the MRAM. -/
abbrev Byte := BitVec 8

/-- Line port P0 to P127 (R38, domain 0x01). -/
abbrev PortId := Fin 128
/-- Cove 0 to 15 (R38, domain 0x02). -/
abbrev CoveId := Fin 16
/-- Host lane HL0 to HL63 (R38, domain 0x04). -/
abbrev LaneId := Fin 64
/-- Host link, numbered by its lowest lane (R7). -/
abbrev LinkId := Fin 64
/-- Quay 0 to 7 (R38, domain 0x06). -/
abbrev QuayId := Fin 8
/-- Fabric slice 0 to 3 (R38, domain 0x07). -/
abbrev SliceId := Fin 4
/-- Clock island 0 to 31 (R38, domain 0x09). -/
abbrev IslandId := Fin 32
/-- Command source: 0 the SPI mailbox, 1 the management lane, 2 + k host link k (R675). -/
abbrev SourceId := Fin 66

end Sys2Proof
end

