-- ==== Sys2Proof/Syntax.lean ====
section
/-! DEFINITION. The commands the block takes: one constructor per row of spec/opcode_table.json. The rows with a
host opcode carry one Flaes request as it passed step 1 of R47; the rows of mailbox accesses carry what the access
writes; the rows of device events carry what the outside world or an analog measurement decides about them. -/

namespace Sys2Proof

/-- A Flaes request as its transport hands it on (R34, R38): header fields, parameters, and the CMAC tag that follows
the check word when AUTH is 1. The opcode is the constructor's. -/
structure Req where
  /-- Source number (R675). -/
  src : SourceId
  version : Byte
  flags : Byte
  tag : BitVec 16
  target : BitVec 32
  seq : BitVec 16
  /-- Header offsets 14 and 15 (R11). -/
  rsvd : BitVec 16
  /-- Source MAC address of the request's frame, to which a reply goes (R41, R43); unused on SPI. -/
  sa : BitVec 48
  params : List Byte
  cmac : Option (BitVec 128)
  deriving DecidableEq, Repr


/-- A gPTP message as Headland's time-sync function takes it (R473): a Sync with the difference of its receive stamp, as the time
base gives it, and the time that it tells, in 0.25 ns, and the rate offset in units of 2⁻⁴⁰; a peer-delay request; a peer-delay answer with its delay; an
Announce with the grandmaster and the slave port that the best master clock algorithm selects. -/
inductive GptpMsg where
  | sync (diff rate : Int)
  | pdelayReq
  | pdelayResp (delay : Int)
  | announce (gm : BitVec 64) (slave : Option (Fin 192))
  deriving DecidableEq, Repr

/-- One word of the MAC interface of a port's PCS, eight lanes: which lanes hold control characters, and the octets, lane 0 least
significant (IEEE 802.3 Clause 81, which R132 rests on through Clause 82). -/
structure MiiWord where
  ctl : BitVec 8
  octets : BitVec 64
  deriving DecidableEq, Repr

/-- What a host lane's receiver reports at the end of a FOM interval (R371, R373, R374): slicer SNR in 0.1 dB; by FFE tap, and for the
DFE tap, the sums of error times input; the Reed-Solomon symbols corrected on this lane; the codewords decoded, corrected and
uncorrectable that its link reports with this lane; in Test, PAM4 symbols received in the interval (R403), and how many
more symbols the elastic buffer has taken than sent (R402). -/
structure LaneReport where
  snr : Int
  ffe : List Int
  dfe : Int
  symbols : Nat
  codewords : Nat
  corrected : Nat
  uncorrectable : Nat
  rx : List (BitVec 2)
  drift : Int
  deriving DecidableEq, Repr

/-- A measured calibration item (R588): whether every new value lies within the factory limits, and for each value its
index and the change from the value in force, in steps of R580. -/
structure ItemResult where
  item : Fin 7
  inLimits : Bool
  deltas : List (Nat × Int)
  deriving DecidableEq, Repr

/-- A block that is calibrated, line port or host lane: ports 0 to 127, then lanes as 128 to 191. -/
abbrev CalBlock := Fin 192

/-- What the monitors read before and during a self-test (R609, R610): the deviation of the island's clock from its
reference in 0.01 %, and the rails 0 to 7 in mV. -/
structure Precond where
  clock : Int
  rails : List Nat
  deriving DecidableEq, Repr

/-- A failure that a test found (R619): for a memory test the bank, row and bit; for a logic test the partition and
its first failing pattern; for an analog test the item, its measured value, lower limit and upper limit. -/
structure TestFail where
  item : Byte
  value : BitVec 16
  extra : BitVec 16
  upper : Byte
  deriving DecidableEq, Repr

/-- What a test step has done (R618, R619): elements or patterns programmed and completed, island clock cycles elapsed
and expected, failing bits or items in all, and the failures in the order found. -/
structure TestOutcome where
  programmed : Nat
  completed : Nat
  elapsed : Nat
  expected : Nat
  failing : Nat
  fails : List TestFail
  deriving DecidableEq, Repr

/-- The fields of a Clause 98 base page that this block forms or reads (R218, R219, R223): the technology abilities and the EEE
abilities as mode bits, the next-page bit, and whether the role is forced, with the role that is forced or preferred. -/
structure BasePage where
  tech : BitVec 16
  eee : BitVec 16
  np : Bool
  forced : Bool
  master : Bool
  deriving DecidableEq, Repr

/-- A Clause 98 next page (R219): whether it is a message page, the field of D10 to D0, and the field of D47 to D16. -/
structure NextPage where
  message : Bool
  head : BitVec 11
  body : BitVec 32
  deriving DecidableEq, Repr

/-- A Clause 98 exchange as it has ended (R218 to R224): the partner's base page and next pages, in order, and whether Clause 98's
nonce gives this side the master role where the roles of both sides are the same. -/
structure Negotiated where
  base : BasePage
  pages : List NextPage
  nonce : Bool
  deriving DecidableEq, Repr

/-- What the scout has found of one segment (R182 to R184, R231): its number (its first lag is 64 times that), its energy in
0.1 dB relative to the power the rule names, and its 64 estimates in the tap format of R175. -/
structure ScoutSeg where
  seg : Nat
  energy : Int
  taps : List Int
  deriving DecidableEq, Repr

/-- What the scout has found of one candidate aggressor (R183, R191, R192): its coupling energy in 0.1 dB, and its estimates at
lags 0 to 511. -/
structure Coupling where
  aggr : PortId
  energy : Int
  taps : List Int
  deriving DecidableEq, Repr

/-- One stream in a gauge window (R176 to R178): whether it is present; how often each symbol level occurs, lowest level first;
its normalised autocorrelation at lags 1 to 8 in units of 0.001; for how many milliseconds it has carried only idle; and, in the
standard modes, whether its transmitter is in Sleep, Refresh or Wake (in VS50 the model knows). -/
structure StreamGauge where
  present : Bool
  counts : List Nat
  lags : List Int
  idle : Nat
  burst : Bool
  deriving DecidableEq, Repr

/-- What a port in Test has received in a window: the symbols, 0 to 3, of a VS50 pattern (R631); bits compared, bits in error and losses
of lock of the checker of a standard mode's pattern; and by how many PCS blocks a far-end loopback has received more than it sent
(R628). -/
structure TestWin where
  symbols : List (BitVec 2)
  bits : Nat
  errs : Nat
  losses : Nat
  drift : Int
  deriving DecidableEq, Repr

/-- A gauge window of a port: its streams, the partner's low-power idle in the standard modes, and the sums of error times
stream over the window for each tap (w ← w + μ·e·x, R178), the window in shadow training among them; whether, in a standard mode,
the partner's transmit settings have changed in it (R206); the frequency and phase that timing
recovery has reached (R174); and what a port in Test has received. -/
structure GaugeWin where
  rx : StreamGauge
  tx : StreamGauge
  aggr : List StreamGauge
  partnerLpi : Bool
  ffe : List Int
  dfe : List Int
  dense : List Int
  wins : List (List Int)
  nexts : List (List Int)
  shadow : List Int
  txChanged : Bool
  freq : Int
  phase : Int
  test : TestWin
  deriving DecidableEq, Repr

/-- Codewords that a standard mode's decoder has decoded in a FEC window (R300 to R302): how many with 0 to 15 symbols corrected,
uncorrectable ones, symbols and bits corrected. -/
structure FecReport where
  port : PortId
  hist : List Nat
  unc : Nat
  symbols : Nat
  bits : Nat
  deriving DecidableEq, Repr

/-- A frame as a MAC receives it (R115): its bytes, FCS included; a code error, an uncorrectable codeword, or an early end within
it; bit errors that its stream lookup meets; a metadata parity failure; the preemption fragments and errors of its reception
(IEEE 802.3 clause 30.14). -/
structure RxFrame where
  bytes : List Byte
  codeErr : Bool
  oneBit : Bool
  twoBit : Bool
  metaBad : Bool
  frags : Nat
  asmErr : Nat
  smdErr : Nat
  /-- Its reception began before the drain that now stops new frames, or before the link was lost, held or force-reset, which
  ended it (R24, R115, R556). -/
  began : Bool
  deriving DecidableEq, Repr

/-- What the reads of a frame's cells meet (R414, R420, R503, R509): words corrected; an uncorrectable cell and its row; a ring CRC
failure; a cell CRC failure outside the ring; a metadata parity failure. -/
structure ReadErr where
  corrected : Nat
  bad : Option (Nat × Fin 8192)
  ring : Bool
  crc : Bool
  parity : Bool
  deriving DecidableEq, Repr
/-- The commands, operations and events of the DZ128, one constructor per row of the table. A row whose operand is
a `Req` is a Flaes packet with that opcode that has passed step 1 of R47. -/
inductive Instr where
  /-- Host writes 0x0000_0001 to MBX_DOORBELL to submit the request in the SPI request window for checking and execution. (R39) -/
  | mbxDoorbellSubmit
  /-- Host writes 0x0000_0002 to MBX_DOORBELL to release the packet in the reply window so the next queued packet appears. (R40) -/
  | mbxDoorbellRelease
  /-- SPI WRITE transaction to the mailbox request window, ignored and counted in CMD_OVERRUN while REQ_BUSY is 1. (R39) -/
  | requestWindowWrite (addr : BitVec 11) (bytes : List Byte)
  /-- Returns the 64-byte identity record: part number, stepping, die identifier, command MAC, firmware slot, lock state and version. (R680) -/
  | identityRead (r : Req)
  /-- Returns Headland, epoch, policy and queue state. (R38) -/
  | deviceStatus (r : Req)
  /-- Returns the control path counters summed over all sources, then those of the requesting source. (R675) -/
  | controlCountersRead (r : Req)
  /-- Clears the control path counters of every source. (R675) -/
  | controlCountersClear (r : Req)
  /-- Sets the authentication level and active key slot, refusing a level below the fuse minimum or an unusable slot. (R84) -/
  | authPolicySet (r : Req)
  /-- Writes a 128-bit CMAC key into an unprogrammed, unrevoked fuse slot over SPI. (R82) -/
  | authKeyProgram (r : Req)
  /-- Permanently revokes a key slot and changes the active slot as the policy allows. (R85) -/
  | authKeyRevoke (r : Req)
  /-- Opens the single configuration epoch owned by the requesting source and returns its identifier and free staging. (R56) -/
  | epochOpen (r : Req)
  /-- Starts the two-phase commit of the open epoch with its timeout and replies ACCEPTED. (R61) -/
  | epochCommit (r : Req)
  /-- Discards the open epoch's staged state and raises EPOCH_DONE with EPOCH_ROLLED_BACK. (R678) -/
  | epochAbort (r : Req)
  /-- Returns the epoch state, owner, last outcome, identifier, staging use and last failed target. (R678) -/
  | epochStatus (r : Req)
  /-- Sets the command EtherType, command MAC address, in-band enables and management lane enable, effective after its reply has left. (R88) -/
  | transportConfig (r : Req)
  /-- Sets the destination of EVENT_NOTIFY packets: SPI, management lane or a host link. (R683) -/
  | eventRoute (r : Req)
  /-- Sets which event severities drive INT_N. (R70) -/
  | eventMask (r : Req)
  /-- Returns up to 31 unacknowledged event records from a start sequence without acknowledging them. (R677) -/
  | eventRead (r : Req)
  /-- Acknowledges and frees every event record up to the given sequence and updates INT_N. (R70) -/
  | eventAck (r : Req)
  /-- Device builds and sends an EVENT_NOTIFY packet of 1 to 31 queued records on the event route once the route is up and reply-queue room exists. (R69) -/
  | eventNotify
  /-- Breakwater enters or releases the device-wide override that quiets line ports, idles host transmitters and stops fabric admission. (R75) -/
  | safeState (r : Req)
  /-- Breakwater sets or clears the PORT_QUIET hold of the ports in a mask. (R76) -/
  | portQuiet (r : Req)
  /-- Breakwater returns entries of the keeper fault record from a start index. (R81) -/
  | readFaultRecord (r : Req)
  /-- Breakwater drains a shoal, quay, fabric, Tide Table or Headland domain and asserts its reset, replying at assertion. (R79) -/
  | domainReset (r : Req)
  /-- Breakwater checks the confirmation word and replies, then asserts a warm reset once the reply has left. (R80) -/
  | deviceWarmReset (r : Req)
  /-- Warm reset assertion phase: ports quieted, host transmitters idled, FAULT_N asserted, FE_READY cleared, event queue emptied, dividers to Neap. (R563) -/
  | warmResetAssert
  /-- Breakwater returns the packet's parameters unchanged. (R71) -/
  | echo (r : Req)
  /-- Breakwater returns Headland state, firmware slot, overrides, pins, reset activity, CLK_FAIL and newest fault sequence. (R71) -/
  | readCoreStatus (r : Req)
  /-- Sets the rate-fault thresholds, applied from the next window. (R517) -/
  | integrityConfig (r : Req)
  /-- Returns fault latches, present conditions, FAULT_N state and fault sequences. (R515) -/
  | integrityStatus (r : Req)
  /-- Clears the masked fault latches whose conditions are no longer present and returns those remaining. (R515) -/
  | integrityFaultClear (r : Req)
  /-- Headland returns entries of the MRAM fault-record ring. (R518) -/
  | faultLogRead (r : Req)
  /-- Returns the integrity counter block. (R519) -/
  | integrityCountersRead (r : Req)
  /-- Clears the integrity counters. (R519) -/
  | integrityCountersClear (r : Req)
  /-- Over SPI, arms a number of errors at an injection point for the next accesses of the named instance. (R685) -/
  | faultInject (r : Req)
  /-- Configures a port's mode, negotiation, role, advertised set, maximum frame and flush time, immediately as a single-command commit or staged. (R113) -/
  | portModeSet (r : Req)
  /-- Returns a port's committed configuration, resolved mode and role, state and holds. (R104) -/
  | portModeGet (r : Req)
  /-- Sets or clears the administrative quiet hold of the ports in a mask. (R121) -/
  | portAdmin (r : Req)
  /-- Returns compact status entries for the ports in a mask, captured within 1 µs. (R122) -/
  | portStatusRead (r : Req)
  /-- Returns the 18 per-port counters. (R119) -/
  | portCountersRead (r : Req)
  /-- Clears the per-port counters of the ports in a mask. (R123) -/
  | portCountersClear (r : Req)
  /-- Returns a cove's clock plan, ports up and quiet, fastest configured mode and plan-change count. (R93) -/
  | coveStatus (r : Req)
  /-- Sets a port's VS50 low-power idle, amplitude, LD and TX_ADJUST flags and degrade threshold without restarting the link. (R167) -/
  | vs50Config (r : Req)
  /-- Returns VS50 frame lock, low-power idle states, FFE steps, margins and OAM queue levels. (R165) -/
  | vs50Status (r : Req)
  /-- Returns the 14 VS50 counters of a port. (R170) -/
  | vs50CountersRead (r : Req)
  /-- Clears the VS50 counters of the ports in a mask. (R170) -/
  | vs50CountersClear (r : Req)
  /-- Queues one user OAM message on a port at Up or LPI. (R168) -/
  | vs50OamSend (r : Req)
  /-- Returns and removes the oldest received user OAM messages. (R169) -/
  | vs50OamRead (r : Req)
  /-- Sets a port's anchor, window placement, guarding, step offset and anchor thresholds at its commit boundary. (R212) -/
  | dspConfig (r : Req)
  /-- Returns a port's adaptation state, anchor, CTLE, gauge, drift, windows and residual echo. (R187) -/
  | dspStatus (r : Req)
  /-- Declares up to four bundle groups of a cove. (R213) -/
  | bundleGroupSet (r : Req)
  /-- Returns a cove's committed bundle groups. (R213) -/
  | bundleGroupGet (r : Req)
  /-- Returns the state of a victim port's three NEXT cancellers and its group eligibility. (R191) -/
  | xtalkStatus (r : Req)
  /-- Pins or unpins a port's echo windows at given starts. (R214) -/
  | echoWindowSet (r : Req)
  /-- Captures, reverts to, or discards a port's anchor now. (R215) -/
  | anchorControl (r : Req)
  /-- Returns the 10 receive DSP counters of a port. (R217) -/
  | dspCountersRead (r : Req)
  /-- Clears the receive DSP counters of the ports in a mask. (R217) -/
  | dspCountersClear (r : Req)
  /-- Returns taps of one equaliser, canceller or scout section captured within one gauge window. (R216) -/
  | tapRead (r : Req)
  /-- Sets a port's advertisement, fast relink, downshift and link-up margin, applied from its next start-up. (R252) -/
  | startConfig (r : Req)
  /-- Returns a port's training phase, failures, relink decision, exclusions and identities. (R240) -/
  | startStatus (r : Req)
  /-- Returns the 12 start-up counters of a port. (R254) -/
  | startCountersRead (r : Req)
  /-- Clears the start-up counters of the ports in a mask. (R254) -/
  | startCountersClear (r : Req)
  /-- Returns the summary of a port's relink record. (R243) -/
  | relinkStoreRead (r : Req)
  /-- Clears the relink records of the ports in a mask. (R246) -/
  | relinkStoreClear (r : Req)
  /-- Restarts a port's start-up now, optionally ending downshift exclusions and clearing its relink record. (R253) -/
  | startRestart (r : Req)
  /-- Sets a port's PLCA node ID, node count, timers, burst, squelch, fallback and fault hold-off. (R290) -/
  | mdConfig (r : Req)
  /-- Returns a multidrop port's role, PLCA state, opportunity ID and cycle figures. (R292) -/
  | mdStatus (r : Req)
  /-- Returns the 12 multidrop counters of a port. (R295) -/
  | mdCountersRead (r : Req)
  /-- Clears the multidrop counters of the ports in a mask. (R294) -/
  | mdCountersClear (r : Req)
  /-- Returns per-opportunity-ID attribution entries captured within one PLCA cycle. (R293) -/
  | mdNodeTableRead (r : Req)
  /-- Clears the node attribution of the ports in a mask. (R294) -/
  | mdNodeTableClear (r : Req)
  /-- Sets a port's margin and FEC alarms, drops, thresholds and persistence. (R328) -/
  | healthConfig (r : Req)
  /-- Returns a port's margin, worst margin, SQI, conditions and last FEC window figures. (R297) -/
  | healthStatus (r : Req)
  /-- Returns the 27 health counters of a port. (R335) -/
  | healthCountersRead (r : Req)
  /-- Clears the health counters of the ports in a mask. (R335) -/
  | healthCountersClear (r : Req)
  /-- Sets a port's Sounding runs, snapshots, velocity factor, thresholds, match window, confirm count and timeout. (R329) -/
  | soundingConfig (r : Req)
  /-- Starts a Sounding run on a port and replies ACCEPTED, optionally taking its result as baseline. (R330) -/
  | soundingRun (r : Req)
  /-- Returns the last Sounding result with its reflection entries. (R331) -/
  | soundingResultRead (r : Req)
  /-- Returns reflection-coefficient profile values of the last Sounding run. (R332) -/
  | soundingProfileRead (r : Req)
  /-- Takes the last completed result as a port's baseline, or discards the baseline. (R333) -/
  | soundingBaselineSet (r : Req)
  /-- Returns a port's 144-byte baseline record. (R333) -/
  | soundingBaselineRead (r : Req)
  /-- Loads a checked baseline record into a port, replacing the baseline whole. (R333) -/
  | soundingBaselineLoad (r : Req)
  /-- Takes a port into Test for offline reflectometry and replies ACCEPTED. (R320) -/
  | cableTestRun (r : Req)
  /-- Returns the last cable test summary and reflections. (R331) -/
  | cableTestResult (r : Req)
  /-- Returns impedance profile values of the last cable test. (R332) -/
  | cableTestProfileRead (r : Req)
  /-- Sets a port's EEE use, Slack acceptance, wake sources, LPI entry delay and wake threshold. (R361) -/
  | portPowerConfig (r : Req)
  /-- Puts the ports in a mask into Slack or wakes them, replying ACCEPTED. (R362) -/
  | portSlack (r : Req)
  /-- Returns a port's state, LPI directions, Slack cause, handshake and wake record. (R340) -/
  | portPowerStatus (r : Req)
  /-- Changes the device power mode to Full, Reduced, Parked or Off, replying ACCEPTED. (R355) -/
  | devicePowerSet (r : Req)
  /-- Returns device mode, ceiling, operating point, gating, Slack, LPI and Ebb counts and wake record. (R352) -/
  | devicePowerStatus (r : Req)
  /-- Sets WAKE_N driving, automatic Parked exit and the WAKE_N pulse width. (R364) -/
  | wakeConfig (r : Req)
  /-- Returns the 10 power counters of a port. (R365) -/
  | powerCountersRead (r : Req)
  /-- Clears the power counters of the ports in a mask. (R365) -/
  | powerCountersClear (r : Req)
  /-- Sets a quay's bonding map of host links. (R388) -/
  | hostLinkConfig (r : Req)
  /-- Sets a lane's polarity, training, precoding, preset, auto-Ebb and margin threshold. (R408) -/
  | hostLaneConfig (r : Req)
  /-- Sets a host link's maximum frame length and flush time. (R386) -/
  | hostLinkMacConfig (r : Req)
  /-- Sets or clears the administrative quiet hold of the lanes in a mask. (R392) -/
  | hostAdmin (r : Req)
  /-- Puts the host links in a lane mask into Ebb or wakes them, replying ACCEPTED. (R409) -/
  | hostEbb (r : Req)
  /-- Returns a lane's state, CTLE, precoding, FOM, margin, DFE tap and holds. (R372) -/
  | hostLaneStatus (r : Req)
  /-- Returns a host link's state, width, lock, last down reason, margin and skew. (R396) -/
  | hostLinkStatus (r : Req)
  /-- Returns the 12 counters of a host lane. (R406) -/
  | hostLaneCountersRead (r : Req)
  /-- Clears the counters of the lanes in a mask. (R407) -/
  | hostLaneCountersClear (r : Req)
  /-- Returns the 20 counters of a host link. (R406) -/
  | hostLinkCountersRead (r : Req)
  /-- Clears the counters of the host links in a mask. (R407) -/
  | hostLinkCountersClear (r : Req)
  /-- Starts or stops an in-traffic eye scan of a lane over a grid, replying ACCEPTED. (R410) -/
  | eyeScanStart (r : Req)
  /-- Returns the eye scan summary and per-point error counts. (R411) -/
  | eyeScanRead (r : Req)
  /-- Starts or ends loopbacks and test patterns on the links covered by a lane mask. (R404) -/
  | hostTest (r : Req)
  /-- Sets buffer scrubbing and its period. (R442) -/
  | fabricConfig (r : Req)
  /-- Returns each slice's state, flags, free shared cells and retired rows. (R680) -/
  | fabricStatus (r : Req)
  /-- Sets the minimum and dynamic or static limit of queues of one egress position. (R440) -/
  | queueConfig (r : Req)
  /-- Sets an egress position's strict boundary and DWRR weights. (R441) -/
  | schedulerConfig (r : Req)
  /-- Turns a class's credit-based shaper on or off with its idleSlope. (R428) -/
  | shaperConfig (r : Req)
  /-- Sets cut-through enables by ingress and egress port and host link. (R442) -/
  | cutThroughConfig (r : Req)
  /-- Returns occupancy, watermark and flags of the eight queues of an egress position. (R429) -/
  | queueStatus (r : Req)
  /-- Returns the 9 counters of one queue. (R444) -/
  | queueCountersRead (r : Req)
  /-- Clears the counters of masked classes of one egress position. (R444) -/
  | queueCountersClear (r : Req)
  /-- Returns the 8 counters of a fabric slice. (R444) -/
  | sliceCountersRead (r : Req)
  /-- Clears the counters of a fabric slice. (R444) -/
  | sliceCountersClear (r : Req)
  /-- Gates a slice after R28 checks and drain, or ungates it. (R443) -/
  | sliceGate (r : Req)
  /-- Sets the two hash seeds of the empty stream table. (R455) -/
  | streamTableConfig (r : Req)
  /-- Inserts or replaces a stream entry by handle, displacing entries or using the stash. (R454) -/
  | streamEntryWrite (r : Req)
  /-- Deletes the stream entry of a handle. (R455) -/
  | streamEntryDelete (r : Req)
  /-- Returns the 64-byte stream entry of a handle. (R680) -/
  | streamEntryRead (r : Req)
  /-- Looks up a key and ingress and returns the matching handle and slot. (R449) -/
  | streamLookup (r : Req)
  /-- Returns entry count, stash use, longest displacement, failed inserts and ECC-faulted buckets. (R453) -/
  | streamTableStatus (r : Req)
  /-- Writes a destination record's egress mask and Tide Table flag. (R452) -/
  | destWrite (r : Req)
  /-- Sets an ingress position's accepted formats, default VID and PCP, key types and miss action. (R446) -/
  | ingressProfileSet (r : Req)
  /-- Writes a stream filter's maximum SDU, gate, meter and block-on-oversize flag, clearing its blocked state. (R457) -/
  | qciFilterSet (r : Req)
  /-- Writes a flow meter's CIR, CBS, EIR, EBS and flags. (R458) -/
  | qciMeterSet (r : Req)
  /-- Writes a stream gate's control list, time base, base time and cycle. (R459) -/
  | qciGateSet (r : Req)
  /-- Returns the 7 counters of a stream filter. (R478) -/
  | qciCountersRead (r : Req)
  /-- Clears the counters of a range of filters. (R477) -/
  | qciCountersClear (r : Req)
  /-- Configures a sequence generation instance, optionally resetting its sequence. (R461) -/
  | frerSeqgenSet (r : Req)
  /-- Configures a recovery instance's slice, algorithm, history, flags and timers. (R464) -/
  | frerRecoverySet (r : Req)
  /-- Returns the 8 counters of a recovery instance. (R478) -/
  | frerCountersRead (r : Req)
  /-- Clears the counters of a range of recovery instances. (R477) -/
  | frerCountersClear (r : Req)
  /-- Loads entries into an egress's admin gate control list. (R465) -/
  | gclLoad (r : Req)
  /-- Sets an egress's list length, time base, base time, cycle and extension as its admin configuration. (R466) -/
  | gclSet (r : Req)
  /-- Returns an egress's gate list state, current entry, config change time and too-long drops. (R466) -/
  | gclStatus (r : Req)
  /-- Returns entries of an egress's admin or oper gate list. (R477) -/
  | gclRead (r : Req)
  /-- Sets a port's preemptable classes, preemption enable, verification and addFragSize. (R469) -/
  | preemptConfig (r : Req)
  /-- Returns a port's preemption verify state and activity. (R469) -/
  | preemptStatus (r : Req)
  /-- Returns the 6 preemption counters of a port. (R478) -/
  | preemptCountersRead (r : Req)
  /-- Clears the preemption counters of the ports in a mask. (R478) -/
  | preemptCountersClear (r : Req)
  /-- Returns the 9 ingress counters of a position. (R478) -/
  | ingressCountersRead (r : Req)
  /-- Clears the ingress counters of a range of positions. (R477) -/
  | ingressCountersClear (r : Req)
  /-- Returns the ticker and four time bases captured at one instant with validity flags. (R472) -/
  | timeRead (r : Req)
  /-- Sets, steps or changes the rate of a time base whose gPTP instance is disabled. (R472) -/
  | timeAdjust (r : Req)
  /-- Configures a gPTP instance's enable, BMCA, one-step, domain, priorities and intervals. (R473) -/
  | gptpConfig (r : Req)
  /-- Configures a gPTP instance's port role, asCapable and asymmetry. (R473) -/
  | gptpPortConfig (r : Req)
  /-- Returns a gPTP instance's state, slave port, offset, rate ratio and grandmaster. (R473) -/
  | gptpStatus (r : Req)
  /-- Returns the 6 gPTP counters of an instance's port. (R478) -/
  | gptpCountersRead (r : Req)
  /-- Sets PPS output and input enables, time base, period and width. (R475) -/
  | ppsConfig (r : Req)
  /-- Returns the last PPS_IN edge stamps in the ticker and all time bases. (R475) -/
  | ppsInRead (r : Req)
  /-- Binds or unbinds a stream handle to a Tide Table source number and format. (R479) -/
  | ttSourceBind (r : Req)
  /-- Creates or replaces a receive layout with its key, checks, selector and digest route. (R501) -/
  | ttLayoutSet (r : Req)
  /-- Deletes a layout and removes its signals' pending digest records. (R501) -/
  | ttLayoutDelete (r : Req)
  /-- Writes signal definitions into slots of a receive or compose layout. (R483) -/
  | ttSignalDefine (r : Req)
  /-- Creates or replaces a compose layout with its egress, triggers, checks and offsets. (R497) -/
  | ttComposeSet (r : Req)
  /-- Writes template bytes of a compose layout's frame. (R497) -/
  | ttComposeTemplate (r : Req)
  /-- Sets a digest route's host link, class, EtherType, address, frame length and flush interval. (R496) -/
  | ttDigestRouteSet (r : Req)
  /-- Returns signal entries from a first signal. (R501) -/
  | ttSignalRead (r : Req)
  /-- Writes values of signals not defined by a receive layout, visible all at once. (R497) -/
  | ttSignalWrite (r : Req)
  /-- Returns a layout's kind, last check, alive reference and message counts. (R680) -/
  | ttLayoutStatus (r : Req)
  /-- Returns layouts, bindings, signals, full engine queues and lossy routes. (R680) -/
  | ttStatus (r : Req)
  /-- Triggers a compose layout to send a frame now. (R498) -/
  | ttComposeSend (r : Req)
  /-- Returns the 21 Tide Table counters of an engine or their sum. (R502) -/
  | ttCountersRead (r : Req)
  /-- Clears the Tide Table counters of an engine or all engines. (R502) -/
  | ttCountersClear (r : Req)
  /-- Returns reference states, operating point, sequencer state, clock flags, gating and VDD_CORE. (R529) -/
  | clockStatus (r : Req)
  /-- Sets automatic or fixed operating point and clears the sequencer's halted state. (R545) -/
  | dvfsConfig (r : Req)
  /-- Sets the core regulator address, PEC, bus speed and page. (R545) -/
  | avsConfig (r : Req)
  /-- Gates or ungates a clock island under the conditions of R534. (R546) -/
  | islandGate (r : Req)
  /-- Clears sticky CLK_FAIL bits of returned clocks and forced-switch flags. (R529) -/
  | clockFlagsClear (r : Req)
  /-- Returns the 9 clock counters. (R547) -/
  | clockCountersRead (r : Req)
  /-- Clears the clock counters. (R547) -/
  | clockCountersClear (r : Req)
  /-- Pulses, holds or releases a block reset after drain, replying ACCEPTED. (R574) -/
  | resetBlock (r : Req)
  /-- Pulses, holds or releases a domain reset after drain, replying ACCEPTED. (R574) -/
  | resetDomain (r : Req)
  /-- Returns reset activity, domains in reset, held and recorded sources and the last episode. (R680) -/
  | resetStatus (r : Req)
  /-- Returns the record of the last start: kind, BOOTSEL, firmware, profile and timings. (R569) -/
  | bootStatus (r : Req)
  /-- Sets the watchdog enable, action and timeout, restarting the timeout. (R575) -/
  | watchdogConfig (r : Req)
  /-- Selects the firmware slot for the next start of reach 2 or 3, or ends the selection. (R576) -/
  | firmwareSelect (r : Req)
  /-- Applies a named boot profile to the running device as one epoch, replying ACCEPTED. (R577) -/
  | bootProfileApply (r : Req)
  /-- Returns the 9 reset counters. (R579) -/
  | resetCountersRead (r : Req)
  /-- Clears the reset counters. (R579) -/
  | resetCountersClear (r : Req)
  /-- Sets the Undertow mode, ΔT and auto-store flag. (R602) -/
  | calConfig (r : Req)
  /-- Runs foreground calibration of the ports and lanes in its masks, replying ACCEPTED. (R584) -/
  | calRun (r : Req)
  /-- Returns a port's or lane's calibration state, last run, failed and pending items and temperatures. (R590) -/
  | calStatus (r : Req)
  /-- Writes the calibration values in force to the older calibration slot, replying ACCEPTED. (R594) -/
  | calStore (r : Req)
  /-- Returns the 8 calibration counters of a port or lane. (R606) -/
  | calCountersRead (r : Req)
  /-- Clears the calibration counters of the ports and lanes in its masks. (R606) -/
  | calCountersClear (r : Req)
  /-- Returns an NVM region's slot state, newest flag, sequence, length and body check. (R596) -/
  | nvmSlotStatus (r : Req)
  /-- Returns raw bytes of an NVM region. (R604) -/
  | nvmRead (r : Req)
  /-- Opens the single write session for a firmware or profile slot and invalidates its header. (R600) -/
  | nvmWriteBegin (r : Req) (differs : Bool)
  /-- Writes and reads back body bytes in the open session. (R604) -/
  | nvmWrite (r : Req) (differs : Bool)
  /-- Closes the session: checks the body CRC and writes the header, replying ACCEPTED. (R604) -/
  | nvmWriteEnd (r : Req)
  /-- Erases a slot header after checking the confirmation word. (R605) -/
  | nvmInvalidate (r : Req)
  /-- Returns the 4 NVM counters. (R606) -/
  | nvmCountersRead (r : Req)
  /-- Clears the NVM counters. (R606) -/
  | nvmCountersClear (r : Req)
  /-- Checks preconditions, drains, runs a memory, logic or analog test with optional repair, then restarts the target. (R613) -/
  | selftestRun (r : Req) (pre : Precond)
  /-- Returns a target's test progress and remaining time. (R616) -/
  | selftestStatus (r : Req)
  /-- Ends a running test at the next 10 µs check with status 6. (R617) -/
  | selftestAbort (r : Req)
  /-- Returns a target's last result record of a test kind. (R619) -/
  | selftestResultRead (r : Req)
  /-- Returns per-bank fused, soft and retired row counts of a slice. (R624) -/
  | repairStatus (r : Req)
  /-- Over SPI, fuses the soft repairs of masked banks permanently, replying ACCEPTED. (R633) -/
  | repairFuse (r : Req) (pre : Precond)
  /-- Starts or ends an AFE, PCS, MAC or far-end loopback on a port with its frame generator. (R626) -/
  | portLoopback (r : Req)
  /-- Starts or ends a compliance test pattern at a port's pins with optional receive checker. (R630) -/
  | portTestMode (r : Req)
  /-- Returns the 8 port test counters. (R634) -/
  | portTestCountersRead (r : Req)
  /-- Clears the port test counters of the ports in a mask. (R634) -/
  | portTestCountersClear (r : Req)
  /-- The power-on detector or a low PGOOD_IN asserts the cold reset. (R548) -/
  | coldResetAssert (por : Bool)
  /-- Release of the cold reset begins the cold start: fuse load, voltage, LREF, firmware, BIST, calibration. (R560) -/
  | coldStart (bootsel : BitVec 2)
  /-- RESET_N low, after the filter, asserts the pin reset. (R548) -/
  | pinResetAssert
  /-- RESET_N released begins the pin start sequence. (R561) -/
  | pinStart (bootsel : BitVec 2)
  /-- End of the warm reset assertion phase begins the warm start without fuse load or calibration. (R563) -/
  | warmStart
  /-- Fuse load completes: trims, key hash, permanent repair, command MAC and die identifier loaded. (R560) -/
  | fuseLoadDone
  /-- Signature check of the chosen firmware image completes, with fallback to the other slot or state 4. (R566) -/
  | firmwareSignatureDone (chosen other : Bool) (version : BitVec 32)
  /-- Start-time memory test and soft repair of all memories complete. (R608) -/
  | memoryBistDone (pre : Precond) (slices : List TestOutcome) (buckets signals : List Nat)
  /-- Calibration values restored and validated from the newest valid slot, or foreground calibration ordered. (R593) -/
  | calibrationRestoreDone (outside : List (CalBlock × Fin 7)) (readings : List Int)
  /-- Foreground calibration of a port or lane completes and results are checked against factory limits. (R582) -/
  | foregroundCalDone (b : CalBlock) (failed : List (Fin 7))
  /-- Headland's firmware reaches READY: boot profile ended, recorded resets and completion records processed, HEADLAND_READY raised. (R562) -/
  | headlandReady
  /-- A Headland domain reset releases and Headland restarts its firmware without a boot profile. (R572) -/
  | headlandResetRelease
  /-- The watchdog expires: Headland to state 3, fault 0x0908 latched, configured action follows. (R573) -/
  | watchdogExpiry
  /-- READY not reached within 2,000 ms plus profile commit timeout, treated as a watchdog expiry. (R573) -/
  | startupTimerExpiry
  /-- Frames in flight into and out of a block finish, and the agent performs the pending reset or gate. (R24) -/
  | drainComplete (t : BitVec 32)
  /-- A drain timeout expires; the action is forced, drops counted, status QUIESCE_TIMEOUT. (R25) -/
  | drainTimeout (t : BitVec 32)
  /-- A domain or block start-up after release ends; recorded sources apply and COMMAND_DONE and RESET_EPISODE are raised. (R551) -/
  | resetStartupDone (t : BitVec 32)
  /-- An agent finishes an ACCEPTED command's sequence and leaves its completion record for Headland. (R22) -/
  | agentSequenceComplete (good : Nat)
  /-- An open epoch idle for its timeout is aborted and EPOCH_DONE reports EPOCH_ROLLED_BACK. (R60) -/
  | epochIdleTimeout
  /-- Every agent concerned reports its shadows armed and apply begins. (R61) -/
  | commitPrepareDone
  /-- A block reaches its commit boundary and applies its shadow configuration. (R61) -/
  | commitBoundaryApply (block : BitVec 32)
  /-- The commit timeout expires before prepare or apply ends; applied blocks roll back. (R62) -/
  | commitTimeout (p : Option PortId)
  /-- A port in state 1 begins start-up within 10 µs, by negotiation, training or listening. (R108) -/
  | portStartupBegin (p : PortId)
  /-- The 4 ms silent break interval ends and start-up begins in the new configuration. (R110) -/
  | breakIntervalExpiry (p : PortId)
  /-- After 4 ms of silence following a start-up failure, start-up begins again. (R238) -/
  | startupRetry (p : PortId)
  /-- A port's link is established and it enters Up, raising LINK_UP. (R108) -/
  | linkUp (p : PortId) (eee : Bool)
  /-- Loss of received signal on a port drops its link with reason 1. (R124) -/
  | lossOfSignal (p : PortId)
  /-- A frame is received at a line port or host link MAC, classified, passed through the ingress pipeline and admitted. (R115) -/
  | frameRx (pos : Fin 193) (x : RxFrame)
  /-- The scheduler selects an eligible queue and hands its head frame to the egress MAC after bank read and ring crossing. (R427) -/
  | frameDequeue (e : Fin 192) (started : Bool) (x : ReadErr)
  /-- The egress MAC ends a frame, comparing computed CRC with the carried FCS and stomping on mismatch. (R507) -/
  | frameTxComplete (e : Fin 192) (x : ReadErr) (upset under : Bool)
  /-- A port out of Up and LPI for its flush time discards its held frames. (R107) -/
  | egressFlushTimeout (p : PortId)
  /-- A host link out of Up for its flush time discards its held frames. (R395) -/
  | linkEgressFlush (k : LinkId)
  /-- A VS50 PHY frame is received: header checked, frame lock updated, codewords decoded, blocks delivered. (R142) -/
  | vs50FrameRx (p : PortId) (hdr : BitVec 64) (region : List Nat) (margin : Int)
  /-- RF = 1 received in every valid header for 2 ms drops the link with reason 2. (R146) -/
  | partnerRfTimeout (p : PortId)
  /-- A complete 16-byte OAM word is received, checked, acknowledged and its message accepted. (R158) -/
  | oamWordRx (p : PortId)
  /-- A STATUS OAM message is sent within 10 µs of link-up and then at least every 1 ms. (R158) -/
  | oamStatusSend (p : PortId)
  /-- The DSP evaluates its taps and sends a TX_ADJUST request to the partner. (R210) -/
  | txAdjustRequest (p : PortId)
  /-- The MAC asserts low-power idle after the LPI entry delay with no eligible frame. (R337) -/
  | lpiAssert (p : PortId)
  /-- After 2 whole frames of only low-power idle blocks, the VS50 transmitter enters Sleep. (R161) -/
  | lpiSleepEntry (p : PortId)
  /-- 16 sleep frames sent; the transmitter enters Quiet. (R161) -/
  | lpiSleepEnd (p : PortId)
  /-- 512 virtual frames of Quiet pass; the transmitter enters Refresh. (R161) -/
  | lpiQuietEnd (p : PortId)
  /-- 24 refresh frames sent; the transmitter returns to Quiet. (R161) -/
  | lpiRefreshEnd (p : PortId)
  /-- A non-idle block reaches the PCS in Sleep, Quiet or Refresh; Wake starts at the next frame boundary. (R164) -/
  | lpiWakeStart (p : PortId)
  /-- 24 wake frames sent; the transmitter returns to Active. (R161) -/
  | lpiWakeEnd (p : PortId)
  /-- A partner refresh fails to start within its window; two in a row drop the link. (R162) -/
  | refreshMissed (p : PortId)
  /-- A 4,096-symbol gauge window ends: excitation, guarding, drift check, anchor capture and Held exit evaluated. (R201) -/
  | gaugeWindowEnd (p : PortId) (w : GaugeWin)
  /-- At the first receive boundary after a violation or command, the anchor is restored and the port enters Held. (R204) -/
  | anchorReversion (p : PortId)
  /-- After 16 windows past a tap threshold, the CTLE steps one setting at a receive boundary. (R180) -/
  | ctleStep (p : PortId)
  /-- A scout cycle ends: window placement, aggressor selection, residual echo and Sounding snapshot. (R184) -/
  | scoutCycleEnd (p : PortId) (segs : List ScoutSeg) (cancelled : List Int) (next : List Coupling) (removed : List Nat)
  /-- A shadow-trained window takes over at a receive boundary after 2^16 symbols. (R185) -/
  | echoWindowTakeover (p : PortId)
  /-- A victim replaces its least-coupled aggressor at its receive boundary. (R191) -/
  | aggressorReplace (p : PortId)
  /-- A newly seeded NEXT canceller leaves acquisition gear after 2 ms. (R179) -/
  | nextSeedEnd (p : PortId) (k : Fin 3)
  /-- A victim applies its new bundle group at its receive boundary after the commit boundary. (R196) -/
  | bundleGroupApply (p : PortId)
  /-- Clause 98 exchange completes: mode and role resolved, or failure for no common mode or master/slave fault. (R221) -/
  | negotiationComplete (p : PortId) (x : Negotiated)
  /-- A half-duplex training sender finishes its frames and the next sender starts after 16 frame periods. (R230) -/
  | halfDuplexPhaseEnd (p : PortId) (echo : List ScoutSeg) (next : List Coupling)
  /-- The master moves to the next training phase when both sides are ready, and the slave follows. (R233) -/
  | trainingPhaseChange (p : PortId)
  /-- A training phase timer expires: start-up failure with reason 1. (R238) -/
  | trainingPhaseTimeout (p : PortId)
  /-- No valid block in a half-duplex phase: failure with reason 3. (R238) -/
  | noAnswerTimeout (p : PortId)
  /-- Signal absent or lock lost for 1 ms, or no valid block for 2 ms: failure with reason 2. (R238) -/
  | partnerLostTimeout (p : PortId)
  /-- A side sends a coefficient request toggling REQ_TGL. (R235) -/
  | coeffRequestSend (p : PortId) (loss : Nat)
  /-- A coefficient request unanswered for 1 ms fails training with reason 4. (R236) -/
  | coeffRequestTimeout (p : PortId)
  /-- Phase 0x07 ends by its 4 ms timer and full training follows. (R250) -/
  | relinkTimeout (p : PortId)
  /-- An armed 10BASE-T1S receiver detects a preamble and freezes its gain. (R264) -/
  | preambleDetect (p : PortId) (level : BitVec 8) (mv : Nat)
  /-- The start-of-stream delimiter is found and the frame's signal strength latched. (R266) -/
  | ssdDetect (p : PortId) (strength : BitVec 8) (burst : Bool)
  /-- No SSD within 96 BT ends a false preamble. (R267) -/
  | ssdSearchTimeout (p : PortId)
  /-- A 9 dB rise during SSD search ends the false reception and re-arms the receiver. (R268) -/
  | rxRearm (p : PortId) (rise : BitVec 8)
  /-- A 6 dB rise between SSD and ESD discards the frame as overlapped. (R271) -/
  | rxOverlap (p : PortId) (rise : BitVec 8)
  /-- A PLCA BEACON is received, starting a follower's cycle or flagging a foreign BEACON. (R278) -/
  | beaconRx (p : PortId)
  /-- The 400 µs listening interval ends and the port goes to Up. (R277) -/
  | plcaListenTimeout (p : PortId)
  /-- A follower hears no BEACON for 400 µs and sets PLCA inactive. (R279) -/
  | beaconLossTimeout (p : PortId)
  /-- The coordinator sends a BEACON to open a PLCA cycle. (R275) -/
  | plcaCycleStart (p : PortId)
  /-- The port's transmit opportunity opens and it sends a frame and bursts. (R276) -/
  | txOpportunity (p : PortId)
  /-- A collision during transmission jams the frame and schedules a retry. (R283) -/
  | txCollision (p : PortId) (rise : BitVec 8)
  /-- A margin interval of 2^20 present symbols ends and the reported margin updates. (R297) -/
  | marginIntervalEnd (p : PortId) (snr : Int) (errs : Nat)
  /-- A 100 ms FEC window ends and the FEC alarm condition is evaluated. (R304) -/
  | fecWindowEnd (ports : List FecReport)
  /-- Drop persistence expires and the link drops with reason 9. (R305) -/
  | healthDrop (p : PortId) (fec : Bool)
  /-- The periodic interval passes and a Sounding run starts. (R313) -/
  | soundingPeriodicStart (p : PortId)
  /-- Reflection analysis of a run completes, comparison with the baseline made and SOUNDING_DONE raised. (R312) -/
  | soundingDone (p : PortId)
  /-- The run timeout passes before all snapshots; the run ends with status 1. (R312) -/
  | soundingRunTimeout (p : PortId)
  /-- After 1 ms of energy measurement, the cable test stimulus starts. (R322) -/
  | cableTestStimulusStart (p : PortId) (partner : Bool)
  /-- At 17 ms the stimulus stops and analysis begins. (R322) -/
  | cableTestStimulusEnd (p : PortId)
  /-- The cable test result is stored and the port returns to state 1. (R322) -/
  | cableTestDone (p : PortId) (rho : List Int)
  /-- A Slack request frame is received and answered with accept or refuse. (R345) -/
  | slackRequestRx (p : PortId) (token : BitVec 16)
  /-- An accept for the port's request arrives and the port silences and enters Slack. (R344) -/
  | slackAcceptRx (p : PortId) (token : BitVec 16)
  /-- A refuse arrives; the port resumes and raises SLACK_REFUSED cause 2. (R344) -/
  | slackRefuseRx (p : PortId) (token : BitVec 16)
  /-- 1 ms passes without answer: the request is resent, or after the tenth, abandoned. (R344) -/
  | slackRequestResend (p : PortId)
  /-- 100 µs after its accept, the port silences its driver and enters Slack. (R345) -/
  | slackAcceptSilence (p : PortId)
  /-- A line wake is detected on a port in Slack. (R348) -/
  | lineWake (p : PortId) (mv : Nat)
  /-- After a line wake, signal below threshold for 100 µs begins start-up. (R349) -/
  | lineWakeQuiet (p : PortId) (mv : Nat)
  /-- The 2 ms wake burst ends and start-up begins. (R349) -/
  | wakeBurstEnd (p : PortId)
  /-- WAKE_N is driven low externally, waking ports or exiting Parked. (R360) -/
  | wakeNAssert (ns : Nat)
  /-- The configured WAKE_N pulse width ends and the pin is released. (R360) -/
  | wakeNPulseEnd
  /-- All Slack handshakes end, or the timeout passes, and Parked entry proceeds or stops. (R355) -/
  | parkedHandshakeEnd
  /-- A step-down to Reduced does not fit within the timeout; RANGE. (R354) -/
  | devicePowerTimeout
  /-- A lane's margin holds the threshold for 16 intervals and it enters Up. (R375) -/
  | laneTrainingComplete (m : LaneId) (foms : List Int) (partnerReq : Bool) (tx : List Int)
  /-- A lane's training fails by clause timers or the 500 ms overall timer. (R238) -/
  | laneTrainingTimeout (m : LaneId)
  /-- A FOM interval of 2^22 symbols ends; threshold counts and CTLE revert judged. (R371) -/
  | fomIntervalEnd (m : LaneId) (x : LaneReport)
  /-- After 2^24 symbols past the tap threshold, a host CTLE steps at an alignment-marker boundary. (R374) -/
  | hostCtleStep (m : LaneId)
  /-- The 2^28-symbol CTLE hold after a revert ends. (R374) -/
  | hostCtleHoldEnd (m : LaneId)
  /-- All lanes at Up with alignment and FEC lock; the host link enters Up. (R399) -/
  | hostLinkUp (k : LinkId) (skew : BitVec 16) (order : List Nat)
  /-- A host link loses signal or alignment and leaves Up, raising HOST_LINK_DOWN. (R396) -/
  | hostLinkDown (k : LinkId) (lost : List LaneId) (am fec : Bool)
  /-- Every lane of an auto-Ebb link has no signal for 50 µs and the link enters Ebb. (R397) -/
  | ebbAutoEntry (k : LinkId)
  /-- Signal detected on a lane of an auto-Ebb link in Ebb wakes the link. (R398) -/
  | ebbSignalDetect (m : LaneId)
  /-- A waking lane not at threshold 400 µs after the event enters full training. (R401) -/
  | ebbRetrainTimeout (m : LaneId)
  /-- A scan point's 2^d comparisons complete and the scan moves to the next point. (R377) -/
  | eyeScanPointEnd (m : LaneId) (errors : Nat)
  /-- An eye scan ends, summaries computed and EYE_SCAN_DONE raised. (R410) -/
  | eyeScanDone (m : LaneId)
  /-- The scrubber reads and corrects a buffer row in a spare bank cycle. (R415) -/
  | scrubRead (bank : Fin 128) (row : Fin 8192) (words : Nat) (bad : Bool) (live : Bool) (last : Bool)
  /-- A 1 ms load window ends and fit and step-up tests are evaluated for DVFS. (R435) -/
  | loadWindowEnd
  /-- An egress gate control list entry's interval ends and gate states change. (R467) -/
  | gateChange (e : Fin 192)
  /-- The config change time arrives and the admin list becomes oper. (R466) -/
  | gclConfigChange (e : Fin 192)
  /-- A stream gate list entry's interval ends and the gate changes state. (R459) -/
  | streamGateChange (g : Fin 1024) (config : Bool)
  /-- A recovery instance's reset timer expires and the instance resets. (R464) -/
  | frerResetTimeout (i : Fin 8192)
  /-- A latent error detection period ends and the instance's difference is tested. (R464) -/
  | frerLatentTest (i : Fin 8192)
  /-- Preemption verification at link-up succeeds or fails. (R469) -/
  | preemptVerifyDone (p : PortId) (ok : Bool)
  /-- Headland's time-sync function processes a received gPTP message and adjusts its time base. (R473) -/
  | gptpMessageRx (i : Fin 4) (pos : Fin 192) (m : GptpMsg)
  /-- A gPTP instance sends Sync on its master ports at its interval or after a received Sync. (R473) -/
  | gptpSyncTx (i : Fin 4) (pos : Fin 192)
  /-- A gPTP port sends a peer-delay request at its interval. (R473) -/
  | gptpPdelayTx (i : Fin 4) (pos : Fin 192)
  /-- PPS_OUT drives a pulse at a whole multiple of the period of its time base. (R475) -/
  | ppsOutPulse (rise : Bool)
  /-- A rising edge on PPS_IN is stamped in the ticker and all time bases. (R475) -/
  | ppsInEdge
  /-- A signal engine extracts, checks and commits the updates of one copy. (R485) -/
  | ttCopyProcess (e : Fin 16) (parity : Bool) (corrected : Nat) (bad : Option (Fin 131072))
  /-- A signal's freshness period passes without commit and it becomes stale. (R492) -/
  | ttSignalStale (n : Fin 131072)
  /-- A digest route's flush interval passes and its pending records are sent. (R495) -/
  | ttDigestFlush (k : Fin 16)
  /-- A compose layout's period elapses on the ticker and it sends a frame. (R498) -/
  | ttComposePeriodic (l : Fin 16384)
  /-- The minimum interval ends and a held compose trigger sends its frame. (R498) -/
  | ttComposeHoldEnd (l : Fin 16384)
  /-- A 1-second integrity window ends and rate-fault counts restart. (R514) -/
  | integrityWindowEnd
  /-- A keeper fault entry is copied to the MRAM fault-record ring, or retried. (R516) -/
  | faultRecordCopy (ok : Bool)
  /-- A junction sensor reads above 125 °C and fault 0x090A is latched. (R661) -/
  | thermalLimit (sensor : Fin 30) (reading : Int)
  /-- A rail outside its operating range for 100 µs latches fault 0x090B. (R647) -/
  | railLimit (rail : Fin 8) (mv : Nat)
  /-- A rail below 80 % of nominal disconnects line drivers or idles host transmitters within 1 µs. (R647) -/
  | railUndervoltage (rail : Fin 8) (mv : Nat)
  /-- A parity error in keeper island state latches fault 0x090C. (R503) -/
  | keeperParity (word : BitVec 32)
  /-- LREF amplitude holds for 4,096 cycles; drive reduces and LREF PLLs may lock. (R521) -/
  | lrefStable (freq : BitVec 16)
  /-- LREF not stable within 50 ms of PGOOD_IN; start-up continues coasting with 0x0907 latched. (R522) -/
  | lrefStartTimeout
  /-- HREF seen in range for 4,096 keeper cycles becomes present. (R523) -/
  | hrefPresent
  /-- A clock monitor flags a failing clock: CLK_FAIL set, coasting and data path effects follow. (R529) -/
  | clockFail (clock : Fin 29) (stopped : Bool)
  /-- A failed clock stays in range for 4,096 keeper cycles and returns. (R527) -/
  | clockReturn (clock : Fin 30)
  /-- A PLL locks or relocks; islands switch back to it and waiting ports start up. (R530) -/
  | pllLock (pll : Fin 27)
  /-- No edge for 16 keeper cycles forces an island's clock switch. (R532) -/
  | clockForcedSwitch (i : Fin 31)
  /-- The keeper frequency measured against LREF falls outside ±10 %. (R528) -/
  | keeperFreqFault (freq : BitVec 16)
  /-- Every bridge of an island reports idle and the gate takes effect. (R31) -/
  | islandGateEffect (i : Fin 31)
  /-- 64 island clock cycles after ungating, the island's bridges open. (R536) -/
  | bridgesOpen (i : Fin 31)
  /-- A PMBus transaction of the sequencer completes, acknowledged or not. (R541) -/
  | pmbusWriteDone (ack : Bool) (data : BitVec 8)
  /-- VDD_CORE is within the settle window for 10 µs and the transition proceeds or ends. (R539) -/
  | dvfsSettled (mv : BitVec 16)
  /-- The voltage does not settle within 150 µs; retry or halt the sequencer. (R542) -/
  | dvfsSettleTimeout (mv : BitVec 16)
  /-- An Undertow run starts 100 ms after the last in continuous mode. (R586) -/
  | undertowRunStart (b : CalBlock)
  /-- A block's sensor moves ΔT from its reference and a triggered run starts. (R586) -/
  | undertowTempTrigger (sensor : Fin 24) (reading : Int)
  /-- In-traffic items measured over 2^24 symbols are checked. (R588) -/
  | undertowMeasureDone (b : CalBlock) (results : List ItemResult)
  /-- At a quiet opportunity a quiet-line item is measured with energy checks before and after. (R590) -/
  | quietOpportunityMeasure (b : CalBlock) (before after : Nat) (result : ItemResult)
  /-- One calibration step is applied at a boundary. (R591) -/
  | undertowStep (b : CalBlock)
  /-- A write session receives nothing for 60 s and is abandoned. (R600) -/
  | nvmSessionIdleTimeout
  /-- The body check completes and the header is written, closing the session. (R604) -/
  | nvmWriteEndDone (differs : Bool)
  /-- A calibration slot write completes with its header, raising CAL_STORED. (R598) -/
  | calStoreDone (differs : Bool)
  /-- A new repair log copy is written after a memory test. (R623) -/
  | repairLogWriteDone (ok : Bool)
  /-- Every 10 µs a running test rechecks its preconditions. (R612) -/
  | selftestPreconditionCheck (t : BitVec 32) (pre : Precond)
  /-- A test step ends, repair follows, the target restarts and SELFTEST_DONE is raised. (R618) -/
  | selftestStepDone (t : BitVec 32) (o : TestOutcome)
  /-- The 1000BASE-X management lane comes up or goes down under Clause 37 autonegotiation, releasing or holding event records routed to it. (R683) -/
  | managementLaneLinkChange (up : Bool)
  /-- The power-on detector releases once VDD_IO has stayed at or above 1.65 V for 50 µs: keeper starts, pins take the reset-asserted behaviour and FAULT_N is driven low. (R645) -/
  | powerOnRelease
  /-- A standard-mode port at Up loses PCS lock or meets its clause's link-fail condition and drops with link-down reason 2. (R124) -/
  | pcsLockLost (p : PortId)
  /-- The VS50 transmitter reaches a frame boundary and sends the next PHY frame: header with FCNT, flags and OAM bytes, then the coded codeword region or a training block. (R139) -/
  | vs50FrameTx (p : PortId) (words : List MiiWord)
  /-- Under CSMA/CD fallback, the MAC backoff after a collision expires and the frame is retried. (R283) -/
  | csmaBackoffExpiry (p : PortId)
  deriving DecidableEq, Repr

end Sys2Proof
end

