-- ==== Sys2Proof/Machine/Bytes.lean ====
section
/-! DEFINITION. Byte order, bit fields and sign extension: multi-byte fields are big-endian (R10), masks are
sent most significant byte first (R671), so a mask is one big-endian number whose bit b stands for object b. -/

namespace Sys2Proof.Machine

/-- The low `n` bytes of `v`, most significant first. -/
def be : Nat → Nat → List Byte
  | 0, _ => []
  | n + 1, v => BitVec.ofNat 8 (v / 256 ^ n) :: be n v

/-- The number that a list of bytes spells, most significant byte first. -/
def ofBe : List Byte → Nat
  | [] => 0
  | b :: bs => b.toNat * 256 ^ bs.length + ofBe bs

/-- The low `n` bytes of `v`, least significant first (the PMBus words of R541). -/
def le (n v : Nat) : List Byte := (be n v).reverse

/-- `n` zero bytes: a reserved field of a result (R11). -/
def zeros (n : Nat) : List Byte := List.replicate n 0

/-- The big-endian field of `n` bytes at offset `off`; bytes past the end are left out. -/
def fld (ps : List Byte) (off n : Nat) : Nat := ofBe ((ps.drop off).take n)

/-- One byte at offset `off`, 0 past the end. -/
def byteAt (ps : List Byte) (off : Nat) : Nat := (ps.getD off 0).toNat

/-- An unsigned field of `n` bits read as a two's complement number. -/
def signed (n v : Nat) : Int := if v < 2 ^ (n - 1) then (v : Int) else (v : Int) - 2 ^ n

/-- The `n` low bytes of a signed number, two's complement, most significant first. -/
def beI (n : Nat) (i : Int) : List Byte := be n (i % (256 ^ n : Nat)).toNat

/-- Bits [hi:lo] of `v`. -/
def bits (v hi lo : Nat) : Nat := (v >>> lo) % 2 ^ (hi + 1 - lo)

/-- A Boolean as a bit. -/
def b2n (b : Bool) : Nat := if b then 1 else 0

/-- The numbers below `n` whose bit is set in `m`, ascending. -/
def maskList (n m : Nat) : List Nat := (List.range n).filter fun i => m.testBit i

/-- The mask whose bits are the numbers of `l`. -/
def maskOf (l : List Nat) : Nat := l.foldl (fun m i => m ||| (1 <<< i)) 0

/-- `m` with bit `i` set. -/
def setBit (m i : Nat) : Nat := m ||| (1 <<< i)

/-- `m` with bit `i` clear. -/
def clrBit (m i : Nat) : Nat := if m.testBit i then m - (1 <<< i) else m

/-- A value held at the greatest value of `n` bits when it passes it (saturating fields). -/
def sat (n v : Nat) : Nat := min v (2 ^ n - 1)

/-- ASCII bytes of a string. -/
def ascii (s : String) : List Byte := s.toList.map fun c => BitVec.ofNat 8 c.toNat

/-- `bs` brought to `n` bytes with zero bytes behind, or cut. -/
def padTo (n : Nat) (bs : List Byte) : List Byte := (bs ++ zeros n).take n

/-- `bs` with the bytes of `new` written from offset `off` (within its length). -/
def patch (bs : List Byte) (off : Nat) (new : List Byte) : List Byte :=
  (bs.take off ++ new.take (bs.length - off)) ++ bs.drop (off + new.length)

end Sys2Proof.Machine
end

