-- ==== Sys2Proof/Machine/Crypto.lean ====
section
/-! DEFINITION. The check words of the spec: CRC-32C (R36), the CRC-16 of R156, the CRC-8 of R487, the IEEE 802.3
FCS, and AES-128-CMAC (R37). The AES rounds and the CMAC subkeys are those of FIPS 197 and NIST SP 800-38B, which
R37 cites and does not restate (PRESUMED, log entry 4). -/

namespace Sys2Proof.Machine

/-- One bit step of a reflected CRC of width up to 32 with reflected polynomial `poly`. -/
def crcBit (poly c : Nat) : Nat := if c % 2 = 1 then (c / 2) ^^^ poly else c / 2

/-- One byte step of a reflected CRC. -/
def crcByte (poly c : Nat) (b : Byte) : Nat :=
  crcBit poly (crcBit poly (crcBit poly (crcBit poly (crcBit poly (crcBit poly (crcBit poly (crcBit poly
    (c ^^^ b.toNat))))))))

/-- CRC-32C: polynomial 0x1EDC_6F41 reflected is 0x82F6_3B78, initial value and final XOR all ones (R36). -/
def crc32c (bs : List Byte) : Nat := (bs.foldl (crcByte 0x82F63B78) 0xFFFFFFFF) ^^^ 0xFFFFFFFF

/-- The same check word from another initial value (R449). -/
def crc32cFrom (seed : Nat) (bs : List Byte) : Nat := (bs.foldl (crcByte 0x82F63B78) (seed % 2 ^ 32)) ^^^ 0xFFFFFFFF

/-- The IEEE 802.3 FCS: polynomial 0x04C1_1DB7 reflected is 0xEDB8_8320. -/
def crc32 (bs : List Byte) : Nat := (bs.foldl (crcByte 0xEDB88320) 0xFFFFFFFF) ^^^ 0xFFFFFFFF

/-- One bit step of an unreflected CRC of `w` bits. -/
def crcBitM (w poly c : Nat) : Nat :=
  if c / 2 ^ (w - 1) % 2 = 1 then ((c * 2) % 2 ^ w) ^^^ poly else c * 2

/-- One byte step of an unreflected CRC of `w` bits, `w` at least 8. -/
def crcByteM (w poly c : Nat) (b : Byte) : Nat :=
  crcBitM w poly (crcBitM w poly (crcBitM w poly (crcBitM w poly (crcBitM w poly (crcBitM w poly
    (crcBitM w poly (crcBitM w poly (c ^^^ (b.toNat * 2 ^ (w - 8))))))))))

/-- CRC-16 of R156: polynomial 0x1021, initial value 0xFFFF. -/
def crc16 (bs : List Byte) : Nat := bs.foldl (crcByteM 16 0x1021) 0xFFFF

/-- The CRC-8 of R487: polynomial 0x1D, initial value and final XOR 0xFF. -/
def crc8tt (bs : List Byte) : Nat := (bs.foldl (crcByteM 8 0x1D) 0xFF) ^^^ 0xFF

/-- Multiplication by x in the AES field. -/
def xtime (b : Nat) : Nat := if b < 128 then b * 2 else ((b * 2) ^^^ 0x11B)

/-- Multiplication in the AES field, by the eight bits of `a`. -/
def gmulN : Nat → Nat → Nat → Nat
  | 0, _, _ => 0
  | n + 1, a, b => (if a % 2 = 1 then b else 0) ^^^ gmulN n (a / 2) (xtime b)

/-- Product of two bytes in the AES field. -/
def gmul (a b : Nat) : Nat := gmulN 8 a b

/-- The inverse of a byte in the AES field, as its 254th power (0 for 0). -/
def ginv (a : Nat) : Nat :=
  let a2 := gmul a a
  let a3 := gmul a2 a
  let a6 := gmul a3 a3
  let a12 := gmul a6 a6
  let a15 := gmul a12 a3
  let a30 := gmul a15 a15
  let a60 := gmul a30 a30
  let a120 := gmul a60 a60
  let a126 := gmul a120 a6
  let a127 := gmul a126 a
  gmul a127 a127

/-- Left rotation of a byte. -/
def rotl8 (x n : Nat) : Nat := ((x * 2 ^ n) % 256) ||| (x / 2 ^ (8 - n))

/-- The AES S-box. -/
def sbox (a : Nat) : Nat :=
  let b := ginv a
  b ^^^ rotl8 b 1 ^^^ rotl8 b 2 ^^^ rotl8 b 3 ^^^ rotl8 b 4 ^^^ 0x63

/-- One round of the AES-128 key schedule, from the 16 bytes of the previous round key. -/
def keyRound (rc : Nat) (k : List Nat) : List Nat :=
  let g := fun i => k.getD i 0
  let t := [sbox (g 13) ^^^ rc, sbox (g 14), sbox (g 15), sbox (g 12)]
  let w0 := (List.range 4).map fun i => g i ^^^ t.getD i 0
  let w1 := (List.range 4).map fun i => g (4 + i) ^^^ w0.getD i 0
  let w2 := (List.range 4).map fun i => g (8 + i) ^^^ w1.getD i 0
  let w3 := (List.range 4).map fun i => g (12 + i) ^^^ w2.getD i 0
  w0 ++ w1 ++ w2 ++ w3

/-- Byte-wise XOR of two blocks. -/
def xorB (a b : List Nat) : List Nat := List.zipWith (fun x y => x ^^^ y) a b

/-- SubBytes and ShiftRows on a block held column by column. -/
def subShift (s : List Nat) : List Nat :=
  (List.range 16).map fun i => sbox (s.getD ((i + 4 * (i % 4)) % 16) 0)

/-- MixColumns on one column. -/
def mixCol (a b c d : Nat) : List Nat :=
  [xtime a ^^^ (xtime b ^^^ b) ^^^ c ^^^ d, a ^^^ xtime b ^^^ (xtime c ^^^ c) ^^^ d,
   a ^^^ b ^^^ xtime c ^^^ (xtime d ^^^ d), (xtime a ^^^ a) ^^^ b ^^^ c ^^^ xtime d]

/-- MixColumns on a block. -/
def mixCols (s : List Nat) : List Nat :=
  let g := fun i => s.getD i 0
  mixCol (g 0) (g 1) (g 2) (g 3) ++ mixCol (g 4) (g 5) (g 6) (g 7) ++
    mixCol (g 8) (g 9) (g 10) (g 11) ++ mixCol (g 12) (g 13) (g 14) (g 15)

/-- The AES rounds from the second on, with the round constants still to come. -/
def aesRounds : List Nat → List Nat → List Nat → List Nat
  | [], _, s => s
  | [rc], k, s => xorB (subShift s) (keyRound rc k)
  | rc :: rcs, k, s =>
    let k' := keyRound rc k
    aesRounds rcs k' (xorB (mixCols (subShift s)) k')

/-- AES-128 of one block of 16 bytes. -/
def aes128 (key block : List Nat) : List Nat :=
  aesRounds [0x01, 0x02, 0x04, 0x08, 0x10, 0x20, 0x40, 0x80, 0x1B, 0x36] key (xorB block key)

/-- A number as 16 bytes. -/
def block16 (v : Nat) : List Nat := (be 16 v).map BitVec.toNat

/-- Bytes as a number. -/
def ofBlock (b : List Nat) : Nat := b.foldl (fun a x => a * 256 + x) 0

/-- Doubling in the CMAC field (SP 800-38B subkeys). -/
def cmacDbl (v : Nat) : Nat :=
  if v < 2 ^ 127 then v * 2 else ((v * 2) % 2 ^ 128) ^^^ 0x87

/-- The CBC chain over the whole blocks of a message, `n` blocks at most. -/
def cbc (key : List Nat) : Nat → List Nat → List Nat → List Nat
  | 0, x, _ => x
  | n + 1, x, m =>
    if m.length ≤ 16 then xorB x m else cbc key n (aes128 key (xorB x (m.take 16))) (m.drop 16)

/-- AES-128-CMAC of a message under a 128-bit key (R37). -/
def cmac (key : Nat) (msg : List Byte) : Nat :=
  let k := block16 key
  let k1 := cmacDbl (ofBlock (aes128 k (block16 0)))
  let m := msg.map BitVec.toNat
  let full := m.length % 16 = 0 ∧ m.length ≠ 0
  let body := if full then m
    else m ++ 0x80 :: List.replicate (15 - m.length % 16) 0
  let sub := if full then k1 else cmacDbl k1
  let n := body.length / 16 - 1
  let last := body.drop (16 * n)
  let front := body.take (16 * n) ++ xorB last (block16 sub)
  ofBlock (aes128 k (cbc k (n + 1) (block16 0) front))

end Sys2Proof.Machine
end

