-- ==== Sys2Proof/Config.lean ====
section
/-! DEFINITION. What a die or an implementation fixes, and the values the spec leaves open. An `opaque` constant here
has no body: nothing can evaluate it, so no proof leans on a value of it. -/

namespace Sys2Proof.Config

/-- The part is DZ128-Q2 (debug locked), else DZ128-Q2E (R1, R86). -/
opaque isQ2 : Bool
/-- Die identifier in fuses (IDENTITY_READ). -/
opaque dieId : BitVec 64
/-- Command MAC address in fuses (R41). -/
opaque fuseMac : BitVec 48
/-- Regulator address in fuses (R545). -/
opaque fuseAvs : BitVec 7
/-- Per-die voltage trim of an operating point in fuses, in mV; R537 bounds it. -/
opaque vTrim : Nat → Int
/-- Reason byte of the `AUTH_FAILURE` event, whose coding R684 does not give: a free value. -/
opaque authReason : Nat → Byte
/-- A relink tag that a master chooses (R245): a free value. -/
opaque relinkTag : Nat → BitVec 32
/-- A Slack token that a requester chooses (R342): a free value. -/
opaque slackToken : Nat → BitVec 16
/-- The remaining time that a block under test answers (R616), which the spec does not compute: a free value. -/
opaque testRemaining : Nat → BitVec 32
/-- Which of the possible slots of the stream table the device chooses (R453): a free value of the draw and the move. -/
opaque slotPick : Nat → Nat → Nat
/-- Paths of a recovery instance under latent error detection, which no command gives (R464). -/
opaque latentPaths : Nat
/-- The bits that remain of an uncorrectable signal entry (R484): a free value. -/
opaque sigBits : Nat → BitVec 64
/-- A row or bank number that the spec leaves to where a cell happens to lie (R413): a free value. -/
opaque rowPick : Nat → Nat
/-- A byte of a calibration slot's records, which are the device's own (R594): a free value. -/
opaque calByte : Nat → Byte
/-- The bytes of a copy of the repair log by its sequence, whose layout R622 does not give: a free value. -/
opaque logCopy : Nat → List Byte
/-- Elements or patterns that a running test has completed so far (SELFTEST_STATUS): a free value. -/
opaque testProgress : Nat → BitVec 32
/-- How an adaptive tap update rounds, by draw and tap: up when true. R178 and R179 give the step size and no rounding. -/
opaque tapRound : Nat → Nat → Bool
/-- Drift of a moved window, which only counts as exceeding the limit (R201): a free value. -/
opaque movedDrift : Nat → BitVec 16

/-- The reflection coefficient in 2⁻¹⁵ at a tap, of the averaged taps of a run and the insertion loss measured in training, in
0.1 dB (R310): the pulse shape, the tap of the partner's pins and the rounding are the device's own. A free value. -/
opaque reflect : List Rat → Option Nat → Nat → BitVec 16

/-- Whether a low pulse on `WAKE_N` of 1 µs to 10 µs is accepted, by draw: R360 fixes only shorter and longer ones. A free value. -/
opaque wakePulse : Nat → Bool

/-- Transmit coefficient by preset and tap, in 2⁻¹⁴: R369 takes the presets of Clause 163 and does not restate them. A free value. -/
opaque presetTap : Nat → Nat → BitVec 16
/-- Symbol of the SSPRQ pattern at its place, which R403 takes from IEEE 802.3ck: a free value. -/
opaque ssprq : Nat → BitVec 2
/-- Whether a checker has lost its pattern, by the bits it has compared and found in error in a report (R403): a free value. -/
opaque lockLost : Nat → Nat → Bool
/-- Whether a host link aligns over a skew in ns above the 180 ns that R385 asks for: a free value. -/
opaque deskews : Nat → Bool

end Sys2Proof.Config
end

