-- ==== Sys2Proof/Machine/Tab.lean ====
section
/-! DEFINITION. Sparse tables: the blocks of one kind (ports, lanes, queues, counters, memory bytes) as a list of
(number, record) pairs in one canonical form: numbers strictly rising, and no pair whose record equals the value
that an unlisted number reads as. Equal tables are equal lists. -/

namespace Sys2Proof.Machine

/-- A sparse table with records of type `α`. -/
abbrev Tab (α : Type) := List (Nat × α)

variable {α : Type}

/-- The record of number `k`; an unlisted number reads as `d`. -/
def Tab.get (d : α) : Tab α → Nat → α
  | [], _ => d
  | (j, a) :: t, k => if k = j then a else Tab.get d t k

/-- The table without number `k`. -/
def Tab.erase : Tab α → Nat → Tab α
  | [], _ => []
  | (j, a) :: t, k => if k = j then t else if k < j then (j, a) :: t else (j, a) :: Tab.erase t k

/-- The table with record `a` at number `k`, in rising order. -/
def Tab.put : Tab α → Nat → α → Tab α
  | [], k, a => [(k, a)]
  | (j, b) :: t, k, a =>
    if k = j then (k, a) :: t else if k < j then (k, a) :: (j, b) :: t else (j, b) :: Tab.put t k a

/-- Write record `a` at number `k`; writing the value that an unlisted number reads as removes the pair. -/
def Tab.set [DecidableEq α] (d : α) (t : Tab α) (k : Nat) (a : α) : Tab α :=
  if a = d then t.erase k else t.put k a

/-- Change the record of number `k` by `f`. -/
def Tab.upd [DecidableEq α] (d : α) (t : Tab α) (k : Nat) (f : α → α) : Tab α :=
  t.set d k (f (t.get d k))

/-- The canonical form. -/
abbrev Tab.wf (d : α) (t : Tab α) : Prop :=
  t.Pairwise (fun x y => x.1 < y.1) ∧ ∀ e ∈ t, e.2 ≠ d

/-- The pairs whose numbers lie outside `lo ≤ k < hi`. -/
def Tab.dropRange (t : Tab α) (lo hi : Nat) : Tab α := t.filter fun e => e.1 < lo || hi ≤ e.1

end Sys2Proof.Machine
end

