-- ==== Sys2Proof/Machine/State.lean ====
section
/-! DEFINITION. The state of the DZ128 block as plain data: every register, queue, counter, mode and pin the spec
names, the queue of waiting commands, and the two fields of the model's own (the ticker's steps and the count of
free values drawn). `State.reset` is the device right after its power-on reset (log entry 2). -/

namespace Sys2Proof.Machine

/-! ### Statuses (R55) -/

/-- The status codes of R55. -/
inductive Status where
  | ok | accepted | busy | busySelftest | invalidOpcode | invalidParam | invalidLength | invalidTarget
  | notPermitted | authFail | quiesceTimeout | islandGated | range | nvmFail | calFail | bistRefused
  | incomplete | epochRolledBack | internalError
  deriving DecidableEq, Repr

/-- The code of a status (R55). -/
def Status.code : Status → Nat
  | .ok => 0x0000 | .accepted => 0x0001 | .busy => 0x0010 | .busySelftest => 0x0011
  | .invalidOpcode => 0x0020 | .invalidParam => 0x0021 | .invalidLength => 0x0022 | .invalidTarget => 0x0023
  | .notPermitted => 0x0030 | .authFail => 0x0031 | .quiesceTimeout => 0x0040 | .islandGated => 0x0041
  | .range => 0x0050 | .nvmFail => 0x0060 | .calFail => 0x0070 | .bistRefused => 0x0080
  | .incomplete => 0x0081 | .epochRolledBack => 0x0090 | .internalError => 0x00F0

/-! ### Control path -/

/-- A reply or event packet that the device has built (R35, R676). -/
structure Packet where
  /-- Source number it leaves on (R675). -/
  dest : Nat
  /-- Destination MAC address on the Ethernet transports (R41, R43). -/
  da : Nat
  opcode : Nat
  tag : Nat
  target : Nat
  seq : Nat
  flags : Nat
  status : Nat
  data : List Byte
  /-- The CMAC tag, when AUTH is 1 (R84). -/
  cmac : Option Nat
  /-- An `EVENT_NOTIFY` packet, which the SPI queue never discards (R40). -/
  event : Bool
  deriving DecidableEq, Repr

/-- An event record (R67). -/
structure EventRec where
  seq : Nat
  code : Nat
  sev : Nat
  tmValid : Bool
  src : Nat
  tidemark : Nat
  op : Nat
  tag : Nat
  detail : List Byte
  deriving DecidableEq, Repr

/-- An event record still owed while Headland is not at READY: a `COMMAND_DONE` (R22, R571), an `EPOCH_DONE` (R66), or
an event of something that happened while the event queue was being emptied (R601). -/
structure OwedEvent where
  code : Nat
  sev : Nat
  src : Nat
  op : Nat
  tag : Nat
  detail : List Byte
  deriving DecidableEq, Repr

/-- A packet in Headland's command queue (R46), with the cells of the command reserve that its frame holds: of its link's own
eight, and of the shared command pool (R45). -/
structure QueuedCmd where
  op : Nat
  req : Req
  own : Nat
  pool : Nat
  deriving DecidableEq, Repr

/-- The transports, the mailbox and the event queue (R39 to R46, R67 to R74). -/
structure Ctl where
  /-- MBX_STATUS [31]. -/
  feReady : Bool := false
  /-- MBX_STATUS [30]. -/
  reqBusy : Bool := false
  /-- The 2 KiB request window; a byte not listed is 0 (log entry 5). -/
  window : Tab Byte := []
  /-- Replies and event packets for SPI, oldest first; the reply window shows the first (R40). -/
  spiQueue : List Packet := []
  /-- Headland's command queue, oldest first (R46, R48). -/
  cmdQueue : List QueuedCmd := []
  /-- Packets that have left on the management lane and the host links, each with the bytes of its frame, newest first (the
  model's record of its outputs, log entry 6). -/
  sent : List (Packet × List Byte) := []
  /-- Management lane link (R683). -/
  mgmtUp : Bool := false
  /-- Last accepted sequence of each source (R50). -/
  lastSeq : Tab Nat := []
  /-- Bytes taken from a host link's command token bucket (R45). -/
  bucketUsed : Tab Nat := []
  /-- Ticker value at a bucket's last use. -/
  bucketAt : Tab Nat := []
  /-- Sources whose Breakwater command has not completed (R72). -/
  bwBusy : List Nat := []
  events : List EventRec := []
  /-- Sequence that the next record takes (R67). -/
  nextEvent : Nat := 1
  /-- Records lost since the queue last had space (R68). -/
  lost : Nat := 0
  newestAck : Nat := 0
  /-- Newest record already sent in an `EVENT_NOTIFY` (R69). -/
  notified : Nat := 0
  /-- `EVENT_NOTIFY` packets sent on each route, keyed by source number (R676). -/
  notifySeq : Tab Nat := []
  /-- Records that wait for READY, oldest first (R22, R66, R601). -/
  owed : List OwedEvent := []
  /-- `SAFE_STATE` override (R75). -/
  safeState : Bool := false
  /-- Keeper time at which `SAFE_STATE` enter last reached Breakwater, and its source (R77). -/
  safeAt : Option (Nat × Nat) := none
  deriving DecidableEq, Repr

/-- A CMAC key slot in fuses (R82). -/
structure KeySlot where
  programmed : Bool := false
  revoked : Bool := false
  key : Nat := 0
  deriving DecidableEq, Repr

/-- Fuses that commands read or write (R82, R84, R625). Their contents on a die are log entry 3. -/
structure Fuses where
  minPolicy : Nat := 0
  key0 : KeySlot := {}
  key1 : KeySlot := {}
  /-- Permanent repair entries of a bank: (spare row, repaired row). -/
  repair : Tab (List (Nat × Nat)) := []
  deriving DecidableEq, Repr

/-! ### Committed configuration -/

/-- Device-wide settings (R89, R517, R545, R575, R602, R364, R84, R85). -/
structure DevCfg where
  etherType : Nat := 0x88B5
  cmdMac : Nat
  inband : Nat := 2 ^ 64 - 1
  mgmtOn : Bool := true
  route : Nat := 0
  routeLink : Nat := 0
  routeMac : Nat := 0
  evMask : Nat := 0x0F
  policy : Nat := 0
  active : Option Nat := none
  thrBuffer : Nat := 4
  thrStream : Nat := 1
  thrSignal : Nat := 1
  thrMeta : Nat := 16
  thrCarry : Nat := 16
  dvfsMode : Nat := 1
  dvfsPoint : Nat := 0
  avsAddr : Nat
  avsFlags : Nat := 3
  avsPage : Nat := 0xFF
  wdOn : Bool := true
  wdAction : Nat := 0
  wdTimeout : Nat := 1000
  calMode : Nat := 2
  calDelta : Nat := 5
  calFlags : Nat := 1
  wakeFlags : Nat := 0x0D
  wakePulse : Nat := 1
  deriving DecidableEq, Repr

/-- `PORT_MODE_SET` record (R104, R107, R114). -/
structure ModeCfg where
  /-- A `PORT_MODE_SET` has been committed since the last reset of reach 0 to 2 (R104). -/
  set : Bool := false
  mode : Nat := 0
  neg : Nat := 0
  role : Nat := 0
  adv : Nat := 0
  maxFrame : Nat := 1522
  flush : Nat := 10
  deriving DecidableEq, Repr

/-! ### Integrity (R513 to R519) -/

/-- An entry of the keeper fault record (R81). -/
structure FaultEntry where
  seq : Nat
  code : Nat
  cls : Nat
  tmValid : Bool
  src : Nat
  keeperTime : Nat
  tidemark : Nat
  detail : List Byte
  copied : Bool
  deriving DecidableEq, Repr

/-- Errors still to be injected at one point (R685). -/
structure Inject where
  point : Nat
  target : Nat
  count : Nat
  deriving DecidableEq, Repr

/-- The fault collector, the latches and `FAULT_N` (R513 to R516). -/
structure Integ where
  /-- Newest first, at most 64 (R81). -/
  record : List FaultEntry := []
  /-- Sequence of the newest entry, 0 when none. -/
  faultSeq : Nat := 0
  copiedSeq : Nat := 0
  /-- Bit k: fault 0x0901 + k latched (R515). -/
  latches : Nat := 0
  /-- Conditions present of the faults that are not rate faults, same coding. -/
  present : Nat := 0
  /-- Counts of the present 1-second window: 0 to 3 buffer errors per slice, 4 stream table, 5 signal table,
  6 metadata, 7 carried FCS (R514). -/
  window : Tab Nat := []
  /-- Counts that already made their entry in this window. -/
  made : Nat := 0
  /-- Thresholds that apply in the present window, in the order of `INTEGRITY_CONFIG` (R517). -/
  thr : List Nat := [4, 1, 1, 16, 16]
  inject : List Inject := []
  /-- Start-up assertion of `FAULT_N` (R557). -/
  startAssert : Bool := true
  deriving DecidableEq, Repr

/-! ### Clocks (R520 to R547) -/

/-- A DVFS transition in progress (R538). -/
structure Trans where
  fromPt : Nat
  toPt : Nat
  /-- 0 the voltage write, 1 waiting for the voltage to settle, 2 a page write before it. -/
  stage : Nat
  attempts : Nat
  startedAt : Nat
  /-- Address, flags and page that the transition's transactions use: those in force when it began (R545). -/
  avs : Nat × Nat × Nat := (0, 0, 0xFF)
  deriving DecidableEq, Repr

/-- References, PLLs, monitors, island gating and the DVFS sequencer. -/
structure Clk where
  /-- CLOCK_STATUS coding: 0 starting, 1 stable, 2 lost, 3 not stable within 50 ms. -/
  lref : Nat := 0
  /-- 0 absent, 1 present, 2 lost. -/
  href : Nat := 0
  /-- PLLs locked: bits 0 to 15 cove, 16 to 23 quay, 24 core, 25 Tidemark, 26 management lane. -/
  locked : Nat := 0
  /-- Clocks failing at present, same coding, and 27 LREF, 28 HREF, 29 the keeper (R529). -/
  failed : Nat := 0
  /-- CLK_FAIL, bit i for island i. -/
  clkFail : Nat := 0
  forced : Nat := 0
  /-- Islands that run from the keeper clock (R533). -/
  onKeeper : Nat := 2 ^ 31 - 1
  gated : Nat := 0
  /-- Islands gated by Parked entry (R546, R443). -/
  parkedGated : Nat := 0
  /-- Islands whose gate request waits for its bridges (R31). -/
  gateReq : Nat := 0
  /-- Islands ungated whose bridges have not opened (R536). -/
  shut : Nat := 0
  keeperFreq : Nat := 0
  /-- Operating point: 1 Spring, 2 Mid, 3 Neap. -/
  point : Nat := 3
  halted : Bool := false
  suspended : Bool := false
  /-- The start's PMBus sequence has ended, settled or not (R541). -/
  startDone : Bool := false
  /-- The halt came from the start's own PMBus sequence (R541). -/
  startHalt : Bool := false
  settledOnce : Bool := false
  trans : Option Trans := none
  stepUp : Bool := false
  /-- PMBus attempts of the start sequence: stage 0 PAGE, 1 VOUT_MODE, 2 Neap write, 3 settle, 4 done. -/
  pmStage : Nat := 0
  pmTries : Nat := 0
  voutMode : Nat := 0
  /-- VDD_CORE target of the present point, in 2⁻¹⁶ V, as written (R541). -/
  vTarget : Nat := 0
  /-- A committed page is written before the next transition's voltage (R545). -/
  pageDue : Bool := false
  /-- Ticker value at which the present point was entered, and ticker units spent at each point before it (R547). -/
  pointAt : Nat := 0
  timeAt : Tab Nat := []
  deriving DecidableEq, Repr

/-! ### Reset and start (R548 to R579) -/

/-- Who waits for the end of a reset job: a source's command (R574). -/
structure Waiter where
  op : Nat
  tag : Nat
  src : Nat
  deriving DecidableEq, Repr

/-- One source of reach 3 or 4, from its drain to the end of its start-up (R550, R556); a target has at most one. -/
structure ResetJob where
  target : Nat
  reach : Nat
  /-- A command or an agent holds it. -/
  hold : Bool
  /-- 0 draining, 1 asserted, 2 starting up. -/
  phase : Nat := 0
  /-- Strongest reach of its episode, once it starts up (R551). -/
  strongest : Nat := 4
  forced : Bool := false
  /-- Its drain has completed while another of its episode still drains (R27). -/
  drained : Bool := false
  discarded : Nat := 0
  /-- Commands that it closes: 0 a pulse, at the end of the start-up; 1 a hold, at the assertion; 2 a release, at the
  end of the start-up (R574). -/
  waiters : List (Waiter × Nat) := []
  /-- Breakwater `DOMAIN_RESET` packets whose reply marks the assertion (R79). -/
  bwReply : List Req := []
  deriving DecidableEq, Repr

/-- A source recorded under R552 for later. -/
structure Recorded where
  target : Nat
  reach : Nat
  hold : Bool
  waiter : Option (Waiter × Nat)
  deriving DecidableEq, Repr

/-- The record of the last start (`BOOT_STATUS`). -/
structure BootRec where
  kind : Nat := 0
  slot : Nat := 0xFF
  fwResult : Nat := 0
  profSlot : Nat := 0xFF
  profResult : Nat := 2
  cal : Nat := 0
  toFe : Nat := 0
  toReady : Nat := 0
  packets : Nat := 0
  failPkt : Nat := 0xFFFFFFFF
  failStatus : Nat := 0
  deriving DecidableEq, Repr

/-- The reset controller and Headland's life. -/
structure Rst where
  /-- The power-on detector has released (R645). -/
  powered : Bool := false
  /-- Filtered pin levels (R549). -/
  pgood : Bool := false
  resetN : Bool := false
  /-- `BOOTSEL` at a release of a reset that waits under R552. -/
  bootselPins : Nat := 0
  /-- Reach of the cold or pin reset that waits for READY (R552). -/
  due : Option Nat := none
  /-- BOOTSEL as sampled (R559). -/
  bootsel : Nat := 0
  /-- A reset of reach 0 to 2 is asserted. -/
  asserted : Bool := true
  /-- Reach of the reset asserted, or of the start-up in progress. -/
  reach : Nat := 0
  /-- Start-up of reach 0 to 2 in progress, until READY. -/
  starting : Bool := false
  /-- A warm reset is due: 0 none, 1 asked by command, 2 by the watchdog. -/
  warmDue : Nat := 0
  fusesLoaded : Bool := false
  fwChecked : Bool := false
  bistDone : Bool := false
  calDone : Bool := false
  /-- Ticker value at the reference of the start. -/
  startAt : Nat := 0
  startKind : Nat := 0
  warmCause : Nat := 0
  /-- READ_CORE_STATUS coding: 0 in reset, 1 starting, 2 READY, 3 watchdog expired, 4 firmware failed. -/
  headland : Nat := 0
  slot : Nat := 0
  /-- Slot of `FIRMWARE_SELECT` (0 A, 1 B) in force (R576). -/
  sel : Option Nat := none
  /-- Slot and header sequence of the image last checked (R564). -/
  lastImage : Option (Nat × Nat) := none
  fwVersion : Nat := 0
  boot : BootRec := {}
  jobs : List ResetJob := []
  recorded : List Recorded := []
  lastForced : Nat := 0xFFFFFFFF
  episodes : Nat := 0
  lastReach : Nat := 0xFF
  lastEnd : Nat := 0
  /-- Slice gates that drain or wait for their bridges: slice, opcode, command, and whether the drain was forced (R443). -/
  gating : List (Nat × Nat × Req × Bool) := []
  deriving DecidableEq, Repr

/-! ### MRAM and calibration (R580 to R606) -/

/-- A host write session (R600). -/
structure NvmSession where
  region : Nat
  src : Nat
  len : Nat
  /-- After `NVM_WRITE_END`: its tag and the expected body check. -/
  closing : Option (Nat × Nat)
  deriving DecidableEq, Repr

/-- A device store of calibration values in progress (R594). -/
structure CalStore where
  region : Nat
  seq : Nat
  /-- The command it closes, none for an auto-store. -/
  waiter : Option Waiter
  deriving DecidableEq, Repr

/-- The MRAM, its controller and the write session. -/
structure Nvm where
  /-- The MRAM's bytes by MRAM address (R595); an unlisted byte is 0 (log entry 7). -/
  mem : List Host.Cell := []
  session : Option NvmSession := none
  store : Option CalStore := none
  /-- NVM writes are over after `DEVICE_POWER_SET` Off (R359). -/
  off : Bool := false
  /-- Entries ever copied to the fault-record ring: the next goes to this number mod 2,048 (R516). -/
  ringNext : Nat := 0
  deriving DecidableEq, Repr

/-- Calibration of one line port or host lane (CAL_STATUS). -/
structure Cal where
  last : Nat := 0
  failed : Nat := 0
  pending : Nat := 0
  /-- Ticker value at the end of the last run. -/
  endedAt : Option Nat := none
  source : Nat := 0
  /-- A run is in progress, its in-traffic items have been measured, and the sensor's reading at its start (R586). -/
  running : Bool := false
  measured : Bool := false
  startRead : Int := 0
  /-- Items whose last attempt in the run failed. -/
  runFailed : Nat := 0
  /-- Steps still to be applied: (item, value number, signed steps left) (R591). -/
  steps : List (Nat × Nat × Int) := []
  /-- Applied steps by item × 64 + value, in steps from the value restored or measured at start. -/
  values : Tab Int := []
  /-- Failures since the last `CAL_FAILED` event. -/
  failures : Nat := 0
  /-- Ticker value of the last `CAL_FAILED` event. -/
  eventAt : Option Nat := none
  /-- Modes in which item 6 has been run since the start, and a run of it that is due (R581). -/
  modesSeen : Nat := 0
  item6 : Bool := false
  deriving DecidableEq, Repr

/-- A `CAL_RUN` that has not closed (R603). -/
structure CalJob where
  waiter : Waiter
  /-- Blocks still to finish: line port n as n, host lane m as 128 + m. -/
  left : List Nat
  status : Nat
  deriving DecidableEq, Repr

/-- Undertow and the block sensors (R586). -/
structure Calib where
  /-- By block: line port n as n, host lane m as 128 + m. -/
  blocks : Tab Cal := []
  /-- Reference readings and sensors, signed 0.25 °C: coves 0 to 15, quays as 16 to 23; sensors 0 to 29. -/
  refs : Tab Int := []
  sensors : Tab Int := []
  jobs : List CalJob := []
  /-- Blocks ordered into the foreground and not yet calibrated. -/
  foreground : List Nat := []
  /-- The foreground calibration is that of R583, which auto-store follows (R594). -/
  startAll : Bool := false
  deriving DecidableEq, Repr

/-! ### Self-test and repair (R607 to R634) -/

/-- A self-test in progress on a target (R613). -/
structure TestJob where
  kind : Nat
  flags : Nat
  /-- SELFTEST_STATUS coding: 1 draining, 2 testing, 3 repairing, 4 starting up. -/
  stage : Nat
  completed : Nat
  forced : Bool
  waiter : Waiter
  /-- Status that a happening has already given the test (R617). -/
  ended : Option Nat
  deriving DecidableEq, Repr

/-- A failure entry of a result record (R619). -/
abbrev FailEntry := List Byte

/-- A result record (R619). -/
structure TestResult where
  seq : Nat := 0
  kind : Nat := 0
  status : Nat := 0
  repair : Nat := 0
  programmed : Nat := 0
  completed : Nat := 0
  elapsed : Nat := 0
  expected : Nat := 0
  failing : Nat := 0
  entries : List FailEntry := []
  deriving DecidableEq, Repr

/-- Repair state of one buffer bank (R621 to R625). -/
structure Bank where
  /-- Soft repairs: (spare row, repaired row). -/
  soft : List (Nat × Nat) := []
  retired : List Nat := []
  spareFailed : Bool := false
  deriving DecidableEq, Repr

/-- A copy of the repair log (R622). -/
structure LogCopy where
  valid : Bool := false
  seq : Nat := 0
  map : Tab (List (Nat × Nat)) := []
  deriving DecidableEq, Repr

/-- Self-tests, results, repair maps and the repair log. -/
structure SelfTest where
  /-- By target word. -/
  running : Tab (Option TestJob) := []
  refusal : Tab Nat := []
  /-- Number of tests of a target since the last reset of reach 0 to 2. -/
  count : Tab Nat := []
  /-- By target word × 4 + kind. -/
  results : Tab TestResult := []
  banks : Tab Bank := []
  logA : LogCopy := {}
  logB : LogCopy := {}
  logDue : Bool := false
  /-- Signal entries in excluded rows of the signal table (R624). -/
  sigOut : List Nat := []
  fuseJob : Option (Nat × Nat × Waiter) := none
  deriving DecidableEq, Repr

/-- The pattern checker of a host lane (R403): its register, or place in the pattern, the symbols it has taken while not locked, and
the bits that its last report compared and found in error. -/
structure Checker where
  locked : Bool := false
  st : Nat := 0
  seen : Nat := 0
  bits : Nat := 0
  errs : Nat := 0
  deriving DecidableEq, Repr

/-- Loopback or compliance test on a line port (R626, R630). -/
structure PortTest where
  /-- 0 none, 1 to 4 the loopback actions, 5 a test pattern, 6 a self-test, 7 a cable test, 8 a calibration. -/
  action : Nat := 0
  generator : Nat := 0
  mode : Nat := 0
  length : Nat := 0
  count : Nat := 0
  sent : Nat := 0
  testMode : Nat := 0
  checker : Bool := false
  amp : Nat := 0
  ffe : Nat := 0
  nextSeq : Nat := 0
  /-- Pattern generator, or PRBS31 of the test frames' payloads, and the symbol that its precoder sent last; checker and the symbol
  received last (R627, R630, R631). -/
  gen : Nat := 0
  genPrev : Nat := 0
  chk : Checker := {}
  chkPrev : Nat := 0
  /-- Pattern symbols sent in the last window (the model's record of an output). -/
  symbols : List Nat := []
  /-- Fill of the elastic buffer of a far-end loopback from its centre, in PCS blocks (R628). -/
  fill : Int := 0
  deriving DecidableEq, Repr

/-- Rails, disconnects and pins (R641 to R647). -/
structure Elec where
  /-- Millivolts of rail 0 to 7 at the monitors. -/
  rails : Tab Nat := []
  /-- Rails outside their operating range. -/
  outMask : Nat := 0
  /-- Rails below 80 % of nominal. -/
  underMask : Nat := 0
  wakeDriven : Bool := false
  /-- Ticker value from which `WAKE_N` as an input listens again after the device has released it (R360). -/
  wakeFrom : Nat := 0
  ppsOut : Bool := false
  deriving DecidableEq, Repr
/-! ### Receive DSP (R171 to R217) -/

/-- `DSP_CONFIG` record (R211). -/
structure DspCfg where
  flags : Nat := 7
  stepOff : Int := 0
  floor : Int := 40
  credit : Int := 5
  limit : Nat := 20
  interval : Nat := 10
  settle : Nat := 100
  idleRun : Nat := 10
  unstable : Nat := 8
  deriving DecidableEq, Repr

/-- A sparse echo window (R181). -/
structure EchoWin where
  start : Option Nat := none
  taps : List Int := []
  deriving DecidableEq, Repr

/-- A NEXT canceller (R189 to R195): state 0 unused, 1 active, 2 frozen, 3 seeding. -/
structure Next where
  aggr : Option Nat := none
  st : Nat := 0
  offset : Nat := 0
  /-- Crosstalk removed, dB (XTALK_STATUS). -/
  removed : Nat := 0
  taps : List Int := []
  deriving DecidableEq, Repr

/-- The adaptive taps of a port (R175, R198). -/
structure Taps where
  ctle : Nat := 0
  ffe : List Int := []
  dfe : List Int := []
  dense : List Int := []
  wins : List EchoWin := List.replicate 8 {}
  nexts : List Next := List.replicate 3 {}
  deriving DecidableEq, Repr

/-- An anchor (R198, R206). -/
structure Anchor where
  taps : Taps
  margin : Int
  /-- Ticker value at capture. -/
  time : Nat
  /-- The CTLE, FFE and DFE entries are stale. -/
  staleRx : Bool := false
  /-- Stale NEXT entries and window entries, as masks. -/
  staleNext : Nat := 0
  staleWin : Nat := 0
  deriving DecidableEq, Repr

/-- A window in shadow training (R185): its number, its start, its taps, and the gauge windows still to train. -/
structure Shadow where
  win : Nat
  start : Nat
  taps : List Int
  left : Nat
  deriving DecidableEq, Repr

/-- Timing recovery (R174): the frequency and phase it has recovered, in the units of its loop, and whether it holds them. -/
structure Timing where
  freq : Int := 0
  phase : Int := 0
  held : Bool := false
  deriving DecidableEq, Repr

/-- The adaptation of a port (DSP_STATUS). -/
structure Dsp where
  /-- Adaptation state 0 to 5. -/
  st : Nat := 0
  taps : Taps := {}
  gauge : Nat := 0
  worst : Option Int := none
  worstBlock : Nat := 0
  residual : Option Int := none
  /-- `ECHO_UNCOVERED` has been raised and the residual has not fallen since (R187). -/
  uncovered : Bool := false
  anchor : Option Anchor := none
  /-- Ticker value since which the port has been in Track. -/
  trackSince : Nat := 0
  /-- Ticker value of the last capture. -/
  lastCapture : Option Nat := none
  /-- Reported margins and their ticker values, newest first (R199). -/
  hist : List (Nat × Int) := []
  /-- Gauge windows for which drift checks are suspended (R209). -/
  suspend : Nat := 0
  /-- Reversion due after a violation: worst block, drift, and margin (R202, R204). -/
  revert : Option (Nat × Int × Option Int) := none
  /-- Ticker values of the last reversions, newest first. -/
  reverts : List Nat := []
  unstable : Bool := false
  /-- Consecutive excited windows past the two thresholds of R180, and windows since the last step. -/
  ctleUp : Nat := 0
  ctleDown : Nat := 0
  ctleWait : Nat := 0
  /-- The window in shadow training (R185). -/
  moving : Option Shadow := none
  timing : Timing := {}
  /-- Canceller, new aggressor, its offset and its seed taps, waiting for the receive boundary (R191). -/
  replacing : Option (Nat × Nat × Nat × List Int) := none
  /-- Bundle group in force at the victim, as a mask of the cove's ports (R196). -/
  group : Nat := 0
  /-- Scout estimates of the last segment (TAP_READ). -/
  scout : List Int := []
  /-- Excited, unguarded windows of the present scout cycle (R182). -/
  scoutWins : Nat := 0
  /-- FFE precursor tap and first DFE tap of the last excited windows, newest first, at most 16 (R210). -/
  recent : List (Int × Int) := []
  /-- Requests suppressed until the link drops: rules 1 to 4 of R210 as bits 0 to 3. -/
  suppressed : Nat := 0
  /-- Commands that wait for the reversion they asked for (R215). -/
  revertBy : List Req := []
  /-- Partner's step indices as last reported. -/
  repPre : Option Nat := none
  repPost : Option Nat := none
  /-- Ticker value from which the next request may go. -/
  adjustFrom : Nat := 0
  deriving DecidableEq, Repr

/-! ### VS50 (R132 to R170) -/

/-- `VS50_CONFIG` record (R166). -/
structure Vs50Cfg where
  lpi : Nat := 0
  amp : Nat := 0
  flags : Nat := 0
  degrade : Int := 30
  deriving DecidableEq, Repr

/-- An OAM message to be sent; a user message carries its handle (R157, R168). -/
structure OamMsg where
  type : Nat
  payload : List Byte
  handle : Option Nat
  deriving DecidableEq, Repr

/-- A user message received (R169). -/
structure OamRx where
  type : Nat
  tidemark : Nat
  payload : List Byte
  deriving DecidableEq, Repr

/-- The VS50 transmitter and receiver of a port. -/
structure Vs50 where
  /-- 0 Search, 1 Confirm, 2 Locked. -/
  lock : Nat := 0
  confirm : Nat := 0
  invalidRun : Nat := 0
  inverted : Bool := false
  rxFcnt : Nat := 0
  /-- FCNT predicted for the next frame (R142). -/
  rxNext : Nat := 0
  /-- TYPE of the last valid header. -/
  rxType : Nat := 0
  rf : Bool := false
  ld : Bool := false
  lr : Bool := false
  bf : Bool := false
  /-- The receiver holds its adaptation for this frame (R147). -/
  hold : Bool := false
  rxScr : Nat := 2 ^ 58 - 1
  /-- A frame has been decoded since frame lock, so that `rxScr` follows the partner's scrambler (R227). -/
  rxSync : Bool := false
  /-- Partner's low-power idle state as tracked: 0 Active, 1 Sleep, 2 Quiet, 3 Refresh, 4 Wake; frames in it, and the
  frame of the present Quiet at which the next refresh is expected (R143, R162). -/
  rxLpi : Nat := 0
  rxCount : Nat := 0
  rxExpect : Nat := 512
  missed : Nat := 0
  txFcnt : Nat := 0
  txLpi : Nat := 0
  txCount : Nat := 0
  txScr : Nat := 2 ^ 58 - 1
  /-- New transmit settings that the frame with BF announces: amplitude, precursor and postcursor step (R147). -/
  newTx : Option (Nat × Nat × Nat) := none
  /-- BF has been sent in the last frame: the settings apply from the next. -/
  bfSent : Bool := false
  amp : Nat := 0
  pre : Nat := 0
  post : Nat := 0
  /-- Both partners advertised low-power idle (R161). -/
  lpiNeg : Bool := false
  /-- The first block not idle has reached the transmit PCS: Wake is due at the frame boundary. -/
  oamQueue : List OamMsg := []
  oamCur : Option OamMsg := none
  txTgl : Bool := false
  statusDue : Bool := false
  /-- TX_ADJUST to be sent, and one outstanding: tap and step (R159). -/
  adjustDue : Option (Nat × Nat) := none
  adjustOut : Option (Nat × Nat) := none
  /-- TX_ADJUST_REPLY to be sent: result, tap, new step index; held until the change has taken effect. -/
  replyDue : Option (Nat × Nat × Nat) := none
  replyHeld : Bool := false
  /-- Word being sent (R155). -/
  oamTx : Option (List Byte) := none
  oamRxQueue : List OamRx := []
  rxTgl : Bool := false
  /-- Bytes of the word being received, whether one was lost, and whether all its frames carry OAM. -/
  oamBytes : List Byte := []
  oamLost : Bool := false
  oamWhole : Bool := false
  /-- A complete word with its lost flag, for `OAM_WORD_RX`. -/
  oamWord : Option (List Byte × Bool) := none
  partnerMargin : Option Int := none
  partnerFlags : Nat := 0
  /-- Last frame at the pins: header and codeword-region symbols (the model's record of an output). -/
  txOut : Option (BitVec 64 × List Nat) := none
  /-- Words of the MAC that wait for a place in a frame (R133), and whole frames of only low-power idle sent last (R161). -/
  txWords : List MiiWord := []
  lpiFrames : Nat := 0
  /-- Words of the last frame received, idle ones deleted (R133; the model's record of an output). -/
  rxOut : List MiiWord := []
  /-- The receiver stands within a packet, that one is hit by an error, and for each packet that has ended and whose frame the MAC
  has yet to report, whether it was hit (R152). -/
  rxInside : Bool := false
  rxHit : Bool := false
  rxEnded : List Bool := []
  deriving DecidableEq, Repr

/-! ### Start-up (R218 to R254) -/

/-- `START_CONFIG` record (R252). -/
structure StartCfg where
  flags : Nat := 2
  downshift : Nat := 3
  margin : Int := 30
  deriving DecidableEq, Repr

/-- A valid training control block (R227, R228). -/
structure CtlBlock where
  phase : Nat
  flags : Nat
  request : Nat
  status : Nat
  steps : Nat
  ident : Nat
  tag : Nat
  countdown : Nat
  deriving DecidableEq, Repr

/-- The start-up of a port (START_STATUS). -/
structure Start where
  /-- Training phase code; 0 when not in VS50 training. -/
  phase : Nat := 0
  /-- `START_CONFIG` as taken at the begin of this start-up (R252). -/
  use : StartCfg := {}
  beganAt : Nat := 0
  lastFail : Nat := 0
  fails : Nat := 0
  excluded : Nat := 0
  /-- `DOWNSHIFT` with excluded mode 0x00 has been raised (R241). -/
  floorRaised : Bool := false
  /-- 0 none, 1 relink, 2 full training, 3 fallback. -/
  decision : Nat := 0
  partnerAdv : Nat := 0
  partnerFlags : Nat := 0
  partnerId : Nat := 0
  lastTime : Nat := 0xFFFFFFFF
  blk : Option CtlBlock := none
  rxReady : Bool := false
  /-- Pattern symbols without a decision error, and consecutive frames at the link-up margin (R232). -/
  clean : Nat := 0
  good : Nat := 0
  /-- Frames of a half-duplex phase or of phase 0x08 still to send. -/
  left : Nat := 0
  reqTgl : Bool := false
  /-- Request outstanding: tap, action and preset (R235). -/
  reqOut : Option (Nat × Nat × Nat) := none
  /-- The preset of R237 has been requested. -/
  presetAsked : Bool := false
  ackTgl : Bool := false
  ackResult : Nat := 0
  /-- An accepted request waits for its change to apply. -/
  ackDue : Bool := false
  /-- Tag that the partner claims in negotiation or HELLO, the held tag, and the tag of this training. -/
  partnerTag : Nat := 0
  heldTag : Nat := 0
  newTag : Nat := 0
  /-- The slave's RELINK decision (R248). -/
  relink : Bool := false
  /-- First data frame sent, and valid data header received (R234). -/
  dataSent : Bool := false
  dataSeen : Bool := false
  /-- Margin measured on the pattern of the last training frame (event 0x1303). -/
  reached : Option Int := none
  /-- Decision errors against the pattern in this phase (R227). -/
  patErrs : Nat := 0
  /-- Ticker value of the last coefficient request (R237). -/
  reqAt : Option Nat := none
  /-- The base page of this negotiation, and the next pages that the port has sent (R218, R219; the model's record of an output). -/
  base : Option BasePage := none
  pages : List NextPage := []
  /-- EEE abilities of the partner's base page, as mode bits (R218). -/
  partnerEee : Nat := 0
  /-- Insertion loss at the mode's Nyquist frequency that training has measured, 0.1 dB (R237, R310). -/
  loss : Option Nat := none
  deriving DecidableEq, Repr

/-- A relink record (R243), kept in the keeper island. -/
structure Relink where
  ident : Nat
  role : Nat
  tag : Nat
  pre : Nat
  post : Nat
  taps : Taps
  margin : Option Int
  /-- Ticker value of the last update. -/
  time : Nat
  updates : Nat
  deriving DecidableEq, Repr

/-! ### Multidrop (R255 to R295) -/

/-- `MD_CONFIG` record (R291). -/
structure MdCfg where
  flags : Nat := 0
  node : Nat := 0
  count : Nat := 8
  toTimer : Nat := 32
  burst : Nat := 0
  burstTimer : Nat := 128
  squelch : Nat := 120
  holdOff : Nat := 10
  deriving DecidableEq, Repr

/-- Attribution of one transmit opportunity ID (R285). -/
structure MdNode where
  flags : Nat := 0
  last : Option Int := none
  low : Option Int := none
  frames : Nat := 0
  deriving DecidableEq, Repr

/-- The 10BASE-T1S receiver and PLCA of a port. -/
structure Md where
  /-- 0 armed, 1 SSD search, 2 receiving, 3 overlapped, until the energy falls. -/
  rx : Nat := 0
  level : Int := 0
  /-- Signal strength of the frame being received, and the opportunity ID at its SSD. -/
  strength : Option Int := none
  rxOpp : Nat := 0xFF
  /-- 0 inactive, 1 active, 2 listening, 3 CSMA/CD fallback. -/
  plca : Nat := 0
  opp : Nat := 0xFF
  /-- Ticker value at which opportunity `opp` opens (R275), and opportunity ID at the last preamble detection. -/
  oppAt : Nat := 0
  preOpp : Nat := 0xFF
  lastStrength : Option Int := none
  lastCycle : Nat := 0
  longest : Nat := 0
  activeSince : Nat := 0
  /-- Ticker value of the last BEACON sent or received. -/
  beaconAt : Option Nat := none
  /-- Node ID, node count and opportunity timer in use (R290). -/
  node : Nat := 0
  count : Nat := 8
  toTimer : Nat := 32
  /-- The port's own opportunity is open, a frame has been sent in it, and burst frames still allowed. -/
  open_ : Bool := false
  used : Bool := false
  bursts : Nat := 0
  /-- Burst timer of this opportunity, and ticker value at which it ends for the next burst frame (R276). -/
  burstTimer : Nat := 128
  burstEnd : Nat := 0
  /-- Collisions of the frame in the MAC; it waits for the next opportunity or for the MAC's backoff (R283). -/
  attempts : Nat := 0
  retry : Bool := false
  backoff : Bool := false
  /-- Faults since the last `MD_DISCIPLINE_FAULT`, and its ticker value (R287). -/
  faults : Nat := 0
  faultAt : Option Nat := none
  nodes : Tab MdNode := []
  deriving DecidableEq, Repr

/-! ### Link health, Sounding and cable test (R296 to R335) -/

/-- `HEALTH_CONFIG` record (R328). -/
structure HealthCfg where
  flags : Nat := 5
  alarm : Int := 30
  hyst : Int := 10
  drop : Int := 0
  persist : Nat := 100
  fec : Nat := 1
  deriving DecidableEq, Repr

/-- `SOUNDING_CONFIG` record (R329). -/
structure SoundCfg where
  flags : Nat := 0x0E
  snaps : Nat := 4
  interval : Nat := 60
  velocity : Nat := 694
  detect : Nat := 40
  change : Nat := 30
  window : Nat := 30
  confirm : Nat := 2
  timeout : Nat := 10
  deriving DecidableEq, Repr

/-- A reflection of a result (the reflection entry). -/
structure Refl where
  pos : Nat
  tap : Nat
  rho : Int
  rl : Nat
  width : Nat
  flags : Nat
  delta : Option Int
  deriving DecidableEq, Repr

/-- A reflection of a baseline. -/
structure BaseRefl where
  pos : Nat
  tap : Nat
  rho : Int
  width : Nat
  deriving DecidableEq, Repr

/-- A baseline (R316). -/
structure Baseline where
  mode : Nat
  velocity : Nat
  ident : Nat
  refls : List BaseRefl
  deriving DecidableEq, Repr

/-- A Sounding run in progress (R312, R315, R329). -/
structure SoundRun where
  cfg : SoundCfg
  mode : Nat
  base : Option Baseline
  /-- Snapshots still to take. -/
  left : Nat
  /-- A reversion has fallen into the present scout cycle (R315). -/
  spoiled : Bool
  asBase : Bool
  waiter : Option Waiter
  /-- Sums of the snapshots by tap, how many there are, and the window starts of the last one (R309, R310). -/
  sums : List Int := []
  taken : Nat := 0
  starts : List Nat := []
  deriving DecidableEq, Repr

/-- The result of the last completed run, or of the last cable test (R331). -/
structure SoundResult where
  seq : Nat
  /-- Mode of a run, or class of a cable test. -/
  mode : Nat
  flags : Nat
  dist : Nat
  imp : Nat
  /-- Ticker value at its end. -/
  time : Nat
  entries : List Refl
  velocity : Nat
  ident : Nat
  profile : List Int
  deriving DecidableEq, Repr

/-- A difference from the baseline followed over runs (R319): kind 0 new, 1 changed, 2 lost; its position, or the number
of its baseline reflection. -/
structure Diff where
  kind : Nat
  key : Nat
  runs : Nat
  absent : Nat
  confirmed : Bool
  deriving DecidableEq, Repr

/-- A cable test in progress (R320 to R326). -/
structure CableTest where
  flags : Nat
  amp : Nat
  /-- 0 measuring energy, 1 stimulus, 2 analysis, 9 waiting for the MAC's frame to complete (R320). -/
  stage : Nat
  partner : Bool
  waiter : Waiter
  deriving DecidableEq, Repr

/-- Health of a port (HEALTH_STATUS) and its reflectometry. -/
structure Health where
  margin : Option Int := none
  worst : Option Int := none
  snr : Option Int := none
  alarm : Bool := false
  fecAlarm : Bool := false
  /-- Ticker values at which the margin and the FEC persistence began. -/
  dropSince : Option Nat := none
  fecSince : Option Nat := none
  absent : Bool := false
  /-- Uncorrectable codewords, codewords and corrected bits of the present window and of the last. -/
  winUnc : Nat := 0
  winCw : Nat := 0
  winBits : Nat := 0
  lastUnc : Nat := 0
  lastCw : Nat := 0
  lastBits : Nat := 0
  uncAt : Option Nat := none
  /-- The port has been at Up in a standard mode with FEC within the present window, so that a report of it counts (R300). -/
  winFec : Bool := false
  /-- The link has gone down under the FEC alarm, which this window's end clears (R306). -/
  fecDown : Bool := false
  run : Option SoundRun := none
  runs : Nat := 0
  /-- Ticker value at which the last run began, and at which the last trigger started one (R313). -/
  runAt : Nat := 0
  triggerAt : Option Nat := none
  result : Option SoundResult := none
  /-- Status of the last run, and of the last cable test, that ended (R330). -/
  runStatus : Nat := 0
  cableStatus : Nat := 0
  diffs : List Diff := []
  cable : Option CableTest := none
  cables : Nat := 0
  cableResult : Option SoundResult := none
  deriving DecidableEq, Repr

/-! ### Power (R336 to R365) -/

/-- `PORT_POWER_CONFIG` record (R361). -/
structure PowerCfg where
  flags : Nat := 0x12
  delay : Nat := 20
  wakeMv : Nat := 100
  deriving DecidableEq, Repr

/-- Low-power idle and Slack of a port (PORT_POWER_STATUS). -/
structure Power where
  /-- The MAC asserts low-power idle on transmit (R337). -/
  macLpi : Bool := false
  /-- Both partners use the EEE of the mode's clause (R336). -/
  eee : Bool := false
  /-- Directions in low-power idle, with the ticker values at which they entered it. -/
  lpiTx : Bool := false
  lpiRx : Bool := false
  txSince : Nat := 0
  rxSince : Nat := 0
  /-- 0 not in Slack, 1 PORT_SLACK, 2 partner request, 3 Parked entry. -/
  cause : Nat := 0
  /-- 0 none, 1 request outstanding, 2 accept sent and the driver not yet silent. -/
  handshake : Nat := 0
  token : Nat := 0
  sent : Nat := 0
  /-- Token of a request to be refused when the MAC is free (R345). -/
  refuse : Option Nat := none
  since : Nat := 0
  lastRefusal : Nat := 0
  lastWake : Nat := 0
  /-- A wake held while the slice is gated (R351): its source. -/
  held : Option Nat := none
  /-- 0 none, 1 wake burst, 2 waiting for the line to fall quiet. -/
  waking : Nat := 0
  deriving DecidableEq, Repr

/-- A `PORT_SLACK` that has not closed: ports still to enter, begin start-up or refuse (R362). -/
structure SlackJob where
  waiter : Waiter
  left : List Nat
  deriving DecidableEq, Repr

/-- A `DEVICE_POWER_SET` in progress (R363). -/
structure PowerJob where
  waiter : Waiter
  mode : Nat
  ceiling : Nat
  deriving DecidableEq, Repr

/-- The device power mode (DEVICE_POWER_STATUS): 1 Full, 2 Reduced, 3 Parked, 4 Off. -/
structure DevPower where
  mode : Nat := 1
  ceiling : Nat := 1
  /-- Mode and ceiling before Parked (R357). -/
  before : Nat := 1
  beforeCeil : Nat := 1
  /-- 0 none, 1 stepping down, 2 entering Parked, 3 leaving Parked. -/
  transition : Nat := 0
  /-- Parked entry: 0 handshakes, 1 drain, 2 gating, 3 the step to Neap (R355). -/
  parkStage : Nat := 0
  /-- A handshake of the Parked entry was refused (R355). -/
  refused : Bool := false
  job : Option PowerJob := none
  since : Nat := 0
  parked : Nat := 0
  lastExit : Nat := 0
  lastPort : Nat := 0xFF
  /-- Cause and port of the exit in progress. -/
  exitCause : Nat := 0
  exitPort : Nat := 0xFF
  slackJobs : List SlackJob := []
  deriving DecidableEq, Repr


/-! ### Line ports (R91 to R124) -/

/-- The port states 0 to 7. -/
inductive PortSt where
  | quiet | down | negotiating | training | up | lpi | slack | test
  deriving DecidableEq, Repr

/-- The port state code. -/
def PortSt.code : PortSt → Nat
  | .quiet => 0 | .down => 1 | .negotiating => 2 | .training => 3
  | .up => 4 | .lpi => 5 | .slack => 6 | .test => 7

/-- What a line port holds beyond its committed configuration. -/
structure Port where
  st : PortSt := .quiet
  resMode : Nat := 0
  resRole : Nat := 0
  /-- `PORT_QUIET` hold (R76). -/
  quietHold : Bool := false
  /-- Keeper time at which `PORT_QUIET` enter for the port last reached Breakwater, and its source (R77). -/
  quietAt : Option (Nat × Nat) := none
  /-- Reset or block reset hold (R101). -/
  resetHold : Bool := false
  /-- Ticker value at the entry of the present state, and at the entry of Up or LPI. -/
  since : Nat := 0
  liveSince : Nat := 0
  /-- Break interval of R110 in progress. -/
  breaking : Bool := false
  /-- Silence of 4 ms after a start-up failure (R238). -/
  silence : Bool := false
  /-- The link has left Up, and the frame whose reception that ended has not been given yet (R115, R556). -/
  rxCut : Bool := false
  /-- The MAC finishes its frame before the restart of R110; whether it counts `MODE_CHANGES`. -/
  restart : Option Bool := none
  test : PortTest := {}
  dsp : Dsp := {}
  vs : Vs50 := {}
  start : Start := {}
  md : Md := {}
  health : Health := {}
  power : Power := {}
  deriving DecidableEq, Repr

/-- What a cove holds: its clock plan (R93). -/
structure Cove where
  /-- Full plan. -/
  full : Bool := false
  changes : Nat := 0
  deriving DecidableEq, Repr

/-! ### Host lanes and links (R366 to R411) -/

/-- `HOST_LANE_CONFIG` record (R408). -/
structure LaneCfg where
  flags : Nat := 0x2C
  preset : Nat := 1
  margin : Int := 15
  /-- Administrative quiet (R392). -/
  admin : Bool := false
  deriving DecidableEq, Repr

/-- `HOST_LINK_MAC_CONFIG` record (R386, R395). -/
structure LinkCfg where
  maxFrame : Nat := 1522
  flush : Nat := 10
  deriving DecidableEq, Repr

/-- The host lane states 0 to 5. -/
inductive LaneSt where
  | quiet | down | training | up | ebb | test
  deriving DecidableEq, Repr

/-- The lane state code. -/
def LaneSt.code : LaneSt → Nat
  | .quiet => 0 | .down => 1 | .training => 2 | .up => 3 | .ebb => 4 | .test => 5

/-- An eye scan held by a lane (R376 to R379, R410). -/
structure EyeScan where
  eyes : Nat
  dwell : Nat
  phase0 : Int
  phases : Nat
  volt0 : Int
  volts : Nat
  pStride : Nat
  vStride : Nat
  target : Nat
  /-- 0 complete, 1 ended early, 2 running. -/
  status : Nat
  /-- Errors of the points done, in visiting order. -/
  points : List Nat
  waiter : Waiter
  deriving DecidableEq, Repr

/-- What a host lane holds (HOST_LANE_STATUS). -/
structure Lane where
  st : LaneSt := .quiet
  resetHold : Bool := false
  ctle : Nat := 0
  lfGain : Nat := 0
  precode : Nat := 0
  fom : Option Int := none
  margin : Option Int := none
  /-- FFE taps: 4 precursor, main, 19 postcursor; and the DFE tap (R373, R374). -/
  ffe : List Int := List.replicate 4 0 ++ [16384] ++ List.replicate 19 0
  dfe : Int := 0
  /-- Transmit coefficients c(−3) to c(1), in 2⁻¹⁴ (R369). -/
  tx : List Int := [0, 0, 0, 0, 0]
  /-- Consecutive FOM intervals at or above the threshold (R375, R401). -/
  okRun : Nat := 0
  /-- FOM before the last CTLE step, and the setting it came from, until judged (R374). -/
  stepFrom : Option (Int × Nat) := none
  revertDue : Option Nat := none
  ctleHold : Bool := false
  /-- FOM intervals at Up for which the first postcursor tap has stayed below −0.30, and above −0.08, since the last step (R374). -/
  postLow : Nat := 0
  postHigh : Nat := 0
  /-- Leaving Ebb on retained settings (R398). -/
  waking : Bool := false
  /-- The retained settings were discarded by a restarting change in Ebb (R400). -/
  stale : Bool := false
  since : Nat := 0
  testAction : Nat := 0
  testPattern : Nat := 0
  /-- Pattern generator and the symbol that its precoder sent last; checker and the symbol received last (R403). -/
  gen : Nat := 0
  genPrev : Nat := 0
  chk : Checker := {}
  chkPrev : Nat := 0
  /-- Fill of the elastic buffer from its centre (R402). -/
  fill : Int := 0
  /-- Symbols that the transmitter has sent in Test in the last report's interval (the model's record of an output). -/
  sent : List Nat := []
  /-- The lane belongs to a link that a bonding map has altered, and follows the new map when the old links have dropped (R390). -/
  rebond : Bool := false
  scan : Option EyeScan := none
  deriving DecidableEq, Repr

/-- The host link states. -/
inductive LinkSt where
  | down | up | ebb
  deriving DecidableEq, Repr

/-- What a host link holds (HOST_LINK_STATUS). -/
structure Link where
  st : LinkSt := .down
  lock : Nat := 0
  lastDown : Nat := 0
  skew : Nat := 0xFFFF
  /-- PCS lane that each of the link's lanes carries (R385). -/
  order : List Nat := []
  /-- Uncorrectable codewords of the last second: ticker value and count of each report, newest first. -/
  uncHist : List (Nat × Nat) := []
  since : Nat := 0
  /-- The link has left Up, and the frame whose reception that ended has not been given yet (R115, R556). -/
  rxCut : Bool := false
  /-- The restart of R390 waits for the frame in transmission. -/
  restartDue : Bool := false
  /-- What waits is the drop of a link that a bonding map has altered (R390). -/
  bonding : Bool := false
  /-- Ebb entry by command waits for the frame in transmission (R397). -/
  ebbDue : Bool := false
  /-- Cause of the Ebb exit in progress (1 command, 2 signal), 0 none. -/
  wakeCause : Nat := 0
  deriving DecidableEq, Repr

/-- A `HOST_EBB` that has not closed (R409). -/
structure EbbJob where
  waiter : Waiter
  enter : Bool
  left : List Nat
  deriving DecidableEq, Repr

/-! ### Tideway (R412 to R444) -/

/-- `QUEUE_CONFIG` record of one queue (R440). -/
structure QueueCfg where
  min : Nat := 16
  static : Bool := false
  max : Nat := 0
  alpha : Int := 0
  deriving DecidableEq, Repr

/-- `SCHEDULER_CONFIG` record of one egress position (R441). -/
structure SchedCfg where
  strict : Nat := 0
  weights : List Nat := [0, 0, 0, 0, 0, 0, 0, 0]
  deriving DecidableEq, Repr

/-- `FABRIC_CONFIG` and `CUT_THROUGH_CONFIG` records (R442). -/
structure FabricCfg where
  scrub : Bool := true
  scrubMs : Nat := 100
  ctInPorts : Nat := 2 ^ 128 - 1
  ctInLinks : Nat := 2 ^ 64 - 1
  ctOutPorts : Nat := 2 ^ 128 - 1
  ctOutLinks : Nat := 2 ^ 64 - 1
  /-- By queue number e × 8 + t (R9). -/
  queues : Tab QueueCfg := []
  /-- By egress position. -/
  scheds : Tab SchedCfg := []
  /-- idleSlope in kbit/s by queue number; 0 is off (R428). -/
  shapers : Tab Nat := []
  deriving DecidableEq, Repr

/-- A frame held in the buffer (R412, R424). -/
structure Frame where
  /-- Ingress position (R8); 192 a frame that the device originated. -/
  pos : Nat
  slice : Nat
  /-- All bytes, FCS included. -/
  bytes : List Byte
  /-- Ingress Tidemark in ticker units and its validity (R117). -/
  stamp : Nat
  stampValid : Bool
  /-- The frame is known bad, so it leaves with an inverted FCS (R116, R508). -/
  bad : Bool
  /-- A rewrite or storage upset made the carried FCS disagree with the bytes (R507). -/
  carryBad : Bool
  /-- Metadata parity fails at its next check (R509). -/
  metaBad : Bool
  /-- VLAN action and tag that the egress rewriter applies (R446, R506). -/
  vact : Nat := 0
  vtag : Nat := 0
  /-- Queues that still hold it, each with whether its cells are charged to the shared pool (R423, R424), and whether
  it was enqueued cut-through there (R432). -/
  holders : List (Nat × Bool × Bool)
  /-- Signal strength of a frame received on 10BASE-T1S, in 0.5 dB; none when not available (R266). -/
  strength : Option Int := none
  /-- Bank of the slice that holds its first cell (R413). -/
  bank : Nat := 0
  deriving DecidableEq, Repr

/-- A frame that has left its queue for the egress MAC (R430, R431). -/
structure MacFrame where
  frame : Frame
  /-- Class of the queue it left. -/
  cls : Nat
  /-- Its first symbol has reached the pins (R106). -/
  started : Bool
  /-- It was forwarded cut-through to this egress. -/
  cut : Bool
  /-- Transmit stamp in ticker units, taken when its first symbol reaches the pins, and its validity (R117, R471). -/
  stamp : Option (Nat × Bool) := none
  /-- Ring segments that its cells cross, in order (R419). -/
  path : List Nat := []
  deriving DecidableEq, Repr

/-- A frame whose cells cross the ring, at one ring stop (R419, R421): its egress and class, its cells, and cut-through. -/
structure Crossing where
  egress : Nat
  cls : Nat
  cells : Nat
  cut : Bool
  deriving DecidableEq, Repr

/-- What an egress position holds. -/
structure Egress where
  mac : Option MacFrame := none
  /-- A preemptable frame held at a fragment boundary (R470). -/
  held : Option MacFrame := none
  /-- Replies and event packets that wait at a host link for the end of the frame in its MAC (R43). -/
  replies : List Packet := []
  /-- Shaper credit by class, in bits (R428), and the ticker value of its last update. -/
  credit : List Int := [0, 0, 0, 0, 0, 0, 0, 0]
  creditAt : Nat := 0
  /-- Deficits by class in bytes, and the class whose turn it is (R427). -/
  deficit : List Nat := [0, 0, 0, 0, 0, 0, 0, 0]
  turn : Nat := 0
  /-- Last frame that left complete at the pins (the model's record of an output). -/
  out : Option (List Byte) := none
  /-- Transmit stamp of that frame in ticker units, and its validity (R117, R471). -/
  outStamp : Option (Nat × Bool) := none
  deriving DecidableEq, Repr

/-- Slice states of FABRIC_STATUS. -/
structure Slice where
  /-- Admission stopped by a drain or a gate (R423). -/
  stopped : Bool := false
  inReset : Bool := false
  /-- Pool exhausted, until 1 % of it is free. -/
  exhausted : Bool := false
  /-- A bank met its 65th retirement (R416). -/
  limit : Bool := false
  /-- Gated by Parked entry (R443). -/
  parked : Bool := false
  /-- Bank that takes the next cell written (R413). -/
  turn : Nat := 0
  deriving DecidableEq, Repr

/-- Stored frames, queues and egress MACs. -/
structure Fabric where
  frames : Tab (Option Frame) := []
  nextFrame : Nat := 0
  /-- Queue contents by queue number: frames in order (R9, R426). -/
  queues : Tab (List Nat) := []
  marks : Tab Nat := []
  egress : Tab Egress := []
  slices : Tab Slice := []
  /-- Cells in use in slice s charged to the shared pool (R423). -/
  pool : Tab Nat := []
  /-- Occupancy of queue q in slice s, by q × 4 + s (R422). -/
  occ : Tab Nat := []
  /-- Frames crossing each ring segment in the order in which its stop sends their cells: number 2 s for the one that leaves stop s
  clockwise, 2 s + 1 counter-clockwise. -/
  ring : Tab (List Crossing) := []
  /-- Demands of the present window: bank accesses of slice i at i, lookups at 4 + i, cells of ring segment k at 8 + k (R435). -/
  load : Tab Nat := []
  /-- Greatest demand of each of the last windows: 1 fits the point below, kept as a run length (R435). -/
  fitRun : Nat := 0
  deriving DecidableEq, Repr

/-! ### Streams and time (R445 to R478) -/

/-- `INGRESS_PROFILE_SET` record (R446, R447). -/
structure IngressCfg where
  ktIp : Nat := 0
  ktAvtp : Nat := 0
  ktOther : Nat := 0
  /-- Miss action: drop, or forward to the miss destination. -/
  missFwd : Bool := false
  missDest : Nat := 0
  vid : Nat := 1
  pcp : Nat := 0
  accept : Nat := 7
  deriving DecidableEq, Repr

/-- A stream entry (R451) without its last hit. -/
structure StreamEntry where
  /-- The 40 key bytes as one big-endian number. -/
  key : Nat
  kt : Nat
  flags : Nat
  ingress : Nat
  handle : Nat
  dest : Nat
  cls : Nat
  vact : Nat
  vtag : Nat
  filter : Nat
  frer : Nat
  deriving DecidableEq, Repr

/-- A destination record (R452): its egress mask as a number whose bit e stands for position e. -/
structure DestRec where
  mask : Nat := 0
  tide : Bool := false
  deriving DecidableEq, Repr

/-- A stream filter (R457). A filter never set passes every frame (log entry 11). -/
structure FilterCfg where
  maxSdu : Nat := 10240
  gate : Nat := 0xFFFF
  meter : Nat := 0xFFFF
  block : Bool := false
  deriving DecidableEq, Repr

/-- A flow meter (R458), rates in kbit/s. -/
structure MeterCfg where
  coupling : Bool
  dropYellow : Bool
  allRed : Bool
  cir : Nat
  eir : Nat
  cbs : Nat
  ebs : Nat
  deriving DecidableEq, Repr

/-- A stream gate as set (R459): entries of (state byte, interval in ns). -/
structure SGateCfg where
  tb : Nat
  on : Bool
  baseS : Nat
  baseNs : Nat
  cycle : Nat
  list : List (Nat × Nat)
  deriving DecidableEq, Repr

/-- A recovery instance (R462, R464). -/
structure RecCfg where
  slice : Nat
  alg : Nat
  hist : Nat
  flags : Nat
  reset : Nat
  latDiff : Nat
  latPeriod : Nat
  deriving DecidableEq, Repr

/-- A gate control list as `GCL_SET` makes it (R465, R466): entries of (gate states, operation, interval in ns). -/
structure GclList where
  tb : Nat := 0
  on : Bool := false
  baseS : Nat := 0
  baseNs : Nat := 0
  cycle : Nat := 0
  ext : Nat := 0
  list : List (Nat × Nat × Nat) := []
  deriving DecidableEq, Repr

/-- What is committed for the list of one egress: the entries loaded, the admin configuration, and whether it waits for
its config change time. -/
structure GclCfg where
  loaded : Tab (Option (Nat × Nat × Nat)) := []
  admin : GclList := {}
  waiting : Bool := false
  /-- Config change time: seconds and nanoseconds. -/
  ccS : Nat := 0
  ccNs : Nat := 0
  deriving DecidableEq, Repr

/-- `PREEMPT_CONFIG` record (R469). -/
structure PreemptCfg where
  mask : Nat := 0
  on : Bool := false
  noVerify : Bool := false
  frag : Nat := 0
  time : Nat := 0
  deriving DecidableEq, Repr

/-- `GPTP_CONFIG` record (R473). -/
structure GptpCfg where
  flags : Nat := 0
  domain : Nat := 0
  prio1 : Nat := 0
  prio2 : Nat := 0
  logSync : Int := 0
  logPdelay : Int := 0
  deriving DecidableEq, Repr

/-- `GPTP_PORT_CONFIG` record (R473). -/
structure GptpPortCfg where
  role : Nat := 0
  forced : Bool := false
  asym : Int := 0
  deriving DecidableEq, Repr

/-- `PPS_CONFIG` record (R475). -/
structure PpsCfg where
  flags : Nat := 0
  tb : Nat := 0
  period : Nat := 0
  width : Nat := 0
  deriving DecidableEq, Repr

/-- All that stream, filter, redundancy, gate and time commands commit. -/
structure StreamCfg where
  /-- Ingress profiles by position. -/
  profiles : Tab IngressCfg := []
  /-- Hash seeds; before `STREAM_TABLE_CONFIG` they are 0 (log entry 12). -/
  seed0 : Nat := 0
  seed1 : Nat := 0
  /-- Stream entries by place: (bank × 512 + bucket) × 4 + slot, and the stash from 131,072 (R449). -/
  table : Tab (Option StreamEntry) := []
  dests : Tab DestRec := []
  filters : Tab FilterCfg := []
  meters : Tab (Option MeterCfg) := []
  gates : Tab (Option SGateCfg) := []
  recs : Tab (Option RecCfg) := []
  /-- Lists by egress position. -/
  gcl : Tab GclCfg := []
  preempt : Tab PreemptCfg := []
  gptp : Tab GptpCfg := []
  /-- By instance × 192 + position. -/
  gptpPorts : Tab GptpPortCfg := []
  pps : PpsCfg := {}
  deriving DecidableEq, Repr

/-- Tokens of a flow meter, in units of 1/32,000,000 byte, so that one kbit/s adds one unit in each 0.25 ns; and the
ticker value of their last update. -/
structure MeterRun where
  c : Nat := 0
  e : Nat := 0
  at_ : Nat := 0
  deriving DecidableEq, Repr

/-- A running stream gate. -/
structure SGateRun where
  oper : SGateCfg
  cur : Nat := 0
  /-- The time base has been stepped within the cycle: the gate holds its state until the next cycle start. -/
  realign : Bool := false
  deriving DecidableEq, Repr

/-- A recovery instance at work (IEEE 802.1CB 7.4.3). -/
structure RecRun where
  takeAny : Bool := true
  seq : Nat := 0
  /-- Sequence history, newest first; a position not filled since the last reset is not lost when it leaves. -/
  history : List Bool := []
  /-- Ticker value of the last passed frame. -/
  passedAt : Nat := 0
  /-- Ticker value at which the reset timer last expired. -/
  expiredAt : Option Nat := none
  /-- Latent error base difference. -/
  base : Int := 0
  deriving DecidableEq, Repr

/-- The list of one egress at work (GCL_STATUS). -/
structure GclRun where
  oper : GclList := {}
  cur : Nat := 0
  /-- Ticker value at which the current entry began. -/
  curAt : Nat := 0
  tooLong : Nat := 0
  /-- Set-And-Hold-MAC is in force (R470). -/
  hold : Bool := false
  /-- The time base has been stepped within the cycle: the gates hold their states until the next cycle start. -/
  realign : Bool := false
  deriving DecidableEq, Repr

/-- Preemption of a port (PREEMPT_STATUS). -/
structure PreemptRun where
  verify : Nat := 0
  active : Bool := false
  deriving DecidableEq, Repr

/-- A gPTP instance at work (GPTP_STATUS). -/
structure GptpRun where
  state : Nat := 0
  slavePos : Nat := 0xFFFF
  offset : Int := 0
  rate : Int := 0
  gm : Nat := 0
  /-- Ticker value of the last synchronisation. -/
  syncAt : Option Nat := none
  /-- The last 8 accepted samples, newest first, and rejections since (R510). -/
  samples : List Int := []
  delays : List Int := []
  rejects : Nat := 0
  /-- Path delay of each position, as its last accepted answer gave it, 0.25 ns (R473). -/
  paths : Tab Int := []
  deriving DecidableEq, Repr

/-- A Tidemark time base (R472): its value at a ticker value, and its rate in units of 2⁻⁴⁰. -/
structure TimeBase where
  value : Nat := 0
  at_ : Nat := 0
  rate : Int := 0
  deriving DecidableEq, Repr

/-- An edge of PPS_IN (R475). -/
structure PpsEdge where
  seq : Nat
  valid : Nat
  ticker : Nat
  bases : List Nat
  deriving DecidableEq, Repr

/-- What streams and time hold beyond their committed configuration. -/
structure Strm where
  /-- Ticker value of an entry's last hit, by handle. -/
  lastHit : Tab Nat := []
  /-- Longest displacement, and inserts failed (STREAM_TABLE_STATUS). -/
  moves : Nat := 0
  failed : Nat := 0
  /-- Buckets (bank × 512 + bucket) with an uncorrectable word. -/
  ecc : List Nat := []
  /-- Buckets that a self-test has excluded (R624). -/
  excluded : List Nat := []
  /-- Filters in the blocked state. -/
  blocked : List Nat := []
  meters : Tab MeterRun := []
  gates : Tab (Option SGateRun) := []
  /-- Next sequence number of a generator. -/
  gens : Tab Nat := []
  recs : Tab RecRun := []
  gcl : Tab GclRun := []
  preempt : Tab PreemptRun := []
  gptp : Tab GptpRun := []
  bases : List TimeBase := [{}, {}, {}, {}]
  edge : Option PpsEdge := none
  deriving DecidableEq, Repr

/-! ### Tide Table (R479 to R502) -/

/-- `TT_LAYOUT_SET` record. -/
structure TtLayout where
  format : Nat
  bus : Nat
  source : Nat
  length : Nat
  msgId : Nat
  flags : Nat
  route : Nat
  dataId : Nat
  crcPos : Nat
  alivePos : Nat
  aliveLen : Nat
  gap : Nat
  selPos : Nat
  selLen : Nat
  window : Nat
  deriving DecidableEq, Repr

/-- `TT_COMPOSE_SET` record. -/
structure TtCompose where
  egress : Nat
  cls : Nat
  flags : Nat
  length : Nat
  period : Nat
  minInt : Nat
  payload : Nat
  crcKind : Nat
  aliveLen : Nat
  crcPos : Nat
  dataId : Nat
  alivePos : Nat
  payLen : Nat
  seqOff : Nat
  ipOff : Nat
  udpOff : Nat
  deriving DecidableEq, Repr

/-- A signal definition (R483). -/
structure SigDef where
  signal : Nat
  pos : Nat
  length : Nat
  flags : Nat
  fresh : Nat
  sel : Nat
  lo : Nat
  hi : Nat
  deriving DecidableEq, Repr

/-- `TT_DIGEST_ROUTE_SET` record (R496). -/
structure DigestCfg where
  on : Bool := false
  cls : Nat := 0
  link : Nat := 0
  etherType : Nat := 0
  da : Nat := 0
  maxLen : Nat := 0
  flush : Nat := 0
  deriving DecidableEq, Repr

/-- All that Tide Table commands commit. -/
structure TideCfg where
  /-- Source and format of a bound handle. -/
  binds : Tab (Option (Nat × Nat)) := []
  layouts : Tab (Option TtLayout) := []
  composes : Tab (Option TtCompose) := []
  /-- Definitions by layout × 64 + slot, of receive and compose layouts. -/
  defs : Tab (Option SigDef) := []
  /-- Template bytes by compose layout; a byte never written is 0. -/
  templates : Tab (List Byte) := []
  routes : Tab DigestCfg := []
  deriving DecidableEq, Repr

/-- What a signal entry holds beyond its place (R483). -/
structure Sig where
  value : Nat := 0
  tm : Nat := 0
  count : Nat := 0
  state : Nat := 0
  /-- Ticker value from which its freshness period runs (R492). -/
  since : Nat := 0
  deriving DecidableEq, Repr

/-- A receive layout at work (R488, R489, TT_LAYOUT_STATUS). -/
structure LayoutRun where
  alive : Option Nat := none
  /-- Payload and receive Tidemark of the last committed message. -/
  last : Option (List Byte × Nat) := none
  check : Nat := 0
  committed : Nat := 0
  fails : Nat := 0
  dups : Nat := 0
  /-- Failures since the last `TT_CHECK_FAIL`, and its ticker value. -/
  since : Nat := 0
  eventAt : Option Nat := none
  deriving DecidableEq, Repr

/-- A compose layout at work (R497, R498). -/
structure ComposeRun where
  alive : Nat := 0
  seq : Nat := 0
  sentAt : Option Nat := none
  /-- Trigger that made the last frame: 0 the period, 1 a change, 2 TT_COMPOSE_SEND, 3 the end of the minimum interval. -/
  by_ : Nat := 0
  /-- A trigger waits for the minimum interval to end. -/
  held : Bool := false
  sent : Nat := 0
  deriving DecidableEq, Repr

/-- A frame copy in an engine's input queue (R479, R482). -/
structure TtCopy where
  bytes : List Byte
  handle : Nat
  pos : Nat
  /-- Receive Tidemark in units of time base 0, and its validity. -/
  tm : Nat
  valid : Bool
  /-- Its receive outcome is 6. -/
  good : Bool
  deriving DecidableEq, Repr

/-- A pending digest record (R494): its value, state and Tidemark are the signal's own when its frame leaves. -/
structure DigestRec where
  signal : Nat
  reasons : Nat
  deriving DecidableEq, Repr

/-- A digest route at work. -/
structure DigestRun where
  recs : List DigestRec := []
  seq : Nat := 0
  lost : Nat := 0
  /-- Ticker value of the last `TT_DIGEST_LOST_EVENT`, and signals lost since. -/
  eventAt : Option Nat := none
  lostSince : Nat := 0
  deriving DecidableEq, Repr

/-- What the Tide Table holds beyond its committed configuration. -/
structure Tide where
  sigs : Tab Sig := []
  /-- The entry of a signal that `sigs` does not list: never updated, or stale since Parked (R358). -/
  blank : Sig := {}
  layouts : Tab LayoutRun := []
  composes : Tab ComposeRun := []
  /-- Input queue of an engine. -/
  inputs : Tab (List TtCopy) := []
  /-- Engines whose queue was found full, until there is space again. -/
  full : Nat := 0
  routes : Tab DigestRun := []
  deriving DecidableEq, Repr
/-- All that is committed for one line port. -/
structure PortCfg where
  mode : ModeCfg := {}
  /-- Administrative quiet (R121). -/
  admin : Bool := false
  vs : Vs50Cfg := {}
  dsp : DspCfg := {}
  /-- Pinned windows and their starts (R186, R214). -/
  pins : Nat := 0
  pinAt : List Nat := [0, 0, 0, 0, 0, 0, 0, 0]
  start : StartCfg := {}
  md : MdCfg := {}
  health : HealthCfg := {}
  sound : SoundCfg := {}
  power : PowerCfg := {}
  deriving DecidableEq, Repr


/-! ### The whole configuration, and the state -/

/-- All that commands commit: what a reset of reach 0 to 2 loses and a commit applies or rolls back (R555, R61). -/
structure Cfg where
  dev : DevCfg := { cmdMac := Config.fuseMac.toNat, avsAddr := Config.fuseAvs.toNat }
  ports : Tab PortCfg := []
  /-- Bundle groups of a cove, 4 × 8 bits (R213). -/
  bundles : Tab Nat := []
  lanes : Tab LaneCfg := []
  links : Tab LinkCfg := []
  /-- Bonding map of a quay, eight widths (R388). -/
  quays : Tab (List Nat) := []
  fabric : FabricCfg := {}
  streams : StreamCfg := {}
  tide : TideCfg := {}
  deriving DecidableEq, Repr

/-- A staged command (R57, R58). -/
structure Staged where
  op : Nat
  req : Req
  /-- The blocks of the commit that it belongs to, as target words. -/
  blocks : List Nat
  deriving DecidableEq, Repr

/-- The epoch (R56 to R66, R678). -/
structure Epoch where
  /-- 0 none, 1 open, 2 preparing, 3 applying. -/
  state : Nat := 0
  owner : Nat := 0xFF
  id : Nat := 0
  lastOutcome : Nat := 0xFFFF
  lastFailed : Nat := 0xFFFFFFFF
  idle : Nat := 0
  timeout : Nat := 0
  staged : List Staged := []
  /-- The configuration as it would be with every staged command. -/
  draft : Option Cfg := none
  /-- Blocks of the commit that have not reached their boundary, and those that have (R61). -/
  waiting : List Nat := []
  applied : List Nat := []
  /-- The failed target of a rollback that waits for applied blocks to reach their next boundary (R62). -/
  failing : Option Nat := none
  /-- The configuration before the commit, to which a rollback returns (R62). -/
  prior : Option Cfg := none
  tag : Nat := 0
  /-- Profile slot and command of a `BOOT_PROFILE_APPLY` whose commit runs (R577). -/
  profile : Option (Nat × Nat × Nat) := none
  deriving DecidableEq, Repr

/-- The commit of one immediate `PORT_MODE_SET` (R113). -/
structure ModeJob where
  req : Req
  deriving DecidableEq, Repr

/-- The state of the block. -/
structure State where
  /-- The commands that wait, first in, first out. -/
  pending : List Instr := []
  /-- Ticker: 0.25 ns units since cold start (R472, R525). -/
  now : Nat := 0
  /-- Free values drawn so far: the model's own field. -/
  freeCtr : Nat := 0
  ctl : Ctl := {}
  fuses : Fuses := {}
  cfg : Cfg := {}
  epoch : Epoch := {}
  modeJobs : List ModeJob := []
  /-- Every counter of the device, by read opcode, block and index (`ckey`). -/
  counters : Tab Nat := []
  /-- Counter blocks that a clear command has cleared since the last reset of reach 0 to 2 (R673). -/
  cleared : Tab Nat := []
  integ : Integ := {}
  clk : Clk := {}
  rst : Rst := {}
  nvm : Nvm := {}
  calib : Calib := {}
  stest : SelfTest := {}
  elec : Elec := {}
  ports : Tab Port := []
  /-- Relink records and Sounding baselines by port, retained in the keeper island (R246, R316). -/
  relinks : Tab (Option Relink) := []
  baselines : Tab (Option Baseline) := []
  power : DevPower := {}
  coves : Tab Cove := []
  lanes : Tab Lane := []
  links : Tab Link := []
  ebbJobs : List EbbJob := []
  fabric : Fabric := {}
  strm : Strm := {}
  tide : Tide := {}
  deriving DecidableEq, Repr

/-- The device right after its power-on reset: no configuration committed, nothing started, every register at the
value that log entry 2 names. -/
def State.reset : State := {}

/-- Why the block stops with a fault. No meaning of this model raises one: every row has an effect, or none. -/
inductive Fault where
  /-- Never raised (the spec gives the block no stop). Safe. -/
  | none
  deriving DecidableEq, Repr

/-- Why a row is refused. -/
inductive Refusal where
  /-- Raised by `exec` alone, for a row that has no meaning yet. Safe. -/
  | notModelled (mnemonic : String)
  deriving DecidableEq, Repr

end Sys2Proof.Machine
end

