-- ==== Sys2Proof/Machine/Ops.lean ====
section
/-! DEFINITION. The named operations over the state that every family uses: blocks by number, time, counters,
events, faults, free values, the release of stored frames, and the line ports' and host links' common transitions. -/

namespace Sys2Proof.Machine

/-! ### Target words (R38) -/

/-- Target word of domain `d`, number `i`. -/
def tgt (d i : Nat) : Nat := d * 0x1000000 + i
/-- Domain of a target word. -/
def tgtDom (t : Nat) : Nat := t / 0x1000000
/-- Number of a target word. -/
def tgtNum (t : Nat) : Nat := t % 0x1000000
/-- Target word of line port `p`. -/
def portT (p : Nat) : Nat := tgt 1 p
/-- Target word of cove `c`. -/
def coveT (c : Nat) : Nat := tgt 2 c
/-- Target word of host lane `m`. -/
def laneT (m : Nat) : Nat := tgt 4 m
/-- Target word of host link `k`. -/
def linkT (k : Nat) : Nat := tgt 5 k
/-- Target word of quay `q`. -/
def quayT (q : Nat) : Nat := tgt 6 q
/-- Target word of slice `i`, or of the whole fabric (4). -/
def sliceT (i : Nat) : Nat := tgt 7 i
/-- Target word of a signal engine, or of the Tide Table (16). -/
def engineT (e : Nat) : Nat := tgt 8 e
/-- Target word of the Tide Table. -/
def tideT : Nat := tgt 8 16
/-- Target word of the whole fabric. -/
def fabricT : Nat := tgt 7 4

/-! ### Blocks by number -/

/-- Line port `p`. -/
def State.port (s : State) (p : Nat) : Port := s.ports.get {} p
/-- Change line port `p`. -/
def State.updPort (s : State) (p : Nat) (f : Port → Port) : State := { s with ports := s.ports.upd {} p f }
/-- Committed configuration of port `p`. -/
def State.pcfg (s : State) (p : Nat) : PortCfg := s.cfg.ports.get {} p
/-- Change the committed configuration of port `p`. -/
def State.updPcfg (s : State) (p : Nat) (f : PortCfg → PortCfg) : State :=
  { s with cfg := { s.cfg with ports := s.cfg.ports.upd {} p f } }
/-- Cove `c`. -/
def State.cove (s : State) (c : Nat) : Cove := s.coves.get {} c
/-- Host lane `m`. -/
def State.lane (s : State) (m : Nat) : Lane := s.lanes.get {} m
/-- Change host lane `m`. -/
def State.updLane (s : State) (m : Nat) (f : Lane → Lane) : State := { s with lanes := s.lanes.upd {} m f }
/-- Committed configuration of lane `m`. -/
def State.lcfg (s : State) (m : Nat) : LaneCfg := s.cfg.lanes.get {} m
/-- Host link `k`. -/
def State.link (s : State) (k : Nat) : Link := s.links.get {} k
/-- Change host link `k`. -/
def State.updLink (s : State) (k : Nat) (f : Link → Link) : State := { s with links := s.links.upd {} k f }
/-- Bonding map of quay `q`: no links until one is committed (R389). -/
def State.bond (s : State) (q : Nat) : List Nat := s.cfg.quays.get [] q
/-- Width of the link that starts at lane `k`, 0 when none starts there (R388). -/
def Cfg.linkWidth (c : Cfg) (k : Nat) : Nat := ((c.quays.get [] (k / 8)).getD (k % 8) 0)
/-- Width of configured host link `k`, 0 when `k` is no configured link. -/
def State.linkWidth (s : State) (k : Nat) : Nat := s.cfg.linkWidth k
/-- The lanes of link `k`. -/
def State.linkLanes (s : State) (k : Nat) : List Nat := (List.range (s.linkWidth k)).map (k + ·)
/-- The link that covers lane `m` under a configuration. -/
def Cfg.linkOf (c : Cfg) (m : Nat) : Option Nat :=
  ((List.range 8).map (m / 8 * 8 + ·)).find? fun k => k ≤ m && m < k + c.linkWidth k
/-- The link that covers lane `m`. -/
def State.linkOf (s : State) (m : Nat) : Option Nat := s.cfg.linkOf m
/-- Slice `i`. -/
def State.slice (s : State) (i : Nat) : Slice := s.fabric.slices.get {} i
/-- Change slice `i`. -/
def State.updSlice (s : State) (i : Nat) (f : Slice → Slice) : State :=
  { s with fabric := { s.fabric with slices := s.fabric.slices.upd {} i f } }
/-- Egress position `e`. -/
def State.egr (s : State) (e : Nat) : Egress := s.fabric.egress.get {} e
/-- Change egress position `e`. -/
def State.updEgr (s : State) (e : Nat) (f : Egress → Egress) : State :=
  { s with fabric := { s.fabric with egress := s.fabric.egress.upd {} e f } }
/-- Apply a state change for each number of a list, in order. -/
def eachN (s : State) (l : List Nat) (f : State → Nat → State) : State := l.foldl f s

/-! ### Time (R525, R81) -/

/-- Keeper time: 10 ns units since cold start. -/
def State.keeper (s : State) : Nat := s.now / 40
/-- Whole seconds since ticker value `t`. -/
def State.secsSince (s : State) (t : Nat) : Nat := (s.now - t) / 4000000000
/-- Stamps and time bases are valid: the Tidemark PLL is locked, has returned, and feeds ISL_TIME (R533, R476). -/
def State.timeValid (s : State) : Bool :=
  s.clk.locked.testBit 25 && !s.clk.failed.testBit 25 && !s.clk.onKeeper.testBit 30
/-- Value of time base `i`: its value when last set, and the ticker's advance since, at its rate (R472). -/
def State.base (s : State) (i : Nat) : Nat :=
  let b := s.strm.bases.getD i {}
  let d : Int := (s.now : Int) - b.at_
  ((b.value + d + d * b.rate / 2 ^ 40) % 2 ^ 64).toNat
/-- Time base 0, in 0.25 ns units. -/
def State.tidemark (s : State) : Nat := s.base 0

/-! ### Counters (R673, R674) -/

/-- Key of counter `idx` of the block that read opcode `op` reports for block number `blk`. -/
def ckey (op blk idx : Nat) : Nat := (op * 0x1000000 + blk) * 256 + idx
/-- A counter's value. -/
def State.cnt (s : State) (op blk idx : Nat) : Nat := s.counters.get 0 (ckey op blk idx)
/-- Add `n` to a 64-bit wrapping counter. -/
def State.bumpBy (s : State) (op blk idx n : Nat) : State :=
  { s with counters := s.counters.upd 0 (ckey op blk idx) fun v => (v + n) % 2 ^ 64 }
/-- Add one to a counter. -/
def State.bump (s : State) (op blk idx : Nat) : State := s.bumpBy op blk idx 1
/-- Clear all counters of one block and note the clear (R673 flags bit 1). -/
def State.clearCnt (s : State) (op blk : Nat) : State :=
  { s with counters := s.counters.dropRange (ckey op blk 0) (ckey op blk 256)
           cleared := s.cleared.set 0 (op * 0x1000000 + blk) 1 }
/-- The counter block of R673: `t` its target, `q` its qualifier, `vs` its counters. -/
def State.block (s : State) (op t blk q : Nat) (vs : List Nat) : List Byte :=
  be 4 t ++ be 2 op ++ be 2 vs.length ++ be 8 s.tidemark ++
    be 1 (b2n s.timeValid + 2 * s.cleared.get 0 (op * 0x1000000 + blk)) ++ zeros 3 ++ be 4 q ++
    (vs.map (be 8)).flatten
/-- The counter block of `n` counters held under one key. -/
def State.cblock (s : State) (op t blk q n : Nat) : List Byte :=
  s.block op t blk q ((List.range n).map fun i => s.cnt op blk i)

/-! ### Free values -/

/-- Count one free value as drawn; the value is a `Config` constant at the count before. -/
def State.draw (s : State) : State := { s with freeCtr := s.freeCtr + 1 }

/-! ### Events (R67, R68, R684) -/

/-- Put a record into the queue. -/
def pushEvent (s : State) (code sev src op tag : Nat) (detail : List Byte) : State :=
  { s with ctl := { s.ctl with
      events := s.ctl.events ++ [{ seq := s.ctl.nextEvent, code, sev, tmValid := s.timeValid, src,
                                   tidemark := s.tidemark, op, tag, detail := padTo 8 detail }]
      nextEvent := s.ctl.nextEvent + 1 } }

/-- Queue an event record; a full queue counts it in `EVENT_LOST` (R68). -/
def raiseFor (s : State) (code sev src op tag : Nat) (detail : List Byte) : State :=
  if s.ctl.events.length < 4096 then pushEvent s code sev src op tag detail
  else ({ s with ctl := { s.ctl with lost := s.ctl.lost + 1 } }).bump 0x0003 66 8

/-- Queue an event that no command is related to. -/
def raise (s : State) (code sev src : Nat) (detail : List Byte) : State := raiseFor s code sev src 0 0 detail

/-- Space has returned after an overflow: one `EVENT_OVERFLOW` is queued before any later record (R68). -/
def overflowNote (s : State) : State :=
  if s.ctl.lost ≠ 0 ∧ s.ctl.events.length < 4096 then
    let s' := pushEvent s 0x0003 1 0 0 0 (be 4 (sat 32 s.ctl.lost))
    { s' with ctl := { s'.ctl with lost := 0 } }
  else s

/-- Queue a record that Headland raises: at once while it is at READY, else after READY (R22, R66, R601). -/
def raiseReady (s : State) (code sev src op tag : Nat) (detail : List Byte) : State :=
  if s.rst.headland = 2 then raiseFor s code sev src op tag detail
  else { s with ctl := { s.ctl with owed := s.ctl.owed ++ [{ code, sev, src, op, tag, detail }] } }

/-- Close an ACCEPTED command with `COMMAND_DONE` (R22, R49). -/
def complete (s : State) (op tag target : Nat) (st : Status) : State :=
  raiseReady s 0x0001 0 target op tag (be 2 st.code)

/-- Close the command of a waiter. -/
def closeWaiter (s : State) (w : Waiter) (target : Nat) (st : Status) : State := complete s w.op w.tag target st

/-! ### Faults (R513 to R515) -/

/-- Conditions of the rate faults: the count of the present window is at or above its threshold (R514). -/
def rateCond (s : State) : Nat :=
  let w := fun k => s.integ.window.get 0 k
  let thr := fun k => s.integ.thr.getD k 1
  (if (List.range 4).any (fun k => thr 0 ≤ w k) then 1 else 0) +
    (if thr 1 ≤ w 4 then 4 else 0) + (if thr 2 ≤ w 5 then 8 else 0) +
    (if thr 3 ≤ w 6 then 16 else 0) + (if thr 4 ≤ w 7 then 32 else 0)

/-- Conditions present, bit k for fault 0x0901 + k (INTEGRITY_STATUS). -/
def conditions (s : State) : Nat := s.integ.present ||| rateCond s

/-- `FAULT_N` is driven low (R515, R557). -/
def faultN (s : State) : Bool := s.integ.latches != 0 || s.integ.startAssert

/-- Write one entry into the keeper fault record (R81, R513). -/
def faultEntry (s : State) (code cls src : Nat) (detail : List Byte) : State :=
  let e : FaultEntry := { seq := s.integ.faultSeq + 1, code, cls, tmValid := s.timeValid, src,
                          keeperTime := s.keeper, tidemark := s.tidemark, detail := padTo 4 detail,
                          copied := false }
  ({ s with integ := { s.integ with record := (e :: s.integ.record).take 64
                                    faultSeq := s.integ.faultSeq + 1 } }).bump 0x0905 0 5

/-- A safety-relevant fault 0x0901 + k: entry, event of severity 3, latch and `FAULT_N` (R513, R515). -/
def safetyFault (s : State) (k src : Nat) (detail : List Byte) : State :=
  let was := faultN s
  let s1 := faultEntry s (0x0901 + k) 3 src detail
  let s2 := { s1 with integ := { s1.integ with latches := setBit s1.integ.latches k } }
  let s3 := if was then s2 else s2.bump 0x0905 0 6
  raise s3 (0x0901 + k) 3 src (padTo 4 detail ++ be 4 s3.integ.faultSeq)

/-- A condition that is not a rate fault is present or absent. -/
def setPresent (s : State) (k : Nat) (on : Bool) : State :=
  { s with integ := { s.integ with present := if on then setBit s.integ.present k else clrBit s.integ.present k } }

/-- Fault code number of a rate count. -/
def rateFaultOf (w : Nat) : Nat := if w < 4 then 0 else w - 2

/-- Count one error of rate count `w` and raise its fault when the threshold is reached (R514). -/
def rateError (s : State) (w bank : Nat) : State :=
  let n := s.integ.window.get 0 w + 1
  let s1 := { s with integ := { s.integ with window := s.integ.window.set 0 w n } }
  let thr := s.integ.thr.getD (rateFaultOf w - (if w < 4 then 0 else 1)) 1
  if n < thr ∨ s.integ.made.testBit w then s1
  else
    let s2 := { s1 with integ := { s1.integ with made := setBit s1.integ.made w } }
    let detail :=
      if w < 4 then be 1 w ++ be 2 n ++ zeros 1
      else if w = 4 then be 1 bank ++ zeros 1 ++ be 2 n
      else be 4 n
    safetyFault s2 (rateFaultOf w) (if w < 4 then sliceT w else if w = 5 then tideT else 0) detail

/-! ### Queued and stored frames (R106, R424, R437) -/

/-- Queue number of class `t` at egress position `e` (R9). -/
def qn (e t : Nat) : Nat := e * 8 + t
/-- The stored frame of a number. -/
def State.frame (s : State) (i : Nat) : Option Frame := s.fabric.frames.get none i
/-- Cells that a frame of `n` bytes takes (R412). -/
def cellsOf (n : Nat) : Nat := (n + 63) / 64
/-- Frames held in queue `q`, in order. -/
def State.queue (s : State) (q : Nat) : List Nat := s.fabric.queues.get [] q
/-- Occupancy of queue `q` in ingress slice `i` (R422). -/
def State.occ (s : State) (q i : Nat) : Nat := s.fabric.occ.get 0 (q * 4 + i)
/-- Occupancy of a queue in all slices. -/
def State.occAll (s : State) (q : Nat) : Nat := s.occ q 0 + s.occ q 1 + s.occ q 2 + s.occ q 3

/-- Sum of all queue minimums: 16 for a queue not configured (R440). -/
def minSum (f : FabricCfg) : Nat := 1536 * 16 + (f.queues.map fun e => e.2.min).sum - 16 * f.queues.length
/-- Rows retired in slice `i` (R416). -/
def retiredRows (s : State) (i : Nat) : Nat :=
  ((List.range 32).map fun b => (s.stest.banks.get {} (i * 32 + b)).retired.length).sum
/-- Cells of the shared pool of slice `i`: what the minimums and the retired rows leave (R416, log entry 13). -/
def poolSize (s : State) (i : Nat) : Nat := 253696 - minSum s.cfg.fabric - retiredRows s i
/-- Free cells of the shared pool of slice `i`. -/
def poolFree (s : State) (i : Nat) : Nat := poolSize s i - s.fabric.pool.get 0 i
/-- The pool of slice `i` has recovered: 1 % of it is free (event 0x3003). -/
def poolRecover (s : State) (i : Nat) : State :=
  if (s.slice i).exhausted ∧ poolSize s i ≤ poolFree s i * 100 then
    raise (s.updSlice i fun x => { x with exhausted := false }) 0x3003 1 (sliceT i) (be 1 0 ++ be 1 i)
  else s

/-- A queue gives up its hold on a frame; the last hold frees the frame's cells (R424). -/
def releaseFrame (s : State) (q i : Nat) : State :=
  match s.frame i with
  | none => s
  | some f =>
    let c := cellsOf f.bytes.length
    let shared := f.holders.any fun h => h.1 == q && h.2.1
    let rest := f.holders.filter fun h => h.1 != q
    let fab := s.fabric
    poolRecover { s with fabric := { fab with
        frames := fab.frames.set none i (if rest.isEmpty then none else some { f with holders := rest })
        occ := fab.occ.upd 0 (q * 4 + f.slice) (· - c)
        pool := if shared then fab.pool.upd 0 f.slice (· - c) else fab.pool } } f.slice

/-- Take frame `i` out of queue `q` and release it. -/
def unqueue (s : State) (q i : Nat) : State :=
  releaseFrame { s with fabric := { s.fabric with queues := s.fabric.queues.upd [] q (·.erase i) } } q i

/-- Discard every frame of queue `q`, counting each with `count`. -/
def flushQueue (s : State) (q : Nat) (count : State → State) : State :=
  (s.queue q).foldl (fun s i => count (unqueue s q i)) s

/-- Discard every frame held in the eight queues of egress position `e`. -/
def flushEgress (s : State) (e : Nat) (count : State → State) : State :=
  eachN s (List.range 8) fun s t => flushQueue s (qn e t) count

/-- Count a frame sent with an inverted FCS, or cut, at an egress position (R119 index 10, R406 index 10). -/
def countStomp (s : State) (e : Nat) : State :=
  if e < 128 then s.bump 0x1010 e 10 else s.bump 0x2012 (e - 128) 10
/-- Count a frame lost to an egress that is down (R106, R395). -/
def countDown (s : State) (e : Nat) : State :=
  if e < 128 then s.bump 0x1010 e 11 else s.bump 0x2012 (e - 128) 11
/-- Count a held frame flushed (R107, R395). -/
def countFlush (s : State) (e : Nat) : State :=
  if e < 128 then s.bump 0x1010 e 12 else s.bump 0x2012 (e - 128) 12

/-- Add to a demand of the present window (R435). -/
def addLoad (s : State) (k n : Nat) : State := { s with fabric := { s.fabric with load := s.fabric.load.upd 0 k (· + n) } }

/-- Cells written into slice `i`. -/
def cellsWritten (s : State) (i n : Nat) : State := addLoad (s.bumpBy 0x3013 i 0 n) i n

/-- Cells read from slice `i` for a frame. -/
def cellsRead (s : State) (i n : Nat) : State := addLoad (s.bumpBy 0x3013 i 1 n) i n

/-- The segments from slice `i` to slice `j` for egress `e`: one to an adjacent slice; two to the opposite one, clockwise when the egress
position is even and counter-clockwise when it is odd (R419). -/
def ringPath (i j e : Nat) : List Nat :=
  match (j + 4 - i) % 4 with
  | 1 => [2 * i]
  | 2 => if e % 2 = 0 then [2 * i, 2 * ((i + 1) % 4)] else [2 * i + 1, 2 * ((i + 3) % 4) + 1]
  | 3 => [2 * i + 1]
  | _ => []

/-- The order of a ring stop: a cut-through frame's cells go ahead of all other cells, and each kind goes as it came (R421). -/
def joinStop (c : Crossing) : List Crossing → List Crossing
  | [] => [c]
  | x :: l => if c.cut && !x.cut then c :: x :: l else x :: joinStop c l

/-- A frame's cells begin to cross the ring along a path; they are there until its transmission ends (DESIGN CHOICE, log entry 143). -/
def enterRing (s : State) (path : List Nat) (c : Crossing) : State :=
  eachN s path fun s k =>
    addLoad { s with fabric := { s.fabric with ring := s.fabric.ring.upd [] k (joinStop c) } } (8 + k) c.cells

/-- Frames of egress `e`, of class `cls` or of any, have no cells on the ring any more. -/
def leaveRing (s : State) (e : Nat) (cls : Option Nat) : State :=
  eachN s (List.range 8) fun s k => { s with fabric := { s.fabric with
    ring := s.fabric.ring.upd [] k (·.filter fun c => c.egress != e || cls.any (· != c.cls)) } }

/-- The egress MAC loses its frame: one whose first symbol has reached the pins is cut and counts as stomped,
another counts as egress-down; a frame held by preemption was begun (R102, R106, R395). -/
def dropMac (s : State) (e : Nat) : State :=
  let s1 := match (s.egr e).mac with
    | none => s
    | some m => if m.started then countStomp s e else countDown s e
  let s2 := match (s.egr e).held with
    | none => s1
    | some _ => countStomp s1 e
  (leaveRing s2 e none).updEgr e fun x => { x with mac := none, held := none }

/-! ### Clock islands (R38, R30) -/

/-- Island of a target word, when the target lies in one island. -/
def islandOf (t : Nat) : Option Nat :=
  let n := tgtNum t
  match tgtDom t with
  | 1 => some (n / 8)
  | 2 => some n
  | 4 => some (16 + n / 8)
  | 5 => some (16 + n / 8)
  | 6 => some (16 + n)
  | 7 => if n < 4 then some (24 + n) else none
  | 8 => some 28
  | _ => none

/-- Reset job `j` covers island `i` (R550 and the table of domain and block targets). -/
def coversIsland (j : ResetJob) (i : Nat) : Bool :=
  let n := tgtNum j.target
  match tgtDom j.target with
  | 2 => i == n
  | 3 => i / 4 == n && i < 16
  | 6 => i == 16 + n
  | 7 => if n < 4 then i == 24 + n else 24 ≤ i && i < 28
  | 8 => n == 16 && i == 28
  | _ => false

/-- An access to the island completes with ISLAND_GATED: it is gated, its bridges are shut, or a reset of it is
asserted (R30, R536). -/
def islandShut (s : State) (i : Nat) : Bool :=
  s.clk.gated.testBit i || s.clk.shut.testBit i || s.rst.jobs.any fun j => j.phase == 1 && coversIsland j i

end Sys2Proof.Machine
end

