-- ==== Sys2Proof/Machine/Operands.lean ====
section
/-! DEFINITION. Operand forms of the host opcodes: the target abbreviations and parameter lengths of Command
reference, the fields of parameters, and the order in which checks of step 8 of R47 decide. -/

namespace Sys2Proof.Machine

/-! ### Fields of a request -/

/-- Target word as a number. -/
def tw (r : Req) : Nat := r.target.toNat
/-- Number part of the target word. -/
def ti (r : Req) : Nat := tgtNum r.target.toNat
/-- Source number. -/
def sn (r : Req) : Nat := r.src.val
/-- Tag as a number. -/
def tagN (r : Req) : Nat := r.tag.toNat
/-- One byte of the parameters. -/
def p8 (r : Req) (off : Nat) : Nat := byteAt r.params off
/-- Two bytes of the parameters. -/
def p16 (r : Req) (off : Nat) : Nat := fld r.params off 2
/-- Four bytes of the parameters. -/
def p32 (r : Req) (off : Nat) : Nat := fld r.params off 4
/-- Eight bytes of the parameters. -/
def p64 (r : Req) (off : Nat) : Nat := fld r.params off 8
/-- A field of any size. -/
def pN (r : Req) (off n : Nat) : Nat := fld r.params off n
/-- A signed byte. -/
def i8 (r : Req) (off : Nat) : Int := signed 8 (p8 r off)
/-- A signed 16-bit field. -/
def i16 (r : Req) (off : Nat) : Int := signed 16 (p16 r off)
/-- The ports of a 16-byte mask at an offset (R10). -/
def portMask (r : Req) (off : Nat) : List Nat := maskList 128 (fld r.params off 16)
/-- The lanes or links of an 8-byte mask (R405). -/
def laneMask (r : Req) (off : Nat) : List Nat := maskList 64 (fld r.params off 8)
/-- A reserved field is zero. -/
def rz (r : Req) (off n : Nat) : Bool := fld r.params off n == 0
/-- STAGE is set. -/
def staged (r : Req) : Bool := r.flags.getLsbD 2
/-- AUTH is set. -/
def authBit (r : Req) : Bool := r.flags.getLsbD 0

/-! ### Targets (target abbreviations of Command reference) -/

/-- device -/
def onDevice (_ : State) (t : Nat) : Bool := t == 0
/-- device or Headland -/
def onDevHead (_ : State) (t : Nat) : Bool := t == 0 || t == 1
/-- port -/
def onPort (_ : State) (t : Nat) : Bool := tgtDom t == 1 && tgtNum t < 128
/-- cove -/
def onCove (_ : State) (t : Nat) : Bool := tgtDom t == 2 && tgtNum t < 16
/-- lane -/
def onLane (_ : State) (t : Nat) : Bool := tgtDom t == 4 && tgtNum t < 64
/-- link: configured host links only -/
def onLink (s : State) (t : Nat) : Bool := tgtDom t == 5 && tgtNum t < 64 && s.linkWidth (tgtNum t) != 0
/-- quay -/
def onQuay (_ : State) (t : Nat) : Bool := tgtDom t == 6 && tgtNum t < 8
/-- slice -/
def onSlice (_ : State) (t : Nat) : Bool := tgtDom t == 7 && tgtNum t < 4
/-- fabric -/
def onFabric (_ : State) (t : Nat) : Bool := t == fabricT
/-- engine, 16 for the sum or all -/
def onEngine (_ : State) (t : Nat) : Bool := tgtDom t == 8 && tgtNum t < 17
/-- TT -/
def onTT (_ : State) (t : Nat) : Bool := t == tideT
/-- island -/
def onIsland (_ : State) (t : Nat) : Bool := tgtDom t == 9 && tgtNum t < 32
/-- region 0 to 8 -/
def onRegion (_ : State) (t : Nat) : Bool := tgtDom t == 10 && tgtNum t < 9
/-- regions 1 to 4 -/
def onRegion14 (_ : State) (t : Nat) : Bool := tgtDom t == 10 && 1 ≤ tgtNum t && tgtNum t < 5
/-- regions 1 to 6 -/
def onRegion16 (_ : State) (t : Nat) : Bool := tgtDom t == 10 && 1 ≤ tgtNum t && tgtNum t < 7
/-- port or lane -/
def onPortLane (s : State) (t : Nat) : Bool := onPort s t || onLane s t
/-- port, lane, cove, slice, engine 0 to 15 (`RESET_BLOCK`) -/
def onBlock (s : State) (t : Nat) : Bool :=
  onPort s t || onLane s t || onCove s t || onSlice s t || (tgtDom t == 8 && tgtNum t < 16)
/-- Targets of R78. -/
def onDomain (s : State) (t : Nat) : Bool :=
  (tgtDom t == 3 && tgtNum t < 4) || onQuay s t || t == fabricT || t == tideT || t == 1
/-- Targets of R607. -/
def onTest (s : State) (t : Nat) : Bool :=
  onSlice s t || onCove s t || onQuay s t || (tgtDom t == 8 && tgtNum t < 16) || onPortLane s t

/-! ### Lengths (R666) -/

/-- A fixed parameter length. -/
def len (n : Nat) (ps : List Byte) : Bool := ps.length == n
/-- `base` bytes and `unit` bytes for each of the items that a field of `n` bytes at `off` counts. -/
def lenBy (base unit off n : Nat) (ps : List Byte) : Bool :=
  base ≤ ps.length && ps.length == base + unit * fld ps off n

/-! ### Checks of step 8 (R47, R11, R53) -/

/-- The first check that fails decides. -/
def firstFail : List (Bool × Status) → Option Status
  | [] => none
  | (ok, st) :: l => if ok then firstFail l else some st

/-- The check holds or the answer is INVALID_PARAM. -/
def inv (ok : Bool) : Bool × Status := (ok, .invalidParam)
/-- The check holds or the answer is RANGE. -/
def rng (ok : Bool) : Bool × Status := (ok, .range)
/-- A value lies in `lo` to `hi`. -/
def within (v lo hi : Nat) : Bool := lo ≤ v && v ≤ hi
/-- A signed value lies in `lo` to `hi`. -/
def withinI (v lo hi : Int) : Bool := lo ≤ v && v ≤ hi

/-- EtherTypes that a command EtherType may not take. -/
def etherTypeBarred (e : Nat) : Bool :=
  e < 0x0600 || [0x0800, 0x0806, 0x86DD, 0x88F7, 0x22F0, 0x8100].contains e

/-- Ports whose configuration, holds or link a block target covers: the port itself, a cove's eight, a shoal's 32. -/
def portsOf (t : Nat) : List Nat :=
  match tgtDom t with
  | 1 => [tgtNum t]
  | 2 => (List.range 8).map (tgtNum t * 8 + ·)
  | 3 => (List.range 32).map (tgtNum t * 32 + ·)
  | _ => []

/-- Lanes that a block target covers. -/
def lanesOf (s : State) (t : Nat) : List Nat :=
  match tgtDom t with
  | 4 => [tgtNum t]
  | 5 => s.linkLanes (tgtNum t)
  | 6 => (List.range 8).map (tgtNum t * 8 + ·)
  | _ => []

/-- The blocks of a target as target words, for the overlap of R64: a cove or shoal with its ports, a quay or a
link with its lanes, a slice or the fabric as the fabric, an engine or the Tide Table as the Tide Table. -/
def blocksOf (s : State) (t : Nat) : List Nat :=
  match tgtDom t with
  | 1 => [t]
  | 2 => t :: (portsOf t).map portT
  | 3 => (portsOf t).map portT ++ (List.range 4).map fun i => coveT (tgtNum t * 4 + i)
  | 4 => [t, quayT (tgtNum t / 8)]
  | 5 => quayT (tgtNum t / 8) :: (lanesOf s t).map laneT
  | 6 => t :: (lanesOf s t).map laneT
  | 7 => [fabricT]
  | 8 => [tideT]
  | _ => [t]

end Sys2Proof.Machine
end

