-- ==== Sys2Proof/Machine/Flags.lean ====
section
/-! DEFINITION. Status words, hold bits and pins that are computed from the state. -/

namespace Sys2Proof.Machine

/-- MAC data rate of a mode, kbit/s. -/
def modeRate (m : Nat) : Nat :=
  match m with
  | 1 => 10000 | 2 => 10000 | 3 => 100000 | 4 => 1000000 | 5 => 2500000 | 6 => 5000000
  | 7 => 10000000 | 8 => 25000000 | 9 => 50000000 | _ => 0

/-- The cove of port `p` is gated, or a gate request for it waits for its bridges (R535). -/
def coveGated (s : State) (p : Nat) : Bool := s.clk.gated.testBit (p / 8) || s.clk.gateReq.testBit (p / 8)

/-- The cove of port `p` runs from the keeper clock after having lost its PLL output (R533). -/
def coveOnKeeper (s : State) (p : Nat) : Bool := s.clk.onKeeper.testBit (p / 8)

/-- Port `p` is held by `SAFE_STATE` or `PORT_QUIET` (R76). -/
def overridden (s : State) (p : Nat) : Bool := s.ctl.safeState || (s.port p).quietHold

/-- Any hold of R101 is on port `p`. -/
def held (s : State) (p : Nat) : Bool :=
  (s.pcfg p).admin || overridden s p || (s.port p).resetHold || coveGated s p || coveOnKeeper s p || s.rst.asserted

/-- Holds byte of `PORT_MODE_GET`. -/
def holdsByte (s : State) (p : Nat) : Nat :=
  b2n (s.pcfg p).admin + 2 * b2n s.ctl.safeState + 4 * b2n (s.port p).quietHold +
    8 * b2n ((s.port p).resetHold || coveOnKeeper s p || s.rst.asserted) + 16 * b2n (coveGated s p)

/-- The port is at Up or LPI. -/
def portLive (s : State) (p : Nat) : Bool := (s.port p).st == .up || (s.port p).st == .lpi

/-- An unused lane: no link covers it (R392). -/
def laneUnused (s : State) (m : Nat) : Bool := (s.linkOf m).isNone

/-- A hold of lane `m` other than being unused: the gated quay and a missing HREF included (R392, R523, R535). -/
def laneKept (s : State) (m : Nat) : Bool :=
  (s.lcfg m).admin || (s.lane m).resetHold || s.clk.gated.testBit (16 + m / 8) || s.clk.gateReq.testBit (16 + m / 8) ||
    s.clk.onKeeper.testBit (16 + m / 8) || s.clk.href == 0 || s.rst.asserted

/-- Any hold of R392 is on lane `m`. -/
def laneHeld (s : State) (m : Nat) : Bool := laneKept s m || laneUnused s m

/-- Holds byte of `HOST_LANE_STATUS`. -/
def laneHolds (s : State) (m : Nat) : Nat :=
  b2n (s.lcfg m).admin + 2 * b2n (laneUnused s m) + 
    4 * b2n ((s.lane m).resetHold || s.clk.onKeeper.testBit (16 + m / 8) || s.rst.asserted)

/-- Egress position `e` can send: the port at Up or LPI, or the host link at Up (R106, R395). -/
def egressLive (s : State) (e : Nat) : Bool :=
  if e < 128 then portLive s e else (s.link (e - 128)).st == .up

/-- `INT_N` is driven low: an unacknowledged record whose severity is enabled (R70). -/
def intN (s : State) : Bool := s.ctl.events.any fun e => s.cfg.dev.evMask.testBit e.sev

/-- Total bytes of a packet (R34, R35): header, status, data, check word, and the CMAC when present. -/
def Packet.size (p : Packet) : Nat := 22 + p.data.length + if p.cmac.isSome then 16 else 0

/-- MBX_STATUS. -/
def mbxStatus (s : State) : Nat :=
  b2n s.ctl.feReady * 2 ^ 31 + b2n s.ctl.reqBusy * 2 ^ 30 + b2n (!s.ctl.spiQueue.isEmpty) * 2 ^ 29 +
    b2n (s.cfg.dev.route == 0 && !s.ctl.events.isEmpty) * 2 ^ 28 + (s.ctl.spiQueue.head?.map Packet.size).getD 0

/-- Reset activity by reach, bit n for reach n (READ_CORE_STATUS). -/
def resetActivity (s : State) : Nat :=
  (if s.rst.asserted || s.rst.starting then 2 ^ s.rst.reach else 0) +
    (if s.rst.jobs.any (·.reach == 3) then 8 else 0) + (if s.rst.jobs.any (·.reach == 4) then 16 else 0)

/-- Domains in reset (RESET_STATUS). -/
def domainBit (t : Nat) : Nat :=
  match tgtDom t with
  | 3 => tgtNum t
  | 6 => 4 + tgtNum t
  | 7 => 12
  | 8 => 13
  | _ => 14

/-- The domains whose reset is asserted or starting up, as a mask. -/
def domainsInReset (s : State) : Nat :=
  maskOf ((s.rst.jobs.filter fun j => j.reach == 3 && j.phase != 0).map fun j => domainBit j.target)

/-- The agent stops new frames at position `pos` for a drain of block `t` (R24, R556, X1 to X4). -/
def drainStops (s : State) (t pos : Nat) : Bool :=
  let n := tgtNum t
  match tgtDom t with
  | 1 => pos == n
  | 2 => pos < 128 && pos / 8 == n
  | 3 => pos < 128 && pos / 32 == n
  | 4 => 128 ≤ pos && s.linkOf n == some (pos - 128)
  | 6 => 128 ≤ pos && (pos - 128) / 8 == n
  | 7 => n == 4 || (if pos < 128 then pos / 32 == n else (pos - 128) / 8 % 4 == n)
  | _ => false

/-- Blocks whose drain runs: for a reset, a slice gate, Parked entry, or a self-test. -/
def drains (s : State) : List Nat :=
  (s.rst.jobs.filter (·.phase == 0)).map (·.target) ++ s.rst.gating.map (fun g => sliceT g.1) ++
    (if s.power.transition == 2 && s.power.parkStage == 1 then [fabricT] else []) ++
    s.stest.running.filterMap fun e => e.2.bind fun j => if j.stage = 1 then some e.1 else none

/-- New frames are stopped at a position by a drain. -/
def drainingPos (s : State) (pos : Nat) : Bool := (drains s).any fun t => drainStops s t pos

/-- A self-test runs on the target word. -/
def testRunning (s : State) (t : Nat) : Bool := (s.stest.running.get none t).isSome

/-- Block `b`, or a part of it, is in Test (R105, R616). -/
def underTest (s : State) (b : Nat) : Bool :=
  testRunning s b || (portsOf b).any (fun p => (s.port p).st == .test) ||
    (lanesOf s b).any (fun m => (s.lane m).st == .test)

/-- Any port is held by `PORT_QUIET`. -/
def anyQuietHold (s : State) : Bool := s.ports.any fun e => e.2.quietHold

end Sys2Proof.Machine
end

