-- ==== Sys2Proof/Machine/Command.lean ====
section
/-! DEFINITION. The path of a Flaes request: the record of one opcode (its row of Command reference and what its
chapter defines), the checks of R47 in their order, replies (R35, R40, R669), staging (R57, R58) and execution. -/

namespace Sys2Proof.Machine

/-- One opcode: its row of the opcode tables, its checks, and its effect. -/
structure Cmd where
  op : Nat
  /-- Transports column: SPI only (R664). -/
  spiOnly : Bool := false
  /-- Staging column: stage (R665). -/
  stageable : Bool := false
  /-- Executed by Breakwater (R71). -/
  bw : Bool := false
  /-- Target column. -/
  target : State → Nat → Bool
  /-- Parameters column. -/
  len : List Byte → Bool
  /-- Step 8: the answer of the first parameter check that fails. -/
  check : State → Req → Option Status := fun _ _ => none
  /-- The command changes the configuration or the state of the blocks it names (R64, R616). -/
  writes : Bool := false
  /-- The blocks it names: its target, or the blocks of its mask, ascending (R672). -/
  names : State → Req → List Nat := fun _ r => [r.target.toNat]
  /-- Step 9: the access needs the clock island of each block it names (R30). -/
  gate : Bool := true
  /-- A port or lane in Test takes the command (R616): the ends of a test. -/
  inTest : Bool := false
  /-- Step 9: the other answers of a block that cannot take the command now. -/
  take : State → Req → Nat → Option (Status × List Byte) := fun _ _ _ => none
  /-- The effect, and the reply's status and data (none: the reply comes later, R79). -/
  run : State → Req → State × Option (Status × List Byte)
  /-- The part of a mask command that one block of a commit applies (R61). -/
  narrow : Req → Nat → Req := fun r _ => r

/-! ### Packets -/

/-- Header of a packet (R34). -/
def header (flags op tag target len seq : Nat) : List Byte :=
  be 1 1 ++ be 1 flags ++ be 2 op ++ be 2 tag ++ be 4 target ++ be 2 len ++ be 2 seq ++ be 2 0

/-- Bytes of a reply or event packet up to its check word (R35, R36). -/
def Packet.body (p : Packet) : List Byte :=
  let b := header p.flags p.opcode p.tag p.target p.data.length p.seq ++ be 2 p.status ++ p.data
  b ++ be 4 (crc32c b)

/-- All bytes of a reply or event packet (R34). -/
def Packet.bytes (p : Packet) : List Byte := p.body ++ match p.cmac with | some c => be 16 c | none => []

/-- Bytes of a request from header offset 0 through its check word (R37). -/
def reqBody (op : Nat) (r : Req) : List Byte :=
  let b := [r.version, r.flags] ++ be 2 op ++ be 2 r.tag.toNat ++ be 4 r.target.toNat ++ be 2 r.params.length ++
    be 2 r.seq.toNat ++ be 2 r.rsvd.toNat ++ r.params
  b ++ be 4 (crc32c b)

/-! ### Authentication (R50, R82 to R85) -/

/-- Key slot `i`. -/
def Fuses.slot (f : Fuses) (i : Nat) : KeySlot := if i = 0 then f.key0 else f.key1
/-- A slot is usable when it is programmed and not revoked (R85). -/
def KeySlot.usable (k : KeySlot) : Bool := k.programmed && !k.revoked
/-- The lowest-numbered usable slot (R85). -/
def lowestUsable (f : Fuses) : Option Nat :=
  if f.key0.usable then some 0 else if f.key1.usable then some 1 else none

/-- The policy requires a CMAC of a packet with this opcode (R83). -/
def authRequired (policy op : Nat) : Bool :=
  policy == 2 || (policy == 1 && op != 0xF005 && op != 0xF006 && op != 0x0001)

/-- The sequence lies in the window after the source's last accepted one (R50). -/
def seqOk (s : State) (r : Req) : Bool :=
  let d := (r.seq.toNat + 65536 - s.ctl.lastSeq.get 0 (sn r)) % 65536
  within d 1 32768

/-- Step 2 of R47 passes. -/
def authOk (s : State) (op : Nat) (r : Req) : Bool :=
  match s.cfg.dev.active with
  | none => !authBit r && ((op == 0x0009 && sn r == 0) || !authRequired s.cfg.dev.policy op)
  | some k =>
    if authBit r then
      (match r.cmac with
        | some c => c.toNat == cmac (s.fuses.slot k).key (reqBody op r)
        | none => false) && seqOk s r
    else !authRequired s.cfg.dev.policy op

/-! ### Replies -/

/-- Breakwater's opcodes (R71). -/
def bwOp (op : Nat) : Bool := 0xF000 ≤ op && op ≤ 0xF006

/-- The Ethernet frame that carries a packet: the command EtherType and no VLAN tag, zero bytes up to 64 bytes with the FCS (R41,
R43, R670). Its source address is the command MAC address (DESIGN CHOICE, log entry 6). -/
def Packet.frame (d : DevCfg) (p : Packet) : List Byte :=
  let b := be 6 p.da ++ be 6 d.cmdMac ++ be 2 d.etherType ++ p.bytes
  let b' := if b.length < 60 then padTo 60 b else b
  b' ++ le 4 (crc32 b')

/-- A packet leaves on an Ethernet transport. -/
def emitPacket (s : State) (p : Packet) : State :=
  { s with ctl := { s.ctl with sent := (p, p.frame s.cfg.dev) :: s.ctl.sent } }

/-- A packet at a host link: it leaves at once while the MAC sends no data frame, else after that frame, ahead of every class
(R43). -/
def linkPacket (s : State) (k : Nat) (p : Packet) : State :=
  if (s.egr (128 + k)).mac.isNone then emitPacket s p
  else s.updEgr (128 + k) fun x => { x with replies := x.replies ++ [p] }

/-- The frame in a link's MAC has ended: the packets that waited for it leave, in order (R43). -/
def sendReplies (s : State) (k : Nat) : State :=
  (s.egr (128 + k)).replies.foldl emitPacket (s.updEgr (128 + k) fun x => { x with replies := [] })

/-- A link leaves Up: packets that have not left are lost (R391). -/
def loseReplies (s : State) (k : Nat) : State :=
  (s.updEgr (128 + k) fun x => { x with replies := [] }).bumpBy 0x0003 (k + 2) 7 (s.egr (128 + k)).replies.length

/-- Give a packet to its transport: the SPI reply queue with its discard rule (R40), the management lane, or a host
link, where a packet due while the link is not Up is lost (R391, R681). -/
def sendPacket (s : State) (p : Packet) : State :=
  if p.dest = 0 then
    if s.ctl.spiQueue.length < 32 then { s with ctl := { s.ctl with spiQueue := s.ctl.spiQueue ++ [p] } }
    else
      let shown := s.ctl.spiQueue.take 1
      let rest := (s.ctl.spiQueue.drop 1).eraseP fun x => !x.event
      ({ s with ctl := { s.ctl with spiQueue := shown ++ rest ++ [p] } }).bump 0x0003 0 7
  else if p.dest = 1 ∧ s.ctl.mgmtUp then emitPacket s p
  else if 2 ≤ p.dest ∧ (s.link (p.dest - 2)).st = .up then linkPacket s (p.dest - 2) p
  else s.bump 0x0003 p.dest 7

/-- The device authenticates what it sends: policy 1 or 2, under the active slot (R84, R85). -/
def withCmac (s : State) (p : Packet) : Packet :=
  match s.cfg.dev.active with
  | some k =>
    if s.cfg.dev.policy = 0 then p
    else
      let p' := { p with flags := p.flags ||| 1 }
      { p' with cmac := some (cmac (s.fuses.slot k).key p'.body) }
  | none => p

/-- The reply to a request (R35, R669). -/
def replyPacket (op : Nat) (r : Req) (st : Status) (data : List Byte) : Packet :=
  { dest := sn r, da := r.sa.toNat, opcode := op, tag := tagN r, target := tw r, seq := r.seq.toNat,
    flags := 0x80 + (r.flags.toNat &&& 6), status := st.code, data, cmac := none, event := false }

/-- Answer a request: REPLY_WANTED decides for OK and ACCEPTED, Breakwater always replies, an AUTH_FAIL reply is
unauthenticated, and BUSY counts `CMD_BUSY` (R34, R47, R72, R90). -/
def reply (s : State) (op : Nat) (r : Req) (st : Status) (data : List Byte) : State :=
  let s1 := if st = .busy then s.bump 0x0003 (sn r) 3 else s
  if bwOp op ∨ r.flags.getLsbD 1 ∨ (st ≠ .ok ∧ st ≠ .accepted) then
    let p := replyPacket op r st data
    sendPacket s1 (if st = .authFail then p else withCmac s p)
  else s1

/-! ### Checks of R47 -/

/-- Staging memory that a command takes (R58). -/
def stagedSize (r : Req) : Nat := (16 + r.params.length + 7) / 8 * 8
/-- Staging memory in use. -/
def stagingUsed (e : Epoch) : Nat := (e.staged.map fun x => stagedSize x.req).sum

/-- What the checks decide. -/
inductive Verdict where
  /-- Discarded without reply (step 3). -/
  | discard
  /-- Answered with a status, and nothing changed. -/
  | refuse (st : Status) (data : List Byte)
  /-- Staged into the open epoch. -/
  | stage
  /-- Executed. -/
  | run
  deriving DecidableEq, Repr

/-- Opcodes that the boot ROM of Headland state 4 serves: identity and status, the firmware choice, and the NVM
opcodes on firmware slots (R567, R605). -/
def romServes (op t : Nat) : Bool :=
  [0x0001, 0x0002, 0x6004, 0x6006].contains op || (0x7010 ≤ op && op ≤ 0x7015 && (t == tgt 10 1 || t == tgt 10 2))

/-- Step 5: transport, STAGE flag and epoch, and the service of Headland state 4 (R664, R665, R73, R56, R567). -/
def permitted (s : State) (c : Cmd) (r : Req) : Bool :=
  (!c.spiOnly || sn r == 0) &&
  (!staged r || (c.stageable && s.epoch.state != 0 && s.epoch.owner == sn r)) &&
  (s.rst.headland != 4 || c.bw || (sn r == 0 && romServes c.op (tw r)))

/-- Step 8: reserved header bits, then the parameters (R47). -/
def step8 (s : State) (c : Cmd) (r : Req) : Option Status :=
  if r.flags.toNat &&& 0x78 ≠ 0 ∨ r.rsvd ≠ 0 then some .invalidParam else c.check s r

/-- The blocks that a commit in progress covers (R64). -/
def covered (s : State) : List Nat :=
  ((if 2 ≤ s.epoch.state then s.epoch.waiting ++ s.epoch.applied else []) ++
    s.modeJobs.map fun j => tw j.req).flatMap (blocksOf s)

/-- The island of a block is shut to accesses (R30). -/
def blockShut (s : State) (b : Nat) : Bool := match islandOf b with
  | some i => islandShut s i
  | none => false

/-- Step 9 for one block that the command names: R64, R30, R616, then what its chapter gives. A BUSY_SELFTEST answer
carries the remaining test time, which the spec does not compute: a free value. -/
def step9Block (s : State) (c : Cmd) (r : Req) (b : Nat) : Option (Status × List Byte) :=
  if c.writes && (blocksOf s b).any (covered s).contains then some (.busy, [])
  else if c.gate && blockShut s b then some (.islandGated, [])
  else if c.writes && !c.inTest && underTest s b then some (.busySelftest, be 4 (Config.testRemaining s.freeCtr).toNat)
  else c.take s r b

/-- Step 9 of a command that is executed: the answer of the first block that cannot take it (R672). -/
def step9 (s : State) (c : Cmd) (r : Req) : Option (Status × List Byte) :=
  if c.bw then (if s.ctl.bwBusy.contains (sn r) then some (.busy, []) else none)
  else (c.names s r).findSome? (step9Block s c r)

/-- Step 9 of a command that is staged (R57, R58, R64). -/
def step9Staged (s : State) (c : Cmd) (r : Req) : Option (Status × List Byte) :=
  if 2 ≤ s.epoch.state then some (.busy, [])
  else if c.gate && (c.names s r).any (blockShut s) then some (.islandGated, [])
  else if stagingUsed s.epoch + stagedSize r > 2 * 1024 * 1024 then some (.range, [])
  else none

/-- The configuration as it would be with every staged command: what a further staged command is judged with. -/
def State.drafted (s : State) : State := { s with cfg := s.epoch.draft.getD s.cfg }

/-- Steps 6 to 9 of R47. -/
def judge69 (s : State) (c : Cmd) (r : Req) : Verdict :=
  let v := if staged r then s.drafted else s
  if !c.target v (tw r) then .refuse .invalidTarget []
  else if !c.len r.params then .refuse .invalidLength []
  else match step8 v c r with
    | some st => .refuse st []
    | none =>
      match if staged r then step9Staged s c r else step9 s c r with
      | some (st, d) => .refuse st d
      | none => if staged r then .stage else .run

/-- Steps 2 to 9 of R47, the first failing check deciding. -/
def judge (s : State) (c : Cmd) (r : Req) : Verdict :=
  if !authOk s c.op r then .refuse .authFail []
  else if r.flags.getLsbD 7 then .discard
  else if r.version ≠ 1 then .refuse .invalidOpcode []
  else if !permitted s c r then .refuse .notPermitted []
  else judge69 s c r

/-! ### Serving a request -/

/-- An authenticated packet that is executed or staged moves its source's sequence (R50). -/
def acceptSeq (s : State) (r : Req) : State :=
  if authBit r then { s with ctl := { s.ctl with lastSeq := s.ctl.lastSeq.set 0 (sn r) r.seq.toNat } } else s

/-- A refused request: step 2 counts and raises `AUTH_FAILURE`; every refusal is answered (R47, R684). -/
def refuse (s : State) (op : Nat) (r : Req) (st : Status) (data : List Byte) : State :=
  if st = .authFail then
    let s1 := s.bump 0x0003 (sn r) 2
    let s2 := raise s1 0x0004 1 0 (be 1 (sn r) ++ [Config.authReason s1.freeCtr])
    reply s2.draw op r st data
  else reply (if st = .busySelftest then s.draw else s) op r st data

/-- The block of a commit that a named block belongs to: the fabric and the Tide Table are one block each (R61). -/
def commitBlock (b : Nat) : Nat := if tgtDom b = 7 then fabricT else if tgtDom b = 8 then tideT else b

/-- A command joins the staged ones (R57, R58). -/
def stageIn (s : State) (c : Cmd) (r : Req) : State :=
  let x : Staged := { op := c.op, req := r, blocks := ((c.names s r).map commitBlock).eraseDups }
  let draft := (c.run s.drafted r).1.cfg
  { s with epoch := { s.epoch with staged := s.epoch.staged ++ [x], draft := some draft } }

/-- Stage a command: its reply is OK. -/
def stageCmd (s : State) (c : Cmd) (r : Req) : State := reply (stageIn (acceptSeq s r) c r) c.op r .ok []

/-- Execute a command: its reply leaves under the settings before it (R85, R88, R391), then it takes effect. -/
def execCmd (s : State) (c : Cmd) (r : Req) : State :=
  let s1 := acceptSeq s r
  match (c.run s1 r).2 with
  | none => (c.run s1 r).1
  | some (st, d) => (c.run (reply s1 c.op r st d) r).1

/-- Act on what the checks decide. -/
def act (s : State) (c : Cmd) (r : Req) : State :=
  match judge s c r with
  | .discard => s
  | .refuse st d => refuse s c.op r st d
  | .stage => stageCmd s c r
  | .run => execCmd s c r

/-- A source takes packets: SPI always; the management lane and a host link's commands when `TRANSPORT_CONFIG`
enables them, Breakwater opcodes always; a host link only while it is configured (R88, R391, R664). -/
def sourceOpen (s : State) (bw : Bool) (src : Nat) : Bool :=
  if src = 0 then true
  else if src = 1 then bw || s.cfg.dev.mgmtOn
  else s.linkWidth (src - 2) != 0 && (bw || s.cfg.dev.inband.testBit (src - 2))

/-! ### Headland's command queue (R46, R48) -/

/-- Headland takes packets: READY, or the boot ROM of state 4 (R562, R567, R668). -/
def serving (s : State) : Bool := s.rst.headland == 2 || s.rst.headland == 4

/-- Entries of the command queue that source `k` holds. -/
def queuedOf (s : State) (k : Nat) : Nat := (s.ctl.cmdQueue.filter fun q => sn q.req == k).length

/-- Shared entries in use: what each source holds past its two guaranteed ones. -/
def sharedUsed (s : State) : Nat := ((List.range 66).map fun k => queuedOf s k - 2).sum

/-- A guaranteed or a shared entry is free for source `k`. -/
def queueRoom (s : State) (k : Nat) : Bool := queuedOf s k < 2 || sharedUsed s < 124

/-- The front end answers BUSY to a packet that Headland does not take; one with REPLY set is discarded (R46, R47 step 3, R562). -/
def frontBusy (s : State) (op : Nat) (r : Req) : State :=
  if r.flags.getLsbD 7 then s else reply s op r .busy []

/-- A packet joins the command queue, or finds no entry free (R46). -/
def queueIn (s : State) (op : Nat) (r : Req) (own pool : Nat) : State :=
  if queueRoom s (sn r) then
    { s with ctl := { s.ctl with cmdQueue := s.ctl.cmdQueue ++ [{ op, req := r, own, pool }] } }
  else frontBusy s op r

/-- A request that has passed step 1 of R47 arrives: no transport takes it before FE_READY (R74); it counts `CMD_RX`; Headland's
opcodes are answered BUSY while Headland does not serve (R562, R571, R668). A packet that finds the command queue empty is taken
at once, another joins it (DESIGN CHOICE, log entry 8). -/
def serve (c : Cmd) (r : Req) (s : State) : State :=
  if !s.ctl.feReady || !sourceOpen s c.bw (sn r) then s
  else
    let s1 := s.bump 0x0003 (sn r) 0
    if c.bw then act s1 c r
    else if !serving s then frontBusy s1 c.op r
    else if s.ctl.cmdQueue.isEmpty then act s1 c r
    else queueIn s1 c.op r 0 0

/-! ### Forms that many opcodes share -/

/-- The result of a read: no state changes (R680). -/
def readOk (f : State → Req → List Byte) : State → Req → State × Option (Status × List Byte) :=
  fun s r => (s, some (.ok, f s r))

/-- The result of a command with no result data. -/
def doOk (f : State → Req → State) : State → Req → State × Option (Status × List Byte) :=
  fun s r => (f s r, some (.ok, []))

/-- The result of a command that replies ACCEPTED and is closed later. -/
def doAccepted (f : State → Req → State) : State → Req → State × Option (Status × List Byte) :=
  fun s r => (f s r, some (.accepted, []))

/-- A read opcode with a fixed parameter length: no state changes (R680). -/
def readCmd (op : Nat) (target : State → Nat → Bool) (n : Nat) (f : State → Req → List Byte) : Cmd where
  op := op
  target := target
  len := len n
  run := readOk f

/-- A configuration opcode with a fixed parameter length that may be staged (R665). -/
def confCmd (op : Nat) (target : State → Nat → Bool) (n : Nat) (check : State → Req → Option Status)
    (f : State → Req → State) : Cmd where
  op := op
  stageable := true
  target := target
  len := len n
  check := check
  writes := true
  run := doOk f

/-- A counter clear by mask: it names the blocks of its mask, and is served during a commit (R64). -/
def clearCmd (op : Nat) (target : State → Nat → Bool) (n : Nat) (names : State → Req → List Nat)
    (f : State → Req → State) : Cmd where
  op := op
  target := target
  len := len n
  names := names
  run := doOk f

/-- A counter clear of ports by the port mask of R123. -/
def portClear (op readOp : Nat) : Cmd :=
  clearCmd op onDevice 16 (fun _ r => (portMask r 0).map portT) fun s r => eachN s (portMask r 0) fun s p => s.clearCnt readOp p

/-- The command of a request, as a waiter. -/
def waiterOf (op : Nat) (r : Req) : Waiter := { op, tag := tagN r, src := sn r }

end Sys2Proof.Machine
end

