-- ==== Sys2Proof/Machine/Line.lean ====
section
/-! DEFINITION. Line ports: the shared transitions between port states, with all that leaves or enters them does
(R92 to R124, R160, R195, R206, R207, R238 to R250, R297, R315, R326, R340 to R351). -/

namespace Sys2Proof.Machine

/-! ### Modes -/

/-- Echo span in taps (the receive resources by mode). -/
def echoSpan (m : Nat) : Nat :=
  match m with
  | 3 => 16 | 4 => 120 | 5 => 224 | 6 => 440 | 7 => 872 | 8 => 2176 | 9 => 4352 | _ => 0

/-- Dense echo taps in use. -/
def denseTaps (m : Nat) : Nat := min (echoSpan m) 512

/-- FFE taps before and after the main tap (the receive resources by mode). -/
def ffeTaps (m : Nat) : Nat × Nat :=
  match m with
  | 1 => (4, 3) | 2 => (4, 3) | 3 => (2, 13) | 4 => (4, 19) | 5 => (4, 27) | 6 => (4, 27) | 7 => (4, 27) | 8 => (6, 33)
  | 9 => (8, 39) | _ => (0, 0)

/-- DFE taps. -/
def dfeTaps (m : Nat) : Nat := match m with | 3 => 4 | 4 => 8 | 5 => 8 | 6 => 8 | 7 => 8 | 8 => 12 | 9 => 12 | _ => 0

/-- Greatest CTLE setting, in steps of 0.5 dB. -/
def ctleTop (m : Nat) : Nat :=
  match m with
  | 4 => 18 | 5 => 24 | 6 => 24 | 7 => 30 | 8 => 36 | 9 => 36 | _ => 0

/-- Modes with sparse echo windows. -/
def hasWindows (m : Nat) : Bool := 7 ≤ m && m ≤ 9

/-- Modes with crosstalk cancellation (R96, R189). -/
def hasNext (m : Nat) : Bool := 5 ≤ m && m ≤ 9

/-- A tap as a signed 16-bit value. -/
def clampTap (v : Int) : Int := max (-32768) (min 32767 v)

/-- One update w ← w + μ·e·x with μ = 2⁻ᵏ; how a remainder rounds is open. -/
def newTap (c i k : Nat) (w g : Int) : Int :=
  clampTap (w + g / 2 ^ k + if g % 2 ^ k ≠ 0 ∧ Config.tapRound c i then 1 else 0)

/-- Update a section whose first tap has number `base`. -/
def adaptTaps (c base k : Nat) (ws gs : List Int) : List Int := ws.mapIdx fun i w => newTap c (base + i) k w (gs.getD i 0)

/-- A pinned window's start, when the mode's echo span holds it (R214). -/
def pinStart (m : Nat) (c : PortCfg) (w : Nat) : Option Nat :=
  if hasWindows m ∧ c.pins.testBit w ∧ c.pinAt.getD w 0 + 63 < echoSpan m then some (c.pinAt.getD w 0) else none

/-- The taps with which training in a mode starts: the main tap at 1.0, pinned windows at their starts; NEXT cancellers keep
theirs while the mode cancels crosstalk (R175, R186, R195). -/
def freshTaps (m : Nat) (c : PortCfg) (old : Taps) : Taps :=
  { ctle := 0
    ffe := List.replicate (ffeTaps m).1 0 ++ [16384] ++ List.replicate (ffeTaps m).2 0
    dfe := List.replicate (dfeTaps m) 0
    dense := List.replicate (denseTaps m) 0
    wins := (List.range 8).map fun w => match pinStart m c w with
      | some a => { start := some a, taps := List.replicate 64 0 }
      | none => {}
    nexts := if hasNext m then old.nexts else List.replicate 3 {} }

/-- Modes that a port is configured at, as mode bits: none before its first `PORT_MODE_SET`. -/
def modesOf (c : ModeCfg) : Nat := if !c.set then 0 else if c.neg = 1 then c.adv else 2 ^ c.mode

/-- A staged change of opcode `op` for block `b` applies at the boundary that the block reaches now; the last one counts. -/
def stagedNow (s : State) (op b : Nat) : Option Req :=
  if s.epoch.state = 3 ∧ s.epoch.failing.isNone ∧ s.epoch.waiting.contains b then
    ((s.epoch.staged.filter fun x => x.op == op && x.blocks.contains b).getLast?).map (·.req)
  else none

/-- Resolved mode as reported: 0x00 outside states 3, 4 and 5. -/
def resolvedMode (x : Port) : Nat :=
  match x.st with
  | .training | .up | .lpi => x.resMode
  | _ => 0

/-- Resolved role as reported. -/
def resolvedRole (x : Port) : Nat := if resolvedMode x = 0 then 0 else x.resRole

/-- The committed mode is multidrop (negotiation off, mode 0x02). -/
def multidrop (s : State) (p : Nat) : Bool := (s.pcfg p).mode.neg == 0 && (s.pcfg p).mode.mode == 2

/-- Every line driver is disconnected: VDD_DSP, VDD_AFE or VDD_LDRV is below 80 % of nominal (R647). -/
def driversOff (s : State) : Bool := s.elec.underMask &&& 0b1110 != 0
/-- Every host transmitter is in electrical idle: VDD_HSS or VDD_HTX is below 80 % of nominal (R647). -/
def hostTxOff (s : State) : Bool := s.elec.underMask &&& 0b110000 != 0

/-- What a line port's pins present (R101, R103, R258, R259): nothing connected; the internal 100 Ω termination; or the high
impedance of a tap on a mixing segment, which has no termination and no DC path to a rail. -/
inductive LinePins where
  | disconnected
  | terminated
  | tap
  deriving DecidableEq, Repr

/-- The pins of a port that does not itself transmit: on a segment always a tap; else terminated in states 1 to 5 and 7, but for a
near-end loopback (R626) and while the rails disconnect every driver (R647). -/
def linePins (s : State) (p : Nat) : LinePins :=
  let x := s.port p
  let live : Bool := x.st == .training || x.st == .up || x.st == .lpi
  if (if live then x.resMode == 2 else multidrop s p) then .tap
  else if x.st = .quiet ∨ x.st = .slack ∨ (x.st = .test ∧ within x.test.action 1 3) ∨ driversOff s then .disconnected
  else .terminated

/-- Link identity of a port (R220). -/
def linkIdent (p : Nat) : Nat := (Config.dieId.toNat % 2 ^ 40) * 256 + p

/-- Advertised set of a port without the modes that downshift excludes (R221). -/
def offered (s : State) (p : Nat) : Nat :=
  (s.pcfg p).mode.adv - ((s.pcfg p).mode.adv &&& (s.port p).start.excluded)

/-- Highest mode of a set of mode bits (the order of R221), 0 when empty. -/
def highest (m : Nat) : Nat := (((List.range 10).filter fun k => 0 < k && m.testBit k).getLast?).getD 0

/-- The slice whose shoal holds port `p` is gated (R351). -/
def sliceGated (s : State) (p : Nat) : Bool :=
  s.clk.gated.testBit (24 + p / 32) || s.clk.gateReq.testBit (24 + p / 32) || s.rst.gating.any fun g => g.1 == p / 32

/-- The cove PLL coasts, or LREF is lost, so start-up is suspended (R529). -/
def coveFailed (s : State) (p : Nat) : Bool := !s.clk.locked.testBit (p / 8) || s.clk.lref != 1

/-! ### Time spent in states -/

/-- Whole milliseconds since a ticker value. -/
def msSince (s : State) (t : Nat) : Nat := (s.now - t) / 4000000

/-- Calibration of a block: line port n as n, host lane m as 128 + m. -/
def State.cal (s : State) (b : Nat) : Cal := s.calib.blocks.get {} b
/-- Change the calibration of a block. -/
def State.updCal (s : State) (b : Nat) (f : Cal → Cal) : State :=
  { s with calib := { s.calib with blocks := s.calib.blocks.upd {} b f } }

/-- Headland starts its firmware once its image has been checked, the memories tested, and calibration has ended: for the
ports at a start, since lanes wait for HREF (R560, R583). -/
def tryFirmware (s : State) : State :=
  let waits := s.calib.foreground.any fun b => b < 128
  if s.rst.headland == 0 && s.rst.fwChecked && s.rst.bistDone && s.rst.calDone && !(s.rst.starting && waits) then
    { s with rst := { s.rst with headland := 1 } }
  else s

/-- An Undertow run is abandoned: counted, its unapplied steps are discarded and the applied ones stay (R592). -/
def abandonRun (s : State) (b : Nat) : State :=
  if (s.cal b).running then
    (s.updCal b fun x => { x with running := false, steps := [], last := 3, endedAt := some s.now }).bump 0x7005 b 2
  else s

/-- Item 6 is due when a port or lane first reaches Up in a mode (R581). -/
def markItem6 (s : State) (b mode : Nat) : State :=
  if (s.cal b).modesSeen.testBit mode then s
  else s.updCal b fun x => { x with modesSeen := setBit x.modesSeen mode, item6 := true }

/-- Enter a port state; leaving states 1 to 5 abandons the port's Undertow run (R592). -/
def setSt (s : State) (p : Nat) (st : PortSt) : State :=
  let s1 := if st == .quiet || st == .slack || st == .test then abandonRun s p else s
  s1.updPort p fun x => { x with st, since := s.now }

/-- Set the low-power idle directions of a live port; leaving one counts its milliseconds, and the port state follows
(log entry 10). -/
def setLpi (s : State) (p : Nat) (tx rx : Bool) : State :=
  let x := s.port p
  let s1 := if x.power.lpiTx && !tx then s.bumpBy 0x1610 p 7 (msSince s x.power.txSince) else s
  let s2 := if x.power.lpiRx && !rx then s1.bumpBy 0x1610 p 8 (msSince s x.power.rxSince) else s1
  let st : PortSt := if x.st == .up || x.st == .lpi then (if tx || rx then .lpi else .up) else x.st
  s2.updPort p fun y => { y with
    st, since := if st = x.st then y.since else s.now
    power := { y.power with lpiTx := tx, lpiRx := rx
                            txSince := if x.power.lpiTx then y.power.txSince else s.now
                            rxSince := if x.power.lpiRx then y.power.rxSince else s.now } }

/-- The MAC deasserts low-power idle; in modes 0x05 to 0x08 the transmit direction leaves it (R337, R338). -/
def macWake (s : State) (p : Nat) : State :=
  let x := s.port p
  if x.power.macLpi then
    let s1 := s.updPort p fun x => { x with power := { x.power with macLpi := false } }
    if x.resMode = 9 then s1 else setLpi s1 p false x.power.lpiRx
  else s

/-! ### Multidrop state -/

/-- Change the PLCA state; every change raises `MD_PLCA_STATE`. -/
def setPlca (s : State) (p n : Nat) : State :=
  let o := (s.port p).md.plca
  let s1 := s.updPort p fun x => { x with md := { x.md with
    plca := n, lastStrength := if o = n then x.md.lastStrength else none
    opp := if n = 1 then x.md.opp else 0xFF
    activeSince := if n = 1 ∧ o ≠ 1 then s.now else x.md.activeSince
    longest := if n = 1 ∧ o ≠ 1 then 0 else x.md.longest } }
  if o = n then s1 else raise s1 0x1402 0 (portT p) (be 1 o ++ be 1 n)

/-! ### What the cove's other ports do (R195, R206) -/

/-- Change each victim of the cove that has `p` as an aggressor of a canceller. -/
def eachVictim (s : State) (p : Nat) (f : State → Nat → Nat → State) : State :=
  eachN s ((List.range 8).map (p / 8 * 8 + ·)) fun s v =>
    eachN s (List.range 3) fun s k =>
      if v ≠ p ∧ ((s.port v).dsp.taps.nexts.getD k {}).aggr = some p then f s v k else s

/-- Change canceller `k` of a port. -/
def updNext (s : State) (v k : Nat) (f : Next → Next) : State :=
  s.updPort v fun x => { x with dsp := { x.dsp with taps := { x.dsp.taps with
    nexts := x.dsp.taps.nexts.mapIdx fun i n => if i = k then f n else n } } }

/-- Mark an anchor entry of a canceller stale. -/
def staleNext (s : State) (v k : Nat) : State :=
  s.updPort v fun x => { x with dsp := { x.dsp with
    anchor := x.dsp.anchor.map fun a => { a with staleNext := setBit a.staleNext k } } }

/-- Bundle group of port `p` as committed: the mask of its cove's ports, 0 when it is in none (R213). -/
def committedGroup (s : State) (p : Nat) : Nat :=
  (((List.range 4).map fun i => bits (s.cfg.bundles.get 0 (p / 8)) (31 - 8 * i) (24 - 8 * i)).find? (·.testBit (p % 8))).getD 0

/-- A victim takes its committed group: the canceller of an aggressor that has left it is cleared and released (R195, R196). -/
def applyGroup (s : State) (p : Nat) : State :=
  let g := committedGroup s p
  let s1 := s.updPort p fun x => { x with dsp := { x.dsp with
    group := g, replacing := x.dsp.replacing.filter fun r => g.testBit (r.2.1 % 8) } }
  eachN s1 (List.range 3) fun s k => match ((s.port p).dsp.taps.nexts.getD k {}).aggr with
    | some a => if g.testBit (a % 8) then s
      else raise (staleNext (updNext s p k fun _ => {}) p k) 0x1203 0 (portT p) (be 1 k ++ be 1 a ++ be 1 0xFF)
    | none => s

/-- The driver of `p` has fallen silent: its cancellers freeze, each counted once (R29, R195), and their anchor
entries are stale while the port is not eligible (R206). -/
def aggressorSilent (s : State) (p : Nat) : State :=
  eachVictim s p fun s v k =>
    if ((s.port v).dsp.taps.nexts.getD k {}).st = 2 then s
    else staleNext ((updNext s v k fun n => { n with st := 2 }).bump 0x1210 v 7) v k

/-- `p` has another mode than before: cancellers of it in victims of the old mode are cleared and released (R195). -/
def aggressorGone (s : State) (p : Nat) : State :=
  eachVictim s p fun s v k =>
    raise (staleNext (updNext s v k fun _ => {}) v k) 0x1203 0 (portT v) (be 1 k ++ be 1 p ++ be 1 0xFF)

/-- `p` transmits again in the same mode: its frozen cancellers adapt from the frozen values (R195). -/
def aggressorBack (s : State) (p : Nat) : State :=
  eachVictim s p fun s v k => updNext s v k fun n => { n with st := if n.st = 2 then 1 else n.st }

/-- `p` begins to train, after a link in mode `old`: it transmits again in the same mode, or it has another mode (R29, R195). -/
def trainingSends (s : State) (p old : Nat) : State :=
  if (s.port p).resMode = old then aggressorBack s p else aggressorGone s p

/-! ### Slack outcomes (R340 to R344, R362) -/

/-- A port has given its outcome to every open `PORT_SLACK` (R362). -/
def slackJobDone (s : State) (p : Nat) : State :=
  let jobs := s.power.slackJobs.map fun j => { j with left := j.left.erase p }
  let s1 := { s with power := { s.power with slackJobs := jobs.filter fun j => !j.left.isEmpty } }
  (jobs.filter fun j => j.left.isEmpty).foldl (fun s j => closeWaiter s j.waiter 0 .ok) s1

/-- `SLACK_REFUSED`. -/
def slackRefused (s : State) (p cause : Nat) : State :=
  let n := (s.port p).power.sent
  let s1 := s.updPort p fun x => { x with power := { x.power with handshake := 0, sent := 0, lastRefusal := cause } }
  let s2 := raise (s1.bump 0x1610 p 2) 0x1602 1 (portT p) (be 1 cause ++ be 1 n)
  let was := (s.port p).power.handshake != 0 && s2.power.transition == 2
  slackJobDone { s2 with power := { s2.power with refused := s2.power.refused || was } } p

/-! ### Runs and tests that a port state change ends -/

/-- A Sounding run ends without a new result (R315). -/
def endSound (s : State) (p status : Nat) : State :=
  match (s.port p).health.run with
  | none => s
  | some r =>
    let s1 := (s.updPort p fun x => { x with health := { x.health with run := none, runStatus := status } }).bump 0x1503 p 24
    let s2 := raiseReady s1 0x1504 0 (portT p) 0 0 (be 1 status ++ be 1 0 ++ be 4 (s.port p).health.runs)
    match r.waiter with
    | some w => closeWaiter s2 w (portT p) (if status = 3 then .busy else .ok)
    | none => s2

/-- A cable test ends early: status 1 hold, 2 reset; the previous result stays (R326, R334). -/
def abortCable (s : State) (p status : Nat) : State :=
  match (s.port p).health.cable with
  | none => s
  | some c =>
    let s1 := (s.updPort p fun x => { x with health := { x.health with cable := none, cableStatus := status } }).bump 0x1503 p 26
    let s2 := raise s1 0x1506 0 (portT p) (be 1 status ++ be 1 0 ++ be 2 0xFFFF ++ be 4 (s.port p).health.cables)
    closeWaiter s2 c.waiter (portT p) .ok

/-- A happening gives a running self-test its status; the first one stands (R617). -/
def markTest (s : State) (t status : Nat) : State :=
  { s with stest := { s.stest with running := s.stest.running.upd none t (fun o =>
    o.map fun j => { j with ended := some (j.ended.getD status) }) } }

/-- Take a block out of every open `CAL_RUN`, with a status that stands when it is not OK (R584, R603). -/
def calJobDone (s : State) (b : Nat) (st : Status) : State :=
  let jobs := s.calib.jobs.map fun j =>
    if j.left.contains b then
      { j with left := j.left.erase b, status := if st = .ok then j.status else st.code }
    else j
  let s1 := { s with calib := { s.calib with jobs := jobs.filter fun j => !j.left.isEmpty } }
  (jobs.filter fun j => j.left.isEmpty).foldl
    (fun s j => raiseReady s 0x0001 0 0 j.waiter.op j.waiter.tag (be 2 j.status)) s1

/-! ### Preemption (R469) -/

/-- Write the preemption state of a port. -/
def setPreempt (s : State) (p : Nat) (r : PreemptRun) : State :=
  { s with strm := { s.strm with preempt := s.strm.preempt.set {} p r } }

/-- At link-up, verification runs unless it is disabled; preemption is active at once only when it is. -/
def preemptUp (s : State) (p : Nat) : State :=
  let c := s.cfg.streams.preempt.get {} p
  let on := c.on && 4 ≤ (s.port p).resMode
  setPreempt s p { verify := if on && !c.noVerify then 1 else 0, active := on && c.noVerify }

/-- Preemption ends with the link. -/
def preemptDown (s : State) (p : Nat) : State :=
  setPreempt s p {}

/-! ### Leaving Up or LPI -/

/-- Both OAM queues are emptied, each user message reported with status 1; received messages stay (R160). The receiver goes back to
Search with the rest of the record; VS50_LOCK_LOSS counts only the four invalid headers of the lock table, not this (DESIGN
CHOICE, log entry 130). -/
def emptyOam (s : State) (p : Nat) : State :=
  let v := (s.port p).vs
  let s1 := ((v.oamCur.toList ++ v.oamQueue).filterMap (·.handle)).foldl
    (fun s h => raise s 0x1102 0 (portT p) (be 1 h ++ be 1 1)) s
  s1.updPort p fun x => { x with vs := { oamRxQueue := x.vs.oamRxQueue, amp := x.vs.amp,
                                         pre := x.vs.pre, post := x.vs.post } }

/-- A reversion that commands wait for does not take place: they are answered NOT_PERMITTED (DESIGN CHOICE, log entry 50). -/
def noReversion (s : State) (p : Nat) : State :=
  (s.port p).dsp.revertBy.foldl (fun s r => reply s 0x1207 r .notPermitted []) s

/-- Adaptation after a link-down: the anchor is discarded, what was pending is abandoned (R207, R209, R210). -/
def dspOff (d : Dsp) : Dsp :=
  { d with st := 0, anchor := none, revert := none, moving := none, replacing := none, suppressed := 0,
           repPre := none, repPost := none, hist := [], recent := [], ctleUp := 0, ctleDown := 0, worst := none,
           worstBlock := 0, suspend := 0, scoutWins := 0, revertBy := [] }

/-- Health after a link-down (R297, R298, R306, R319). -/
def healthDown (h : Health) : Health :=
  { h with margin := none, worst := none, snr := none, alarm := false, dropSince := none, fecSince := none,
           absent := false, uncAt := none, diffs := [], fecDown := h.fecDown || h.fecAlarm }

/-- What a port has in Training, or at Up, ends: adaptation, VS50 receiver, OAM, multidrop, health, Sounding. A restarting change
that has been applied and waits for the MAC's frame counts now (R119 index 17). -/
def dropLinkState (s : State) (p : Nat) : State :=
  let s0 := if (s.port p).restart = some true then s.bump 0x1010 p 17 else s
  let s1 := emptyOam (endSound (aggressorSilent (noReversion s0 p) p) p 2) p
  let s2 := if (s.port p).md.plca = 0 then s1 else setPlca s1 p 0
  s2.updPort p fun x => { x with
    dsp := dspOff x.dsp, health := healthDown x.health, restart := none
    md := { x.md with rx := 0, open_ := false, used := false, retry := false, backoff := false, attempts := 0 }
    start := { x.start with phase := 0, blk := none, reqOut := none, rxReady := false, relink := false }
    power := { x.power with macLpi := false } }

/-- A cable test that has waited for the MAC's frame begins: a port that is down enters Test (R320). -/
def cableEnter (s : State) (p : Nat) : State :=
  match (s.port p).health.cable with
  | some c => if c.stage = 9 then
      setSt (s.updPort p fun x => { x with
        breaking := false, silence := false, test := { action := 7 }
        health := { x.health with cable := some { c with stage := 0 } } }) p .test
    else s
  | none => s

/-- A port leaves Up or LPI: one count and one `LINK_DOWN`, the MAC's frame is lost, an own Slack request is abandoned
with the cause given, and all the link's state ends (R102, R106, R124, R344). -/
def linkDown (s : State) (p reason slackCause : Nat) : State :=
  if portLive s p then
    let x := s.port p
    let s1 := (setLpi s p false false).bump 0x1010 p 15
    let s2 := raise (s1.bumpBy 0x1010 p 16 (msSince s x.liveSince)) 0x1002 1 (portT p) (be 1 reason ++ be 1 x.st.code)
    let s3 := preemptDown (dropLinkState (dropMac s2 p) p) p
    let s4 := setSt (s3.updPort p fun x => { x with rxCut := true }) p .down
    let s5 := if x.power.handshake = 1 ∧ slackCause ≠ 0 then slackRefused s4 p slackCause
      else s4
    let s6 := s5.updPort p fun x => { x with power := { x.power with handshake := 0, sent := 0, refuse := none } }
    if [1, 2, 3, 8, 9].contains reason then cableEnter s6 p else s6
  else s

/-- A port may enter Test: from state 1 or 4, or from 2, 3 or 5 by way of them; a quiet port and one in Slack may not (R105,
R320, log entry 35). -/
def testAllowed (s : State) (p : Nat) : Bool :=
  !held s p && [PortSt.down, .negotiating, .training, .up, .lpi].contains (s.port p).st

/-- A port on its way into Test is in state 1 or 4: one in state 2 or 3 abandons its start-up to state 1, one in state 5 wakes to
state 4 (R105, R320). -/
def towardTest (s : State) (p : Nat) : State :=
  match (s.port p).st with
  | .lpi => setLpi s p false false
  | .negotiating | .training => setSt (dropLinkState s p) p .down
  | _ => s

/-- A port enters Test from state 1 or 4, with link-down reason 7 (R105, R584, R614). Action coding as `PortTest`. -/
def enterTest (s : State) (p action : Nat) : State :=
  let s0 := towardTest s p
  let s1 := if portLive s0 p then linkDown s0 p 7 4 else dropLinkState s0 p
  setSt (s1.updPort p fun x => { x with breaking := false, silence := false, test := { action } }) p .test

/-- Leave Slack: its milliseconds are counted. -/
def leaveSlack (s : State) (p : Nat) : State :=
  if (s.port p).st = .slack then
    (s.bumpBy 0x1610 p 9 (msSince s (s.port p).power.since)).updPort p fun x => { x with
      power := { x.power with cause := 0, held := none, waking := 0 } }
  else s

/-- What a far-end loopback has kept of its link ends with it (R626, R629). -/
def farEnds (s : State) (p : Nat) : State := if (s.port p).test.action = 4 then dropLinkState s p else s

/-- The port's test ends by a hold (3) or a reset (4): self-test, cable test, loopback, calibration (R326, R584, R617). -/
def endPortTest (s : State) (p status : Nat) : State :=
  if (s.port p).st = .test then
    let s1 := abortCable (markTest (markTest s (portT p) status) (coveT (p / 8)) status) p (status - 2)
    let s2 := if (s.port p).test.action = 8 then calJobDone s1 p .notPermitted else s1
    (farEnds s2 p).updPort p fun x => { x with test := {} }
  else s

/-- A hold of R101 reaches port `p`: it goes Quiet from any state (R101, R102, R617). -/
def quietPort (s : State) (p reason : Nat) : State :=
  match (s.port p).st with
  | .quiet => s
  | .up | .lpi => setSt (abortCable (linkDown s p reason 3) p (if reason = 6 then 2 else 1)) p .quiet
  | .slack => setSt (leaveSlack s p) p .quiet
  | .test => setSt (aggressorSilent (endPortTest s p (if reason = 6 then 4 else 3)) p) p .quiet
  | _ =>
    let s1 := dropLinkState s p
    setSt (s1.updPort p fun x => { x with breaking := false, silence := false }) p .quiet

/-- The last hold has been released: the port leaves Quiet for state 1 when a mode is committed (R101, R104). -/
def leaveQuiet (s : State) (p : Nat) : State :=
  if (s.port p).st = .quiet ∧ !held s p ∧ (s.pcfg p).mode.set then
    setSt (s.updPort p fun x => { x with breaking := false, silence := false }) p .down
  else s

/-! ### Restart and start-up -/

/-- The driver goes silent for the break interval (R110 steps 2 and 3). -/
def breakLink (s : State) (p : Nat) (counts : Bool) : State :=
  let s1 := linkDown (s.updPort p fun x => { x with restart := some counts }) p 3 4
  s1.updPort p fun x => { x with breaking := true }

/-- A port restarts its link from Up or LPI: the MAC completes a frame whose first symbol is out, and the rest follows
then (R110). -/
def restartLink (s : State) (p : Nat) (counts : Bool) : State :=
  if ((s.egr p).mac.map (·.started)).getD false then s.updPort p fun x => { x with restart := some counts }
  else breakLink s p counts

/-- The EEE modes (R96, R336), as mode bits. -/
def eeeModes : Nat := 2 ^ 5 + 2 ^ 6 + 2 ^ 7 + 2 ^ 8

/-- The base page of a port (R218, R219, R223): the standard modes it offers; their EEE when `START_CONFIG` advertises it; the
next-page bit with VS50; and the role, forced or, as a multiport device, a preference for master. -/
def basePage (s : State) (p : Nat) (c : StartCfg) : BasePage :=
  let o := offered s p
  let role := (s.pcfg p).mode.role
  { tech := BitVec.ofNat 16 (o &&& 0x1FA), eee := BitVec.ofNat 16 (if c.flags.testBit 0 then o &&& eeeModes else 0)
    np := o.testBit 9, forced := role != 0, master := role != 2 }

/-- Start-up begins, by negotiation, training or listening (R108, R218, R252, R277). -/
def beginStart (s : State) (p : Nat) : State :=
  let c := s.pcfg p
  let m := c.mode
  let mode := if m.neg = 1 then 0 else m.mode
  let s1 := (leaveSlack s p).bump 0x1303 p 0
  let s2 := s1.updPort p fun x => { x with
    breaking := false, silence := false
    resMode := if m.neg = 1 then x.resMode else mode
    resRole := if m.neg = 1 then x.resRole else m.role
    start := { x.start with
      use := c.start, beganAt := s.now, phase := if m.neg = 0 ∧ mode = 9 then 1 else 0, decision := 0
      fails := if m.neg = 0 ∧ x.resMode ≠ mode then 0 else x.start.fails
      partnerAdv := 0, partnerFlags := 0, partnerId := 0, partnerTag := 0, blk := none, rxReady := false, clean := 0
      good := 0, left := if m.neg = 0 ∧ mode = 9 ∧ m.role = 1 then 7680 else 0, reqOut := none, presetAsked := false
      ackDue := false, relink := false, dataSent := false, dataSeen := false, patErrs := 0, reqAt := none
      base := if m.neg = 1 then some (basePage s p c.start) else none, pages := [], partnerEee := 0
      heldTag := if m.neg = 0 ∧ c.start.flags.testBit 1 then ((s.relinks.get none p).map (·.tag)).getD 0 else 0 }
    vs := { x.vs with amp := c.vs.amp, pre := 1, post := 4 }
    dsp := if m.neg = 1 then { x.dsp with st := 0 } else
      { x.dsp with st := 1, taps := freshTaps mode c x.dsp.taps, scout := [], residual := none, uncovered := false, timing := {} } }
  let s3 := slackJobDone (setSt s2 p (if m.neg = 1 then .negotiating else .training)) p
  let s4 := if m.neg = 1 then s3 else trainingSends s3 p (s.port p).resMode
  if multidrop s p then
    setPlca (s4.updPort p fun x => { x with md := { x.md with
      rx := 0, beaconAt := none, node := c.md.node, count := c.md.count, toTimer := c.md.toTimer } }) p 2
  else s4

/-- A port whose start-up is due begins it; while its cove's clock has failed it waits in state 1, a port that leaves
Slack too (R108, R529, log entry 31). -/
def startNow (s : State) (p : Nat) : State :=
  if coveFailed s p then (if (s.port p).st = .slack then setSt (leaveSlack s p) p .down else s) else beginStart s p

/-- A restart from state 1, 2 or 3: start-up is abandoned and begins again (R111, R253). -/
def abandon (s : State) (p : Nat) : State :=
  setSt ((dropLinkState s p).updPort p fun x => { x with breaking := false, silence := false }) p .down

/-- The relink record that a link-up leaves (R244, R245). -/
def writeRelink (s : State) (p : Nat) : State :=
  let x := s.port p
  if x.resMode ≠ 9 then s
  else
    let old := s.relinks.get none p
    let tag := if x.resRole = 1 then x.start.newTag else (x.start.blk.map (·.tag)).getD x.start.newTag
    let r : Relink := match x.start.decision, old with
      | 1, some o => { o with pre := x.vs.pre, post := x.vs.post, taps := x.dsp.taps, margin := x.health.margin,
                              time := s.now, updates := (o.updates + 1) % 2 ^ 32 }
      | _, _ => { ident := x.start.partnerId, role := x.resRole, tag, pre := x.vs.pre, post := x.vs.post,
                  taps := x.dsp.taps, margin := x.health.margin, time := s.now, updates := 0 }
    { s with relinks := s.relinks.set none p (some r) }

/-- The link is established (R108, R119, R158, R179, R240, R244). Windows that no pin holds are unused when automatic placement is
off (R186). The first TX_ADJUST may leave 100 ms after this, at that moment at the earliest: R210 can also be read as one more wait
from then on (DESIGN CHOICE, log entry 134). An OAM word under way is cut to zeros here, and the words before were NULL words
(log entry 128). -/
def goUp (s : State) (p : Nat) : State :=
  let x := s.port p
  let kind := if x.resMode = 9 ∧ x.start.decision = 1 then 1 else 0
  let s1 := (writeRelink s p).bump 0x1010 p 14
  let s2 := if kind = 1 then s1.bump 0x1303 p 8 else s1
  let lpiBoth := x.start.partnerFlags.testBit 0 && x.start.use.flags.testBit 0
  let s3 := s2.updPort p fun y => { y with
    liveSince := s.now, rxCut := false
    start := { y.start with fails := 0, phase := 0, lastTime := sat 32 ((s.now - y.start.beganAt) / 4000) }
    dsp := { y.dsp with
      st := 2, trackSince := s.now, adjustFrom := s.now + 400000000, suppressed := 0, hist := []
      taps := if (s.pcfg p).dsp.flags.testBit 1 then y.dsp.taps else { y.dsp.taps with
        wins := y.dsp.taps.wins.mapIdx fun w x => if (s.pcfg p).pins.testBit w then x else {} } }
    health := { healthDown y.health with winFec := y.health.winFec || (4 ≤ x.resMode && x.resMode ≤ 8) }
    vs := { y.vs with lpiNeg := lpiBoth, txTgl := false, rxTgl := false, oamCur := none, oamTx := none,
                      partnerMargin := none, txLpi := 0, rxLpi := 0, missed := 0 } }
  let s4 := preemptUp (aggressorBack (setSt (applyGroup s3 p) p .up) p) p
  raise (markItem6 s4 p x.resMode) 0x1001 0 (portT p) (be 1 x.resMode ++ be 1 (if x.resMode ≤ 2 then 0 else x.resRole) ++ be 1 kind)

/-! ### Slack entry and wake -/

/-- A port enters Slack (R340, R341). -/
def enterSlack (s : State) (p cause : Nat) : State :=
  let s1 := if portLive s p then abortCable (linkDown s p 10 0) p 1 else dropLinkState s p
  let s2 := s1.updPort p fun x => { x with
    breaking := false, silence := false
    power := { x.power with cause, handshake := 0, sent := 0, refuse := none, since := s.now, waking := 0, held := none } }
  let s3 := raise ((setSt s2 p .slack).bump 0x1610 p 0) 0x1601 0 (portT p) (be 1 cause)
  slackJobDone s3 p

/-- The steps of R349 begin. -/
def wakeSteps (s : State) (p source : Nat) : State :=
  if multidrop s p then startNow s p
  else s.updPort p fun x => { x with power := { x.power with held := none, waking := if source = 1 then 2 else 1 } }

/-- A wake of a port in Slack: counted and reported, and held while the port's slice is gated (R347, R349, R351). -/
def wakePort (s : State) (p source : Nat) : State :=
  if (s.port p).st = .slack ∧ (s.port p).power.waking = 0 ∧ (s.port p).power.held = none then
    let s1 := s.bump 0x1610 p (if source = 1 then 4 else 5)
    let s2 := raise (s1.updPort p fun x => { x with power := { x.power with lastWake := source } }) 0x1603 0 (portT p)
      (be 1 source)
    if sliceGated s p then s2.updPort p fun x => { x with power := { x.power with held := some source } }
    else wakeSteps s2 p source
  else s

/-! ### Start-up failures (R238 to R242) -/

/-- Index of the start-up counter of a failure reason; reason 6 has none. -/
def failCounter (reason : Nat) : Option Nat :=
  match reason with
  | 1 => some 2 | 4 => some 2 | 7 => some 2 | 2 => some 3 | 3 => some 4 | 5 => some 5 | _ => none

/-- The downshift of R241, after a failure that has been counted. -/
def downshift (s : State) (p reason : Nat) : State :=
  let x := s.port p
  if x.start.use.flags.testBit 2 ∧ (s.pcfg p).mode.neg = 1 ∧ x.start.use.downshift ≤ x.start.fails then
    let lower := (offered s p &&& x.start.partnerAdv) % 2 ^ x.resMode
    if highest lower = 0 then
      if x.start.floorRaised then s
      else raise (s.updPort p fun y => { y with start := { y.start with floorRaised := true } }) 0x1302 1 (portT p)
        (be 1 0 ++ be 1 reason ++ be 1 x.resMode)
    else
      let s1 := (s.updPort p fun y => { y with start := { y.start with
        excluded := setBit y.start.excluded x.resMode, fails := 0 } }).bump 0x1303 p 6
      raise s1 0x1302 1 (portT p) (be 1 x.resMode ++ be 1 reason ++ be 1 (highest lower))
  else s

/-- A start-up failure: the driver is silent for 4 ms and the port returns to state 1 (R238). -/
def startFail (s : State) (p reason : Nat) : State :=
  let x := s.port p
  if x.st = .negotiating ∨ x.st = .training then
    let counted := reason ≤ 4 ∨ reason = 7
    let fails := if counted then x.start.fails + 1 else x.start.fails
    let phase := if x.st = .negotiating then 0xFE else x.start.phase
    let s1 := s.bump 0x1303 p 1
    let s2 := match failCounter reason with
      | some i => s1.bump 0x1303 p i
      | none => s1
    let s3 := raise s2 0x1301 1 (portT p)
      (be 1 reason ++ be 1 phase ++ be 1 (resolvedMode x) ++ be 1 (sat 8 fails))
    let s4 := s3.updPort p fun y => { y with start := { y.start with lastFail := reason, fails } }
    let s5 := if counted then downshift s4 p reason else s4
    setSt ((dropLinkState s5 p).updPort p fun y => { y with silence := true }) p .down
  else s

end Sys2Proof.Machine
end

