-- ==== Sys2Proof/Machine/Vs50Code.lean ====
section
/-! DEFINITION. The VS50 coding chain (R132 to R152): scrambler, RS(544,514), interleave, Gray mapping, precoder, the
PHY frame header and the OAM word. The field GF(2¹⁰), its primitive polynomial and the generator polynomial are those
of IEEE 802.3 Clause 91, which R148 cites and does not restate (PRESUMED, log entry 9). -/

namespace Sys2Proof.Machine

/-! ### Header (R139 to R141) -/

/-- A VS50 header as its fields. -/
structure Vs50Hdr where
  type : Nat
  fcnt : Nat
  lr : Bool
  bf : Bool
  rf : Bool
  ld : Bool
  phase : Nat
  /-- The two OAM bytes of header bits 32 to 47. -/
  oam : Nat
  deriving DecidableEq, Repr

/-- CRC-8 of R140 over bytes, most significant bit first: polynomial 0x07, initial value 0. -/
def crc8h (bs : List Byte) : Nat := bs.foldl (crcByteM 8 0x07) 0

/-- Header bits 16 to 47 as one 32-bit number, the first sent bit most significant. -/
def Vs50Hdr.mid (h : Vs50Hdr) : Nat :=
  h.type * 2 ^ 30 + h.fcnt * 2 ^ 22 + b2n h.lr * 2 ^ 21 + b2n h.bf * 2 ^ 20 + b2n h.rf * 2 ^ 19 +
    b2n h.ld * 2 ^ 18 + h.phase * 2 ^ 16 + h.oam

/-- The 64 header bits as a number, header bit 0 most significant. -/
def Vs50Hdr.word (h : Vs50Hdr) : BitVec 64 :=
  BitVec.ofNat 64 (0xF9A8 * 2 ^ 48 + h.mid * 2 ^ 16 + crc8h (be 4 h.mid) * 2 ^ 8 + 0x55)

/-- Number of one bits among the low `n` bits. -/
def popcount : Nat → Nat → Nat
  | 0, _ => 0
  | n + 1, v => v % 2 + popcount n (v / 2)

/-- A header as received: its fields when it is valid (R141). -/
def parseHdr (w : BitVec 64) : Option Vs50Hdr :=
  let v := w.toNat
  let m := bits v 47 16
  if popcount 16 (bits v 63 48 ^^^ 0xF9A8) ≤ 2 ∧ bits v 15 8 = crc8h (be 4 m) ∧ bits m 31 30 ≠ 3 then
    some { type := bits m 31 30, fcnt := bits m 29 22, lr := m.testBit 21, bf := m.testBit 20, rf := m.testBit 19,
           ld := m.testBit 18, phase := bits m 17 16, oam := bits m 15 0 }
  else none

/-! ### Scrambler (R134, R135) -/

/-- The reseeded scrambler state: all 58 bits at 1; bit i holds s(n − 1 − i). -/
def scrSeed : Nat := 2 ^ 58 - 1
/-- s(n) from the state before it. -/
def scrBit (st : Nat) : Bool := st.testBit 38 != st.testBit 57
/-- The state after one position. -/
def scrNext (st : Nat) : Nat := (st * 2 + b2n (scrBit st)) % 2 ^ 58

/-- The state `n` positions on. -/
def scrRun : Nat → Nat → Nat
  | 0, st => st
  | n + 1, st => scrRun n (scrNext st)

/-- Scramble (or descramble) bits: the result and the state after it. -/
def scramble (st : Nat) (bs : List Bool) : List Bool × Nat :=
  let r := bs.foldl (fun (a : List Bool × Nat) b => ((b != scrBit a.2) :: a.1, scrNext a.2)) ([], st)
  (r.1.reverse, r.2)

/-! ### GF(2¹⁰) and RS(544,514) (R148) -/

/-- Multiplication by x modulo x¹⁰ + x³ + 1. -/
def gfX (a : Nat) : Nat := if a < 512 then a * 2 else (a * 2) ^^^ 0x409

/-- Product by the bits of the first factor. -/
def gfMulN : Nat → Nat → Nat → Nat
  | 0, _, _ => 0
  | n + 1, a, b => (if a % 2 = 1 then b else 0) ^^^ gfMulN n (a / 2) (gfX b)

/-- Product in GF(2¹⁰). -/
def gfMul (a b : Nat) : Nat := gfMulN 10 a b

/-- `a` to the power `n`, by bits of `n` (`k` of them). -/
def gfPow : Nat → Nat → Nat → Nat
  | 0, _, _ => 1
  | k + 1, a, n => let r := gfPow k (gfMul a a) (n / 2); if n % 2 = 1 then gfMul a r else r

/-- The inverse of a nonzero element. -/
def gfInv (a : Nat) : Nat := gfPow 10 a 1022

/-- α to the power `n`. -/
def alpha (n : Nat) : Nat := gfPow 10 2 (n % 1023)

/-- Product of a polynomial (lowest coefficient first) and x + r. -/
def polyMulRoot (p : List Nat) (r : Nat) : List Nat :=
  List.zipWith (· ^^^ ·) (0 :: p) (p.map (gfMul r) ++ [0])

/-- The generator polynomial, lowest coefficient first: roots α⁰ to α²⁹. -/
def rsGen : List Nat := (List.range 30).foldl (fun p j => polyMulRoot p (alpha j)) [1]

/-- One symbol through the systematic encoder; the register holds the remainder, highest coefficient first. -/
def rsStep (g : List Nat) (reg : List Nat) (m : Nat) : List Nat :=
  let f := (reg.headD 0) ^^^ m
  List.zipWith (fun x c => x ^^^ gfMul f c) (reg.tail ++ [0]) g

/-- The 30 parity symbols of a message of 514 symbols. -/
def rsParity (msg : List Nat) : List Nat :=
  let g := (rsGen.take 30).reverse
  msg.foldl (rsStep g) (List.replicate 30 0)

/-- Value of a polynomial, highest coefficient first. -/
def polyEval (x : Nat) (cs : List Nat) : Nat := cs.foldl (fun a c => gfMul a x ^^^ c) 0

/-- The 30 syndromes of a received codeword. -/
def rsSyndromes (cw : List Nat) : List Nat := (List.range 30).map fun j => polyEval (alpha j) cw

/-- State of the Berlekamp and Massey iteration: locator, previous locator, length, shift, previous discrepancy. -/
structure Massey where
  c : List Nat
  b : List Nat
  l : Nat
  m : Nat
  d : Nat

/-- Sum of two polynomials, lowest coefficient first. -/
def polyAdd (p q : List Nat) : List Nat :=
  (List.range (max p.length q.length)).map fun i => p.getD i 0 ^^^ q.getD i 0

/-- One iteration at syndrome number `n`. -/
def masseyStep (syn : List Nat) (t : Massey) (n : Nat) : Massey :=
  let d := (List.range (t.l + 1)).foldl (fun a i => a ^^^ gfMul (t.c.getD i 0) (syn.getD (n - i) 0)) 0
  if d = 0 then { t with m := t.m + 1 }
  else
    let c' := polyAdd t.c (List.replicate t.m 0 ++ t.b.map (gfMul (gfMul d (gfInv t.d))))
    if 2 * t.l ≤ n then { c := c', b := t.c, l := n + 1 - t.l, m := 1, d }
    else { t with c := c', m := t.m + 1 }

/-- The error locator of the syndromes and its length. -/
def locator (syn : List Nat) : List Nat × Nat :=
  let t := (List.range 30).foldl (masseyStep syn) { c := [1], b := [1], l := 0, m := 1, d := 1 }
  (t.c, t.l)

/-- Magnitude of the error at the position whose locator is `x`, by Forney's formula. -/
def errorAt (syn c : List Nat) (x : Nat) : Nat :=
  let xi := gfInv x
  let omega := (List.range 30).map fun k =>
    (List.range (k + 1)).foldl (fun a i => a ^^^ gfMul (c.getD i 0) (syn.getD (k - i) 0)) 0
  let deriv := (List.range c.length).map fun i => if i % 2 = 0 then c.getD (i + 1) 0 else 0
  gfMul x (gfMul (polyEval xi omega.reverse) (gfInv (polyEval xi deriv.reverse)))

/-- Decode a received codeword: the corrected codeword and the number of symbols corrected, or none when it is
uncorrectable (t = 15). -/
def rsDecode (cw : List Nat) : Option (List Nat × Nat) :=
  let syn := rsSyndromes cw
  if syn.all (· == 0) then some (cw, 0)
  else
    let (c, l) := locator syn
    let pos := (List.range 544).filter fun i => polyEval (gfInv (alpha (543 - i))) c.reverse == 0
    if 15 < l ∨ pos.length ≠ l then none
    else some (cw.mapIdx fun i v => if pos.contains i then v ^^^ errorAt syn c (alpha (543 - i)) else v, l)

/-! ### Interleave, Gray mapping and precoder (R136, R137, R149, R150) -/

/-- The number spelled by bits, the first most significant. -/
def ofBits (bs : List Bool) : Nat := bs.foldl (fun a b => 2 * a + b2n b) 0

/-- The low `n` bits of `v`, most significant first. -/
def toBits (n v : Nat) : List Bool := (List.range n).map fun i => v.testBit (n - 1 - i)

/-- The message symbols of a bit stream: `n` symbols of ten bits. -/
def msgSymbols : Nat → List Bool → List Nat
  | 0, _ => []
  | n + 1, bs => ofBits (bs.take 10) :: msgSymbols n (bs.drop 10)

/-- Every second item, from the first. -/
def evens : List Nat → List Nat
  | [] => []
  | [a] => [a]
  | a :: _ :: l => a :: evens l

/-- Two lists taken in turn. -/
def weave : List Nat → List Nat → List Nat
  | a :: as, b :: bs => a :: b :: weave as bs
  | _, _ => []

/-- The 1,088 RS symbols of the codeword region from the 1,028 message symbols. -/
def regionSymbols (msg : List Nat) : List Nat := msg ++ weave (rsParity (evens msg)) (rsParity (evens (msg.drop 1)))

/-- Gray value of a bit pair (R136). -/
def gray (a b : Bool) : Nat := if a then (if b then 2 else 3) else (if b then 1 else 0)

/-- The bit pair of a Gray value. -/
def ungray (g : Nat) : List Bool :=
  if g = 0 then [false, false] else if g = 1 then [false, true] else if g = 2 then [true, true] else [true, false]

/-- The five Gray values of an RS symbol. -/
def symGray (v : Nat) : List Nat :=
  (List.range 5).map fun s => gray (v.testBit (9 - 2 * s)) (v.testBit (8 - 2 * s))

/-- Precode from y(−1) = 0 (R137). -/
def precode : Nat → List Nat → List Nat
  | _, [] => []
  | y, g :: gs => let y' := (g + 4 - y) % 4; y' :: precode y' gs

/-- Undo the precoder. -/
def deprecode : Nat → List Nat → List Nat
  | _, [] => []
  | y, k :: ks => (k + y) % 4 :: deprecode k ks

/-- The 5,440 transmitted symbols of a codeword region, as y values, from its scrambled block bits. -/
def encodeRegion (bs : List Bool) : List Nat :=
  precode 0 ((regionSymbols (msgSymbols 1028 bs)).flatMap symGray)

/-- What decoding a codeword region gives. -/
structure RegionRx where
  /-- The scrambled block bits; none when either codeword is uncorrectable (R152). -/
  bits : Option (List Bool)
  /-- Symbols corrected in codeword A and B; none for an uncorrectable one. -/
  symA : Option Nat
  symB : Option Nat
  /-- Bits corrected in the corrected codewords. -/
  bitsFixed : Nat

/-- Group a list into lists of five. -/
def fives : Nat → List Nat → List (List Nat)
  | 0, _ => []
  | n + 1, l => l.take 5 :: fives n (l.drop 5)

/-- Decode the 5,440 received symbols of a codeword region. -/
def decodeRegion (ys : List Nat) : RegionRx :=
  let syms := (fives 1088 (deprecode 0 ys)).map fun gs => ofBits (gs.flatMap ungray)
  let par := syms.drop 1028
  let cwA := evens (syms.take 1028) ++ evens par
  let cwB := evens ((syms.take 1028).drop 1) ++ evens (par.drop 1)
  let a := rsDecode cwA
  let b := rsDecode cwB
  let diff := fun (x : List Nat) (y : Option (List Nat × Nat)) => match y with
    | some (z, _) => (List.zipWith (fun u v => popcount 10 (u ^^^ v)) x z).sum
    | none => 0
  { bits := match a, b with
      | some (x, _), some (y, _) => some ((weave (x.take 514) (y.take 514)).flatMap (toBits 10))
      | _, _ => none
    symA := a.map (·.2), symB := b.map (·.2), bitsFixed := diff cwA a + diff cwB b }

end Sys2Proof.Machine
end

