-- ==== Sys2Proof/Machine/Patterns.lean ====
section
/-! DEFINITION. The symbols of a host lane or a line port under test: PAM4 coding and precoding (R367), the pattern generators and
checkers (R403, R630, R631), the elastic buffer of a far-end loopback (R402, R628), and the payload of loopback test frames (R627).
The patterns are those of IEEE 802.3, which the rules cite and do not restate: the PRBS polynomials and the Gray mapping are
PRESUMED, the sequence of SSPRQ is a free value (log entry 142). -/

namespace Sys2Proof.Machine

/-! ### Patterns (R403) -/

/-- Bits of a pattern's shift register: PRBS13Q, PRBS31Q. -/
def prbsWidth (pat : Nat) : Nat := if pat = 1 then 13 else 31

/-- The next bit of the sequence whose last bits are the register's, newest first: 1 + x + x² + x¹² + x¹³, or 1 + x²⁸ + x³¹. -/
def prbsNext (pat st : Nat) : Bool :=
  if pat = 1 then (st.testBit 12 ^^ st.testBit 11) ^^ (st.testBit 1 ^^ st.testBit 0) else st.testBit 30 ^^ st.testBit 27

/-- Shift a bit of the sequence into the register. -/
def prbsShift (pat st : Nat) (b : Bool) : Nat := (2 * st + b2n b) % 2 ^ prbsWidth pat

/-- PRBS31 leaves inverted. -/
def prbsOut (pat : Nat) (b : Bool) : Bool := b != (pat == 2)

/-- The next PAM4 symbol of a pattern from its state, and the state after it. SSPRQ's state is its place in the sequence of 65,535
symbols. -/
def patternSym (pat st : Nat) : Nat × Nat :=
  if pat = 3 then ((Config.ssprq (st % 65535)).toNat, (st + 1) % 65535)
  else
    let a := prbsNext pat st
    let s1 := prbsShift pat st a
    let b := prbsNext pat s1
    (gray (prbsOut pat a) (prbsOut pat b), prbsShift pat s1 b)

/-- State from which a generator starts: a register of ones (DESIGN CHOICE, log entry 142). -/
def patternSeed (pat : Nat) : Nat := if pat = 3 then 0 else 2 ^ prbsWidth pat - 1

/-- The next `n` symbols of a pattern, and the state after them. -/
def patternSyms (pat : Nat) : Nat → Nat → List Nat × Nat
  | 0, st => ([], st)
  | n + 1, st =>
    let (g, s1) := patternSym pat st
    let (l, s2) := patternSyms pat n s1
    (g :: l, s2)

/-! ### The checker (R403, R631) -/

/-- Symbols that fill the checker's register, from which it knows the rest. -/
def lockSyms (pat : Nat) : Nat := if pat = 1 then 7 else 16

/-- Take a received symbol's two bits into the register of a checker that is not locked; for SSPRQ the last 16 symbols. -/
def loadSym (pat st g : Nat) : Nat :=
  if pat = 3 then (4 * st + g) % 2 ^ 32
  else (ungray g).foldl (fun s b => prbsShift pat s (prbsOut pat b)) st

/-- Place in SSPRQ after the 16 symbols that the register holds. -/
def ssprqPlace (st : Nat) : Option Nat :=
  ((List.range 65535).find? fun i => (List.range 16).all fun j =>
    (Config.ssprq ((i + j) % 65535)).toNat == st / 4 ^ (15 - j) % 4).map fun i => (i + 16) % 65535

/-- A checker whose register is full is locked; one of SSPRQ, when it finds its place. -/
def tryLock (pat : Nat) (c : Checker) : Checker :=
  if c.seen < lockSyms pat then c
  else if pat = 3 then (match ssprqPlace c.st with
    | some i => { c with locked := true, st := i }
    | none => c)
  else { c with locked := true }

/-- Bits in which two symbols differ. -/
def symErrs (a b : Nat) : Nat := (List.zipWith (fun x y => b2n (x != y)) (ungray a) (ungray b)).sum

/-- The checker takes one received symbol: bits compared and bits in error. -/
def checkSym (pat : Nat) (c : Checker) (g : Nat) : Checker :=
  if c.locked then
    let (want, st) := patternSym pat c.st
    { c with st, bits := c.bits + 2, errs := c.errs + symErrs want g }
  else tryLock pat { c with st := loadSym pat c.st g, seen := c.seen + 1 }

/-- Received symbols as the pattern's symbols: the precoder undone when the pattern is precoded. -/
def unprecoded (pre : Bool) (prev : Nat) (ys : List Nat) : List Nat := if pre then deprecode prev ys else ys

/-- A checker takes the symbols of a report. A loss of lock is judged at its end; how, R403 leaves open. -/
def checkSyms (pat : Nat) (c : Checker) (gs : List Nat) : Checker := gs.foldl (checkSym pat) { c with bits := 0, errs := 0 }

/-! ### The elastic buffer (R402, R628) -/

/-- A buffer of 2 × `half` units, filled by `drift` more units than it sends: its fill from its centre, and how often it has run over
or empty and recentred. -/
def elastic (half : Nat) (fill drift : Int) : Int × Nat :=
  let f := fill + drift
  let n := f.natAbs
  (if f < 0 then -((n % (half + 1) : Nat) : Int) else (n % (half + 1) : Nat), n / (half + 1))

/-! ### VS50 test modes 1 to 4 (R630) -/

/-- The next symbol of a VS50 test mode, 0 to 3 for −3 to +3, and the generator's state after it. -/
def vs50Sym (mode st : Nat) : Nat × Nat :=
  match mode with
  | 1 => (if st % 32 < 16 then 3 else 0, (st + 1) % 32)
  | 2 => (if st % 2 = 0 then 3 else 0, (st + 1) % 2)
  | n => patternSym (n - 2) st

/-- The next `n` symbols of a VS50 test mode, and the state after them. -/
def vs50Syms (mode : Nat) : Nat → Nat → List Nat × Nat
  | 0, st => ([], st)
  | n + 1, st =>
    let (g, s1) := vs50Sym mode st
    let (l, s2) := vs50Syms mode n s1
    (g :: l, s2)

/-- State from which the generator of a VS50 test mode starts (log entry 142). -/
def vs50Seed (mode : Nat) : Nat := if mode ≤ 2 then 0 else patternSeed (mode - 2)

/-! ### PRBS31 payloads (R627) -/

/-- The next `k` bits of a payload, first bit first, and the register after them. -/
def prbsBits : Nat → Nat → List Bool × Nat
  | 0, st => ([], st)
  | k + 1, st =>
    let a := prbsNext 2 st
    let (l, st1) := prbsBits k (prbsShift 2 st a)
    (prbsOut 2 a :: l, st1)

/-- The next `n` payload bytes, each sent with its least significant bit first. -/
def prbsBytes : Nat → Nat → List Byte × Nat
  | 0, st => ([], st)
  | n + 1, st =>
    let (bits, s1) := prbsBits 8 st
    let (l, s2) := prbsBytes n s1
    (BitVec.ofNat 8 (bits.reverse.foldl (fun a b => 2 * a + b2n b) 0) :: l, s2)

/-- A payload follows PRBS31: after its first 31 bits each bit is the sequence's next (log entry 142). -/
def prbsFollows (payload : List Byte) : Bool :=
  let r := (payload.flatMap fun b => (List.range 8).map b.toNat.testBit).foldl (fun (r : Nat × Nat × Bool) b =>
    let a := prbsOut 2 b
    (prbsShift 2 r.1 a, r.2.1 + 1, r.2.2 && (r.2.1 < 31 || a == prbsNext 2 r.1))) (0, 0, true)
  r.2.2 && r.1 != 0

end Sys2Proof.Machine
end

