-- ==== Sys2Proof/Machine/Lanes.lean ====
section
/-! DEFINITION. Host lanes and host links: lane and link states, training and equalisation, Ebb, the bonding map, tests,
eye scans, counters and their commands (R366 to R411). -/

namespace Sys2Proof.Machine

/-! ### Lane conditions -/

/-- The quay's clocks run: HREF present and the quay PLL locked (R383, R523, R529). -/
def laneClock (s : State) (m : Nat) : Bool := s.clk.href == 1 && s.clk.locked.testBit (16 + m / 8)

/-- Auto-Ebb is set for all lanes of link `k` (R397). -/
def autoEbb (s : State) (k : Nat) : Bool := (s.linkLanes k).all fun m => (s.lcfg m).flags.testBit 5

/-- FOM from a slicer SNR and the DFE tap: the SNR minus the DFE penalty (R371). -/
def fomOf (snr dfe : Int) : Int := snr - ((dfe.natAbs * 100 - 40 * 16384) / 16384 : Nat)

/-- Margin of a lane from its FOM (R372). -/
def laneMargin (fom : Int) : Int := fom - 182

/-- Signed 16-bit field that is 0x8000 when there is no value. -/
def be2opt (o : Option Int) : List Byte := match o with
  | some v => beI 2 v
  | none => be 2 0x8000

/-- The lane of a link with the lowest margin, the lowest-numbered on a tie. -/
def worstLane (s : State) (k : Nat) : Nat :=
  (s.linkLanes k).foldl (fun b m =>
    if ((s.lane m).margin.getD 0x7FFF) < ((s.lane b).margin.getD 0x7FFF) then m else b) k

/-! ### Eye scans (R376 to R379) -/

/-- Points of a scan in all. -/
def scanTotal (x : EyeScan) : Nat := (maskList 3 x.eyes).length * x.phases * x.volts

/-- A scan ends with a status: its event, and OK for its command (R379, R410). -/
def endScan (s : State) (m status : Nat) : State :=
  match (s.lane m).scan with
  | some x =>
    if x.status = 2 then
      let s1 := s.updLane m fun y => { y with scan := some { x with status } }
      let s2 := raise s1 0x2004 0 (laneT m) (be 1 status ++ be 2 x.points.length)
      closeWaiter s2 x.waiter (laneT m) .ok
    else s
  | none => s

/-! ### Lane states -/

/-- Enter a lane state. Leaving Up or a loopback ends a scan; leaving states 1 to 4 abandons an Undertow run (R379, R592). -/
def setLane (s : State) (m : Nat) (st : LaneSt) : State :=
  let s1 := if st = .up then s else endScan s m 1
  let s2 := if st == .quiet || st == .test then abandonRun s1 (128 + m)
    else if st == .up then markItem6 s1 (128 + m) (((s.linkOf m).map s.linkWidth).getD 0) else s1
  s2.updLane m fun x => { x with st, since := s.now, waking := false, okRun := 0, stepFrom := none, revertDue := none,
                                 ctleHold := if st = .up then x.ctleHold else false }

/-- The five transmit coefficients of a preset (R369). -/
def presetTaps (n : Nat) : List Int := (List.range 5).map fun i => (Config.presetTap n i).toInt

/-- A lane as training starts: the configured preset with training off, else preset 1, from which the exchange goes on; the FFE with its
main tap alone, and no DFE tap (R369, R373; DESIGN CHOICE, log entry 141). -/
def freshLane (c : LaneCfg) (x : Lane) : Lane :=
  { x with tx := presetTaps (if c.flags.testBit 2 then 1 else c.preset)
           ffe := List.replicate 4 0 ++ [16384] ++ List.replicate 19 0, dfe := 0, postLow := 0, postHigh := 0 }

/-- A lane in Down starts training, unless its clocks are missing or it must first be calibrated (R383, R583). -/
def laneTrain (s : State) (m : Nat) : State :=
  if (s.lane m).st = .down ∧ laneClock s m ∧ !s.calib.foreground.contains (128 + m) then
    ((setLane s m .training).updLane m (freshLane (s.lcfg m))).bump 0x2010 m 1
  else s

/-- A lane goes to Down, from where training starts within 10 µs (log entry 21). -/
def laneDown (s : State) (m : Nat) : State := laneTrain (setLane s m .down) m

/-- The last hold has been released: a lane in a link leaves Quiet (R392). -/
def leaveQuietLane (s : State) (m : Nat) : State :=
  if (s.lane m).st = .quiet ∧ !laneHeld s m then laneDown s m else s

/-! ### Link states -/

/-- The state of a link that is not Up: Ebb when all its lanes are in Ebb, else Down. -/
def linkRest (s : State) (k : Nat) : State :=
  let st : LinkSt := if (s.linkLanes k).all fun m => (s.lane m).st == .ebb then .ebb else .down
  s.updLink k fun x => if x.st = .up ∨ x.st = st then x else { x with st, since := s.now }

/-- Take a link out of every open `HOST_EBB` (R409). -/
def ebbJobDone (s : State) (k : Nat) : State :=
  let jobs := s.ebbJobs.map fun j => { j with left := j.left.erase k }
  (jobs.filter fun j => j.left.isEmpty).foldl (fun s j => closeWaiter s j.waiter 0 .ok)
    { s with ebbJobs := jobs.filter fun j => !j.left.isEmpty }

/-- The Ebb exit of a link ends: `HOST_EBB_CHANGED` with its cause (R398). -/
def ebbLeft (s : State) (k : Nat) : State :=
  let c := (s.link k).wakeCause
  if c = 0 then s
  else
    let s1 := s.updLink k fun x => { x with wakeCause := 0 }
    ebbJobDone (raise s1 0x2003 0 (linkT k) (be 1 0 ++ be 1 c)) k

/-- A lane goes quiet from any state, and a test of it ends (R392, R617). -/
def laneQuiet (s : State) (m reason : Nat) : State :=
  if (s.lane m).st = .quiet then s
  else
    let s1 := if (s.lane m).st = .test then markTest (markTest s (laneT m) (if reason = 6 then 4 else 3))
        (quayT (m / 8)) (if reason = 6 then 4 else 3) else s
    (setLane s1 m .quiet).updLane m fun x => { x with testAction := 0, testPattern := 0, stale := false }

/-- A lane of an altered link follows the new map: an unused one goes quiet; lanes that are all in Ebb lose their retained settings and
train when their link wakes; any other trains again, when its test or its hold ends (R390, R400). -/
def rebondLane (s : State) (m : Nat) : State :=
  match s.linkOf m with
  | none => laneQuiet s m 3
  | some k => match (s.lane m).st with
    | .quiet => leaveQuietLane s m
    | .test => s
    | .ebb => if (s.linkLanes k).all fun i => (s.lane i).st == .ebb && !(s.lane i).waking then s.updLane m fun x => { x with stale := true } else laneDown s m
    | _ => laneDown s m

/-- A quay's altered lanes follow its new map, once no altered link has a frame in transmission (R390). -/
def bondLanes (s : State) (q : Nat) : State :=
  let ms := (List.range 8).map (8 * q + ·)
  if ms.any fun k => (s.link k).bonding then s
  else
    let flagged := ms.filter fun m => (s.lane m).rebond
    let s1 := eachN s flagged fun s m => s.updLane m fun x => { x with rebond := false }
    let s2 := eachN s1 flagged rebondLane
    eachN s2 ms fun s k => if s.linkWidth k = 0 then s else linkRest s k

/-- A link leaves Up: one count and one event, and the MAC's frame is lost (R395, R396). Its lanes are not touched, but for those of an
altered quay that have waited for it (R390). -/
def linkDrop (s : State) (k reason : Nat) : State :=
  if (s.link k).st = .up then
    let s1 := raise (s.bump 0x2012 k 18) 0x2002 1 (linkT k) (be 1 reason ++ be 1 (worstLane s k))
    let s2 := loseReplies (dropMac s1 (128 + k)) k
    let s3 := ebbJobDone (s2.updLink k fun x => { x with
      st := .down, lock := 0, lastDown := reason, skew := 0xFFFF, since := s.now, restartDue := false, bonding := false
      ebbDue := false, rxCut := true }) k
    if (s.link k).bonding then bondLanes s3 (k / 8) else s3
  else s

/-- A link drops and its lanes train again, or wait for their clocks (R383, R390, R396). -/
def linkRetrain (s : State) (k reason : Nat) : State :=
  let s1 := eachN (linkDrop s k reason) (s.linkLanes k) fun s m =>
    if (s.lane m).st = .quiet ∨ (s.lane m).st = .test then s else laneDown s m
  linkRest s1 k

/-- A hold of R392 reaches lane `m`: its link drops, its other lanes train again, and the lane goes quiet from any
state; a test of it ends (R392, R617). -/
def quietLane (s : State) (m reason : Nat) : State :=
  let s1 := match s.linkOf m with
    | some k => if (s.link k).st = .up then linkRetrain s k reason else s
    | none => s
  if (s1.lane m).st = .quiet then s1
  else
    let s3 := laneQuiet s1 m reason
    match s3.linkOf m with
    | some k => linkRest s3 k
    | none => s3

/-- A link's lanes enter Ebb (R397): cause 1 command, 2 signal. -/
def ebbEnter (s : State) (k cause : Nat) : State :=
  let s1 := eachN (linkDrop s k 10) (s.linkLanes k) fun s m => (setLane s m .ebb).bump 0x2010 m 6
  ebbJobDone (raise (linkRest s1 k) 0x2003 0 (linkT k) (be 1 1 ++ be 1 cause)) k

/-- Ebb entry by command: the frame in transmission completes first (R397). -/
def ebbCommand (s : State) (k : Nat) : State :=
  if (s.link k).st ≠ .up then ebbJobDone s k
  else if (((s.egr (128 + k)).mac).map (·.started)).getD false then s.updLink k fun x => { x with ebbDue := true }
  else ebbEnter s k 1

/-- A link in Ebb wakes: each lane on its retained settings, or by training when they were discarded (R398, R400). -/
def ebbWake (s : State) (k cause : Nat) : State :=
  if (s.link k).st ≠ .ebb ∨ (s.link k).wakeCause ≠ 0 then s
  else
    let s1 := s.updLink k fun x => { x with wakeCause := cause }
    if (s.linkLanes k).any fun m => (s.lane m).stale then
      ebbLeft (linkRest (eachN s1 (s.linkLanes k) fun s m =>
        laneDown (s.updLane m fun x => { x with stale := false }) m) k) k
    else eachN s1 (s.linkLanes k) fun s m => s.updLane m fun x => { x with waking := true, okRun := 0 }

/-- A restarting change reaches a link: Up completes its frame first and drops, Ebb discards the retained settings, so that a link
already waking trains at once, and lanes that train begin again (R390, R400). -/
def linkRestart (s : State) (k : Nat) : State :=
  match (s.link k).st with
  | .up =>
    if (((s.egr (128 + k)).mac).map (·.started)).getD false then s.updLink k fun x => { x with restartDue := true }
    else linkRetrain s k 3
  | .ebb =>
    if (s.link k).wakeCause = 0 then eachN s (s.linkLanes k) fun s m => s.updLane m fun x => { x with stale := true }
    else ebbLeft (linkRetrain s k 3) k
  | .down => linkRetrain s k 3

/-! ### The bonding map (R388 to R391) -/

/-- A width byte of a bonding map. -/
def widthOk (w : Nat) : Bool := [0, 1, 2, 4, 8].contains w

/-- A bonding map is legal (R388). -/
def mapOk (ws : List Nat) : Bool :=
  ws.all widthOk &&
    (List.range 8).all fun j =>
      let w := ws.getD j 0
      w == 0 || (j % w == 0 && ((List.range 8).filter fun i => j < i && i < j + w).all fun i => ws.getD i 0 == 0)

/-- An altered link drops when it is Up, after the frame in transmission; one that is waking from Ebb has left it (R390, R400). -/
def bondDrop (s : State) (k : Nat) : State :=
  match (s.link k).st with
  | .up =>
    if (((s.egr (128 + k)).mac).map (·.started)).getD false then
      s.updLink k fun x => { x with restartDue := true, bonding := true }
    else linkDrop s k 3
  | .ebb =>
    (ebbLeft s k).updLink k fun x => { x with st := .down }
  | .down => s

/-- The lanes of the links of quay `q` that start at `starts`, in state `s`. -/
def lanesAt (s : State) (q : Nat) (starts : List Nat) : List Nat := starts.flatMap fun j => s.linkLanes (8 * q + j)

/-- A bonding map takes effect: unchanged links keep running, a number no longer used loses its queues, and a number
newly used starts with empty queues and zeroed counters (R390). -/
def setBond (s : State) (q : Nat) (ws : List Nat) : State :=
  let old := s.bond q
  let altered := (List.range 8).filter fun j => old.getD j 0 ≠ ws.getD j 0
  let mark := fun (s : State) (m : Nat) => s.updLane m fun x => { x with rebond := true }
  let s1 := eachN (eachN s (lanesAt s q altered) mark) (altered.filter fun j => old.getD j 0 ≠ 0) fun s j => bondDrop s (8 * q + j)
  let s2 := { s1 with cfg := { s1.cfg with quays := s1.cfg.quays.set [] q (if ws.all (· == 0) then [] else ws) } }
  let s3 := eachN s2 altered fun s j =>
    let k := 8 * q + j
    if ws.getD j 0 = 0 then flushEgress s (128 + k) (countFlush · (128 + k))
    else if old.getD j 0 = 0 then
      { s with counters := s.counters.dropRange (ckey 0x2012 k 0) (ckey 0x2012 k 256)
               links := s.links.set {} k { since := s.now } }
    else s
  bondLanes (eachN s3 (lanesAt s3 q altered) mark) q

/-- What a link does when the MAC has ended its frame: the drop or restart of R390 or the Ebb entry of R397 that waited. -/
def linkFrameEnd (s : State) (k : Nat) : State :=
  if (s.link k).bonding then linkDrop s k 3
  else if (s.link k).restartDue then linkRetrain s k 3
  else if (s.link k).ebbDue then ebbEnter (s.updLink k fun x => { x with ebbDue := false }) k 1
  else s

/-! ### Configuration -/

/-- HOST_LINK_CONFIG (0x2001). -/
def hostLinkConfigCmd : Cmd := confCmd 0x2001 onQuay 8
  (fun _ r => firstFail [inv (mapOk ((List.range 8).map (p8 r)))])
  fun s r => setBond s (ti r) ((List.range 8).map (p8 r))

/-- HOST_LINK_CONFIG. -/
def execHostLinkConfig (r : Req) (s : State) : Host.Outcome State Fault Refusal := .next (serve hostLinkConfigCmd r s)

/-- A lane configuration takes effect; a scan ends when it changes anything (R379, R408). -/
def setLaneCfg (s : State) (m : Nat) (c : LaneCfg) : State :=
  let old := s.lcfg m
  let s0 : State := { s with cfg := { s.cfg with lanes := s.cfg.lanes.set {} m c } }
  let s1 := if old = c then s0 else endScan s0 m 1
  if old.flags % 32 = c.flags % 32 then s1
  else match s1.linkOf m with
    | some k => linkRestart s1 k
    | none => s1

/-- HOST_LANE_CONFIG (0x2002); presets 1 to 5 are PRESUMED (log entry 22). -/
def hostLaneConfigCmd : Cmd := confCmd 0x2002 onLane 8
  (fun _ r => firstFail [inv (rz r 4 4), inv (p8 r 0 < 64), inv (within (p8 r 1) 1 5), rng (withinI (i16 r 2) 0 60)])
  fun s r => setLaneCfg s (ti r) { s.lcfg (ti r) with flags := p8 r 0, preset := p8 r 1, margin := i16 r 2 }

/-- HOST_LANE_CONFIG. -/
def execHostLaneConfig (r : Req) (s : State) : Host.Outcome State Fault Refusal := .next (serve hostLaneConfigCmd r s)

/-- HOST_LINK_MAC_CONFIG (0x2003). -/
def hostLinkMacConfigCmd : Cmd := confCmd 0x2003 onLink 4
  (fun _ r => firstFail [inv (p16 r 0 ≠ 0), inv (p16 r 2 ≠ 0), rng (within (p16 r 0) 1518 10240), rng (p16 r 2 ≤ 10000)])
  fun s r => { s with cfg := { s.cfg with links := s.cfg.links.set {} (ti r) { maxFrame := p16 r 0, flush := p16 r 2 } } }

/-- HOST_LINK_MAC_CONFIG. -/
def execHostLinkMacConfig (r : Req) (s : State) : Host.Outcome State Fault Refusal :=
  .next (serve hostLinkMacConfigCmd r s)

/-- Reason of a link-down by a lane's administrative hold: the lower one when a restarting change of the lane falls at the same
boundary (R396). -/
def laneAdminReason (s : State) (m : Nat) : Nat :=
  match stagedNow s 0x2002 (laneT m) with
  | some r => if (s.lcfg m).flags % 32 = p8 r 0 % 32 then 4 else 3
  | none => 4

/-- Administrative hold of a lane, enabled or quiet (R392). -/
def setLaneAdmin (s : State) (m : Nat) (quiet : Bool) : State :=
  let s1 := { s with cfg := { s.cfg with lanes := s.cfg.lanes.upd {} m fun c => { c with admin := quiet } } }
  if quiet then quietLane s1 m (laneAdminReason s m) else leaveQuietLane s1 m

/-- The lanes of the mask at offset 4 as target words. -/
def laneNames (_ : State) (r : Req) : List Nat := (laneMask r 4).map laneT

/-- HOST_ADMIN (0x2004). -/
def hostAdminCmd : Cmd where
  op := 0x2004
  stageable := true
  target := onDevice
  len := len 12
  check := fun _ r => firstFail [inv (rz r 1 3), inv (within (p8 r 0) 1 2)]
  writes := true
  gate := false
  names := laneNames
  run := doOk fun s r => eachN s (laneMask r 4) fun s m => setLaneAdmin s m (p8 r 0 == 2)
  narrow := fun r b => { r with params := r.params.take 4 ++ be 8 (if tgtDom b = 4 then 1 <<< tgtNum b else 0) }

/-- HOST_ADMIN. -/
def execHostAdmin (r : Req) (s : State) : Host.Outcome State Fault Refusal := .next (serve hostAdminCmd r s)

/-! ### Ebb and tests by command -/

/-- The links that a lane mask touches. -/
def linksTouched (s : State) (ms : List Nat) : List Nat := (ms.filterMap s.linkOf).eraseDups

/-- The mask covers every lane of each link that it touches (R400, R404). -/
def wholeLinks (s : State) (ms : List Nat) : Bool :=
  (linksTouched s ms).all fun k => (s.linkLanes k).all ms.contains

/-- HOST_EBB (0x2005). -/
def hostEbbCmd : Cmd where
  op := 0x2005
  target := onDevice
  len := len 12
  check := fun s r => firstFail [inv (rz r 1 3), inv (within (p8 r 0) 1 2), inv (wholeLinks s (laneMask r 4))]
  writes := true
  inTest := true
  names := laneNames
  run := doAccepted fun s r =>
    let ks := linksTouched s (laneMask r 4)
    let act := if p8 r 0 = 1 then ks.filter fun k => (s.link k).st = .up else ks.filter fun k => (s.link k).st = .ebb
    let w := waiterOf 0x2005 r
    if act.isEmpty then closeWaiter s w 0 .ok
    else
      eachN { s with ebbJobs := s.ebbJobs ++ [{ waiter := w, enter := p8 r 0 == 1, left := act }] } act fun s k =>
        if p8 r 0 = 1 then ebbCommand s k else ebbWake s k 1

/-- HOST_EBB. -/
def execHostEbb (r : Req) (s : State) : Host.Outcome State Fault Refusal := .next (serve hostEbbCmd r s)

/-- A lane's loopback or pattern test ends: it returns to state 1 and trains (R404). -/
def endLaneTest (s : State) (m : Nat) : State :=
  if (s.lane m).st = .test ∧ (s.lane m).testAction ≠ 0 then
    let s1 := endScan s m 1
    laneDown (s1.updLane m fun x => { x with testAction := 0, testPattern := 0 }) m
  else s

/-- A lane enters Test (R404); its link has dropped with reason 7. Generator, checker and buffer start anew. -/
def startLaneTest (s : State) (m action pattern : Nat) : State :=
  (setLane s m .test).updLane m fun x => { x with
    testAction := action, testPattern := pattern, stale := false, gen := patternSeed (pattern % 64), genPrev := 0, chk := {}
    chkPrev := 0, fill := 0, sent := [] }

/-- A lane leaves a self-test for state 1, or for Quiet when a hold is on it. -/
def leaveLaneTest (s : State) (m : Nat) : State :=
  if (s.lane m).st = .test then
    let s1 := s.updLane m fun x => { x with testAction := 0 }
    if laneHeld s1 m then setLane s1 m .quiet else laneDown s1 m
  else s

/-- HOST_TEST (0x2030). Under `SAFE_STATE` no test begins, so the transmitters stay idle and the links up (R23, R394; DESIGN CHOICE,
log entry 124). -/
def hostTestCmd : Cmd where
  op := 0x2030
  target := onDevice
  len := len 12
  check := fun s r => firstFail [inv (rz r 2 2), inv (p8 r 0 ≤ 4), inv (p8 r 1 % 64 ≤ 3),
    inv (wholeLinks s (laneMask r 4)), inv (!(p8 r 0 == 2 && p8 r 1 % 64 ≠ 0))]
  writes := true
  inTest := true
  names := laneNames
  take := fun s r b =>
    let m := tgtNum b
    if laneHeld s m ∨ (s.ctl.safeState ∧ p8 r 0 ≠ 0) then some (.notPermitted, [])
    else if (s.lane m).st = .test ∧ (p8 r 0 ≠ 0 ∨ (s.lane m).testAction = 0) then
      some (.busySelftest, be 4 (Config.testRemaining s.freeCtr).toNat)
    else none
  run := doOk fun s r =>
    if p8 r 0 = 0 then eachN s (laneMask r 4) endLaneTest
    else
      let s1 := eachN s (linksTouched s (laneMask r 4)) fun s k => linkDrop s k 7
      eachN (eachN s1 (laneMask r 4) fun s m => startLaneTest s m (p8 r 0) (p8 r 1)) (linksTouched s (laneMask r 4)) linkRest

/-- HOST_TEST. -/
def execHostTest (r : Req) (s : State) : Host.Outcome State Fault Refusal := .next (serve hostTestCmd r s)

/-- `SAFE_STATE` ends every lane test at once; a self-test ends with status 3 (R394, R617). -/
def safeLanes (s : State) : State :=
  eachN s (List.range 64) fun s m =>
    if (s.lane m).st = .test then
      if (s.lane m).testAction = 0 then leaveLaneTest (markTest (markTest s (laneT m) 3) (quayT (m / 8)) 3) m else endLaneTest s m
    else s

/-! ### Status and counters -/

/-- HOST_LANE_STATUS result, 16 bytes. -/
def laneStatusData (s : State) (r : Req) : List Byte :=
  let m := ti r
  let x := s.lane m
  let up := x.st == .up
  be 1 x.st.code ++ be 1 x.ctle ++ be 1 x.lfGain ++ be 1 x.precode ++ be2opt (if up then x.fom else none) ++
    be2opt (if up then x.margin else none) ++ beI 2 x.dfe ++ be 1 (laneHolds s m) ++ be 1 ((s.linkOf m).getD 0xFF) ++
    be 4 (sat 32 (s.secsSince x.since))

/-- HOST_LANE_STATUS (0x2006). -/
def hostLaneStatusCmd : Cmd := readCmd 0x2006 onLane 0 laneStatusData

/-- HOST_LANE_STATUS. -/
def execHostLaneStatus (r : Req) (s : State) : Host.Outcome State Fault Refusal := .next (serve hostLaneStatusCmd r s)

/-- HOST_LINK_STATUS result, 16 bytes. -/
def linkStatusData (s : State) (r : Req) : List Byte :=
  let k := ti r
  let x := s.link k
  be 1 (match x.st with | .down => 0 | .up => 1 | .ebb => 2) ++ be 1 (s.linkWidth k) ++ be 1 x.lock ++ be 1 x.lastDown ++
    be2opt (if x.st = .up then (s.lane (worstLane s k)).margin else none) ++ be 2 x.skew ++
    be 4 (sat 32 ((x.uncHist.filter fun e => s.now < e.1 + 4000000000).map (·.2)).sum) ++ be 4 (sat 32 (s.secsSince x.since))

/-- HOST_LINK_STATUS (0x2007). -/
def hostLinkStatusCmd : Cmd := readCmd 0x2007 onLink 0 linkStatusData

/-- HOST_LINK_STATUS. -/
def execHostLinkStatus (r : Req) (s : State) : Host.Outcome State Fault Refusal := .next (serve hostLinkStatusCmd r s)

/-- HOST_LANE_COUNTERS_READ (0x2010). -/
def hostLaneCountersReadCmd : Cmd := readCmd 0x2010 onLane 0 fun s r => s.cblock 0x2010 (tw r) (ti r) 0 12

/-- HOST_LANE_COUNTERS_READ. -/
def execHostLaneCountersRead (r : Req) (s : State) : Host.Outcome State Fault Refusal :=
  .next (serve hostLaneCountersReadCmd r s)

/-- HOST_LANE_COUNTERS_CLEAR (0x2011). -/
def hostLaneCountersClearCmd : Cmd := clearCmd 0x2011 onDevice 8 (fun _ r => (laneMask r 0).map laneT)
  fun s r => eachN s (laneMask r 0) fun s m => s.clearCnt 0x2010 m

/-- HOST_LANE_COUNTERS_CLEAR. -/
def execHostLaneCountersClear (r : Req) (s : State) : Host.Outcome State Fault Refusal :=
  .next (serve hostLaneCountersClearCmd r s)

/-- HOST_LINK_COUNTERS_READ (0x2012). -/
def hostLinkCountersReadCmd : Cmd := readCmd 0x2012 onLink 0 fun s r => s.cblock 0x2012 (tw r) (ti r) 0 20

/-- HOST_LINK_COUNTERS_READ. -/
def execHostLinkCountersRead (r : Req) (s : State) : Host.Outcome State Fault Refusal :=
  .next (serve hostLinkCountersReadCmd r s)

/-- HOST_LINK_COUNTERS_CLEAR (0x2013): a bit of a link that is not configured is INVALID_PARAM (R407). -/
def hostLinkCountersClearCmd : Cmd where
  op := 0x2013
  target := onDevice
  len := len 8
  check := fun s r => firstFail [inv ((laneMask r 0).all fun k => s.linkWidth k != 0)]
  names := fun _ r => (laneMask r 0).map linkT
  run := doOk fun s r => eachN s (laneMask r 0) fun s k => s.clearCnt 0x2012 k

/-- HOST_LINK_COUNTERS_CLEAR. -/
def execHostLinkCountersClear (r : Req) (s : State) : Host.Outcome State Fault Refusal :=
  .next (serve hostLinkCountersClearCmd r s)

/-! ### Eye scan commands (R376 to R379, R410, R411) -/

/-- The lane can be scanned: Up, or a near-end loopback. -/
def scannable (x : Lane) : Bool := x.st == .up || (x.st == .test && (x.testAction == 1 || x.testAction == 2))

/-- EYE_SCAN_START (0x2020). -/
def eyeScanStartCmd : Cmd where
  op := 0x2020
  target := onLane
  len := len 12
  check := fun _ r => firstFail [inv (rz r 10 2), inv (within (p8 r 0) 1 7), inv (p8 r 3 ≠ 0), inv (p8 r 5 ≠ 0), inv (p8 r 6 ≠ 0),
    inv (p8 r 7 ≠ 0), inv (within (p8 r 9) 1 2), rng (within (p8 r 1) 16 30), rng (withinI (i8 r 2) (-32) 31), rng (p8 r 3 ≤ 64),
    rng (withinI (i8 r 4) (-127) 127), rng (p8 r 6 ≤ 16), rng (p8 r 7 ≤ 64), rng (within (p8 r 8) 3 12),
    rng (i8 r 2 + (p8 r 3 - 1) * p8 r 6 ≤ 31), rng (i8 r 4 + (p8 r 5 - 1) * p8 r 7 ≤ 127),
    rng ((maskList 3 (p8 r 0)).length * p8 r 3 * p8 r 5 ≤ 16384)]
  take := fun s r _ =>
    let x := s.lane (ti r)
    if p8 r 9 = 2 then none
    else if !scannable x then some (.notPermitted, [])
    else if (x.scan.map (·.status)) == some 2 then some (.busy, []) else none
  run := doAccepted fun s r =>
    if p8 r 9 = 2 then complete (endScan s (ti r) 1) 0x2020 (tagN r) (tw r) .ok
    else s.updLane (ti r) fun x => { x with scan := some {
      eyes := p8 r 0, dwell := p8 r 1, phase0 := i8 r 2, phases := p8 r 3, volt0 := i8 r 4, volts := p8 r 5, pStride := p8 r 6,
      vStride := p8 r 7, target := p8 r 8, status := 2, points := [], waiter := waiterOf 0x2020 r } }

/-- EYE_SCAN_START. -/
def execEyeScanStart (r : Req) (s : State) : Host.Outcome State Fault Refusal := .next (serve eyeScanStartCmd r s)

/-- A point of eye number `e` of the scan, phase index `i`, voltage index `j`, meets the target; none when not done. -/
def pointOk (x : EyeScan) (e i j : Nat) : Option Bool :=
  (x.points[(e * x.phases + i) * x.volts + j]?).map fun n => n * 10 ^ x.target ≤ 2 ^ x.dwell

/-- Length of the run of points through index `c` that meet the target, by a test of each index below `n`. -/
def runThrough (n c : Nat) (ok : Nat → Bool) : Nat :=
  if ok c then
    1 + (((List.range n).drop (c + 1)).takeWhile ok).length + ((List.range c).reverse.takeWhile ok).length
  else 0

/-- The grid index of offset 0, when the grid covers it. -/
def zeroIndex (first : Int) (n stride : Nat) : Option Nat :=
  (List.range n).find? fun i => first + i * stride == 0

/-- Eye width, or height, of scanned eye number `e` in steps; 0xFF when the grid, or the points done, do not cover it (R378,
log entry 23). -/
def eyeWidth (x : EyeScan) (e : Nat) : Nat :=
  match zeroIndex x.phase0 x.phases x.pStride, zeroIndex x.volt0 x.volts x.vStride with
  | some i, some j =>
    if (pointOk x e i j).isNone then 0xFF
    else sat 16 (x.pStride * runThrough x.phases i fun a => (pointOk x e a j).getD false)
  | _, _ => 0xFF

/-- Eye height of scanned eye number `e`. -/
def eyeHeight (x : EyeScan) (e : Nat) : Nat :=
  match zeroIndex x.phase0 x.phases x.pStride, zeroIndex x.volt0 x.volts x.vStride with
  | some i, some j =>
    if (pointOk x e i j).isNone then 0xFF
    else sat 16 (x.vStride * runThrough x.volts j fun b => (pointOk x e i b).getD false)
  | _, _ => 0xFF

/-- The three summary fields of widths or of heights, two bytes each. -/
def eyeFields (x : EyeScan) (f : EyeScan → Nat → Nat) : List Byte :=
  ((List.range 3).map fun e =>
    if x.eyes.testBit e then be 2 (f x (((maskList 3 x.eyes).idxOf e))) else be 2 0xFF).flatten

/-- A scan result is held: complete or ended. -/
def heldScan (s : State) (m : Nat) : Option EyeScan := (s.lane m).scan.filter fun x => x.status < 2

/-- EYE_SCAN_READ (0x2021). -/
def eyeScanReadCmd : Cmd where
  op := 0x2021
  target := onLane
  len := len 4
  check := fun s r => firstFail [rng (p16 r 2 ≤ 252),
    rng (p16 r 2 == 0 || p16 r 0 + p16 r 2 ≤ ((heldScan s (ti r)).map (·.points.length)).getD 0)]
  run := readOk fun s r => match heldScan s (ti r) with
    | none => be 1 0xFF ++ zeros 3 ++ (List.replicate 6 (be 2 0xFF)).flatten
    | some x => be 1 x.status ++ be 1 x.eyes ++ be 2 x.points.length ++ eyeFields x eyeWidth ++ eyeFields x eyeHeight ++
        (((x.points.drop (p16 r 0)).take (p16 r 2)).map (be 4)).flatten

/-- EYE_SCAN_READ. -/
def execEyeScanRead (r : Req) (s : State) : Host.Outcome State Fault Refusal := .next (serve eyeScanReadCmd r s)

/-- A scan point's comparisons complete (R377). -/
def execEyeScanPointEnd (m : LaneId) (errors : Nat) (s : State) : Host.Outcome State Fault Refusal :=
  .next (match (s.lane m).scan with
    | some x =>
      if x.status = 2 ∧ x.points.length < scanTotal x then
        s.updLane m fun y => { y with scan := some { x with points := x.points ++ [sat 32 errors] } }
      else s
    | none => s)

/-- A scan has visited all its points (R410). -/
def execEyeScanDone (m : LaneId) (s : State) : Host.Outcome State Fault Refusal :=
  .next (match (s.lane m).scan with
    | some x => if x.status = 2 ∧ x.points.length = scanTotal x then endScan s m 0 else s
    | none => s)

/-! ### Training, tracking and link events -/

/-- The pair of highest FOM: the lowest peaking within 0.1 dB of the best, then its best low-frequency gain (R373). -/
def bestCtle (foms : List Int) : Nat × Nat :=
  let best := foms.foldl max (foms.headD 0)
  let i := (foms.findIdx? fun f => best - 1 ≤ f).getD 0
  let row := (foms.drop (i / 7 * 7)).take 7
  (i / 7, (row.findIdx? fun f => f == row.foldl max (row.headD 0)).getD 0)

/-- A lane's margin has held the threshold: training is complete (R368, R369, R373, R375). `foms` holds the FOM of peaking p
and gain step g at place 7 p + g; `tx` the coefficients that the clause's training exchange has set. -/
def execLaneTrainingComplete (m : LaneId) (foms : List Int) (partnerReq : Bool) (tx : List Int) (s : State) :
    Host.Outcome State Fault Refusal :=
  .next (
    let c := s.lcfg m
    let (p, g) := bestCtle (foms.take 287)
    if (s.lane m).st = .training ∧ 16 ≤ (s.lane m).okRun then
      (setLane s m .up).updLane m fun x => { x with
        ctle := p, lfGain := g, tx := if c.flags.testBit 2 then (List.range 5).map fun i => tx.getD i 0 else presetTaps c.preset
        precode := b2n (if c.flags.testBit 2 then partnerReq else c.flags.testBit 4) + 2 * b2n (c.flags.testBit 3) }
    else s)

/-- A lane's training fails: it returns to state 1 and trains again (R238). -/
def execLaneTrainingTimeout (m : LaneId) (s : State) : Host.Outcome State Fault Refusal :=
  .next (if (s.lane m).st = .training then laneDown (s.bump 0x2010 m 2) m else s)

/-- What a report brings to a lane in Test: the checker takes the symbols received when a pattern runs, the generator sends as many, and
the elastic buffer of a far-end loopback sends back what was received (R367, R402, R403). -/
def laneTested (s : State) (m : Nat) (x : LaneReport) : State :=
  let l := s.lane m
  let pat := l.testPattern % 64
  let pre := l.testPattern.testBit 7
  let rx := x.rx.map (·.toNat)
  let far : Bool := l.testAction == 3
  let chk := if pat = 0 then l.chk else checkSyms pat l.chk (unprecoded pre l.chkPrev rx)
  let lost := pat ≠ 0 ∧ chk.locked ∧ Config.lockLost chk.bits chk.errs
  let (gs, gen) := patternSyms pat rx.length l.gen
  let ys := if far then rx else if pat = 0 then [] else if pre then precode l.genPrev gs else gs
  let (fill, slips) := if far then elastic 256 l.fill x.drift else (l.fill, 0)
  let s1 := s.updLane m fun y => { y with
    chk := if lost then { bits := chk.bits, errs := chk.errs } else chk, chkPrev := rx.getLast?.getD l.chkPrev
    gen := if pat = 0 then l.gen else gen, genPrev := if far then l.genPrev else ys.getLast?.getD l.genPrev, sent := ys, fill }
  if pat = 0 then s1.bumpBy 0x2010 m 11 slips
  else (((s1.bumpBy 0x2010 m 8 chk.bits).bumpBy 0x2010 m 9 chk.errs).bumpBy 0x2010 m 10 (b2n lost)).bumpBy 0x2010 m 11 slips

/-- Count what a report brings: the lane's symbols and test results, and the codewords that its link has decoded at Up in the interval,
though the link may have dropped before its end (R402, R403, R406). -/
def countReport (s : State) (m : Nat) (x : LaneReport) : State :=
  let s1 := (if (s.lane m).st = .test then laneTested s m x else s).bumpBy 0x2010 m 3 x.symbols
  match s.linkOf m with
  | some k =>
    let s3 := ((s1.bumpBy 0x2012 k 13 x.codewords).bumpBy 0x2012 k 14 x.corrected).bumpBy 0x2012 k 15 x.uncorrectable
    s3.updLink k fun y => { y with
      uncHist := (s.now, x.uncorrectable) :: y.uncHist.filter fun e => s.now < e.1 + 4000000000 }
  | none => s1

/-- The FFE and the DFE of a lane after an interval, with step exponents `kf` and `kd`: the main tap is held at 1.0, the DFE tap within
±0.60 (R373, R374). -/
def adaptLane (c kf kd : Nat) (r : LaneReport) (x : Lane) : Lane :=
  { x with ffe := (adaptTaps c 0 kf x.ffe r.ffe).set 4 16384, dfe := max (-9830) (min 9830 (newTap c 24 kd x.dfe r.dfe)) }

/-- The equaliser taps adapt in acquisition gear in training and in tracking gear at Up, and hold in any other state (R373, R374, log
entry 141). -/
def laneAdapts (c : Nat) (r : LaneReport) (x : Lane) : Lane :=
  match x.st with
  | .training => adaptLane c 10 9 r x
  | .up => adaptLane c 14 13 r x
  | _ => x

/-- For how many intervals the first postcursor tap has stayed past each threshold of R374: −0.30 and −0.08 are −4915.2 and −1310.72
in the format of R175. -/
def postRuns (x : Lane) : Lane :=
  let v := x.ffe.getD 5 0
  { x with postLow := if x.st = .up ∧ v ≤ -4916 then x.postLow + 1 else 0
           postHigh := if x.st = .up ∧ -1310 ≤ v then x.postHigh + 1 else 0 }

/-- The FOM of an interval judged: margin, threshold count, and at Up the step made before it (R371, R372, R374, R375, R401). -/
def judgeFom (threshold snr : Int) (x : Lane) : Lane :=
  let fom := fomOf snr x.dfe
  { x with
    fom := some fom, margin := some (laneMargin fom), okRun := if threshold ≤ laneMargin fom then x.okRun + 1 else 0
    stepFrom := if x.st = .up then none else x.stepFrom
    revertDue := match x.st, x.stepFrom with
      | .up, some (f, c) => if fom + 3 < f then some c else none
      | _, _ => x.revertDue }

/-- A FOM interval ends (R371 to R375, R401). -/
def execFomIntervalEnd (m : LaneId) (x : LaneReport) (s : State) : Host.Outcome State Fault Refusal :=
  .next (
    let s1 := ((countReport s m x).updLane m fun y =>
      judgeFom (s.lcfg m).margin x.snr (postRuns (laneAdapts s.freeCtr x y))).draw
    if (s.lane m).st = .ebb ∧ (s.lane m).waking ∧ 2 ≤ (s1.lane m).okRun then
      let s2 := setLane s1 m .up
      match s.linkOf m with
      | some k => linkRest s2 k
      | none => s2
    else s1)

/-- One CTLE step at Up to setting `c` (R374). -/
def ctleStep (s : State) (m c : Nat) : State :=
  (s.updLane m fun y => { y with
    ctle := c, stepFrom := y.fom.map fun f => (f, y.ctle), postLow := 0, postHigh := 0 }).bump 0x2010 m 4

/-- At an alignment-marker boundary a CTLE step that lost FOM is returned, or the CTLE steps, when the first postcursor tap has stayed
past a threshold for 2²⁴ symbols, four intervals, since the last step (R374). -/
def execHostCtleStep (m : LaneId) (s : State) : Host.Outcome State Fault Refusal :=
  .next (
    let x := s.lane m
    if x.st ≠ .up then s
    else match x.revertDue with
      | some c => (s.updLane m fun y => { y with
          ctle := c, revertDue := none, ctleHold := true, postLow := 0, postHigh := 0 }).bump 0x2010 m 5
      | none =>
        if x.ctleHold ∨ x.stepFrom.isSome then s
        else if 4 ≤ x.postLow ∧ x.ctle < 40 then ctleStep s m (x.ctle + 1)
        else if 4 ≤ x.postHigh ∧ 0 < x.ctle then ctleStep s m (x.ctle - 1)
        else s)

/-- The hold of the CTLE after a returned step ends (R374). -/
def execHostCtleHoldEnd (m : LaneId) (s : State) : Host.Outcome State Fault Refusal :=
  .next (s.updLane m fun x => { x with ctleHold := false })

/-- The link's lanes can be brought into order: each carries one of its PCS lanes, in any order, with a skew of at most 180 ns; what a
greater skew does is open (R385). -/
def linkAligns (s : State) (k : Nat) (skew : Nat) (order : List Nat) : Bool :=
  order.length == s.linkWidth k && (List.range (s.linkWidth k)).all order.contains && (skew ≤ 180 || Config.deskews skew)

/-- All lanes of a link are at Up with alignment and FEC lock: the link enters Up. `order`: the PCS lane that each of its lanes
carries; `skew` in ns (R385, R399). -/
def execHostLinkUp (k : LinkId) (skew : BitVec 16) (order : List Nat) (s : State) : Host.Outcome State Fault Refusal :=
  .next (
    if s.linkWidth k = 0 ∨ (s.link k).st = .up ∨ !linkAligns s k skew.toNat order ∨
        !((s.linkLanes k).all fun m => (s.lane m).st == .up && !(s.lane m).rebond) then s
    else
      let kind := if (s.link k).wakeCause = 0 then 0 else 1
      let s1 := (s.updLink k fun x => { x with
        st := .up, lock := 3, skew := skew.toNat, order, since := s.now, rxCut := false }).bump 0x2012 k 17
      ebbLeft (raise s1 0x2001 0 (linkT k) (be 1 (s.linkWidth k) ++ be 1 kind)) k)

/-- Lanes at Up lose signal, or a link at Up loses alignment (`am`) or FEC lock (`fec`); the lowest reason is given (R396, R406). With
auto-Ebb, signal lost on every lane of a link at Up is the Ebb entry of `EBB_AUTO_ENTRY` instead (R397). -/
def execHostLinkDown (k : LinkId) (lost : List LaneId) (am fec : Bool) (s : State) : Host.Outcome State Fault Refusal :=
  .next (
    let up : Bool := (s.link k).st == .up
    let gone := (s.linkLanes k).filter fun m => (lost.map (·.val)).contains m && (s.lane m).st == .up
    if up ∧ ((gone.isEmpty ∧ !am ∧ !fec) ∨ (autoEbb s k ∧ gone.length = s.linkWidth k)) then s
    else
      let s1 := eachN s gone fun s m => s.bump 0x2010 m 0
      if up then linkRetrain (if am then s1.bump 0x2012 k 16 else s1) k (if gone.isEmpty then 2 else 1)
      else eachN s1 gone laneDown)

/-- Every lane of an auto-Ebb link has had no signal for 50 µs (R397). -/
def execEbbAutoEntry (k : LinkId) (s : State) : Host.Outcome State Fault Refusal :=
  .next (if (s.link k).st = .up ∧ autoEbb s k then
      ebbEnter (eachN s (s.linkLanes k) fun s m => s.bump 0x2010 m 0) k 2
    else s)

/-- Signal is detected on a lane of an auto-Ebb link in Ebb (R398). -/
def execEbbSignalDetect (m : LaneId) (s : State) : Host.Outcome State Fault Refusal :=
  .next (match s.linkOf m with
    | some k => if autoEbb s k then ebbWake s k 2 else s
    | none => s)

/-- A waking lane is not at its threshold 400 µs after the event: full training (R398, R401). -/
def execEbbRetrainTimeout (m : LaneId) (s : State) : Host.Outcome State Fault Refusal :=
  .next (
    if (s.lane m).st = .ebb ∧ (s.lane m).waking then
      let s1 := laneDown (s.bump 0x2010 m 7) m
      match s.linkOf m with
      | some k => ebbLeft (linkRest s1 k) k
      | none => s1
    else s)

/-- A host link has been out of Up for its flush time, with no `SAFE_STATE` (R395). -/
def execLinkEgressFlush (k : LinkId) (s : State) : Host.Outcome State Fault Refusal :=
  .next (if (s.link k).st = .up ∨ s.ctl.safeState then s else flushEgress s (128 + k) (countFlush · (128 + k)))

end Sys2Proof.Machine
end

