-- ==== Sys2Proof/Machine/Nvm.lean ====
section
/-! DEFINITION. The MRAM: its map, slots and their headers, the order of a slot's write, write sessions of host software,
and the NVM counters (R595 to R601, R604 to R606). -/

namespace Sys2Proof.Machine

/-! ### The MRAM as bytes (R595) -/

/-- The canonical form of the MRAM's bytes: addresses strictly rising, and no pair that holds 0, what an unlisted
address reads as (log entry 7). -/
abbrev Memory.wf (m : List Host.Cell) : Prop := Tab.wf (0 : Byte) m

/-- One byte of the MRAM. -/
def mramByte (m : List Host.Cell) (a : Nat) : Byte := Tab.get 0 m a

/-- `n` bytes from an MRAM address. -/
def mramRead (m : List Host.Cell) (a n : Nat) : List Byte := (List.range n).map fun i => mramByte m (a + i)

/-- Write bytes from an MRAM address upward. -/
def mramWrite (m : List Host.Cell) : Nat → List Byte → List Host.Cell
  | _, [] => m
  | a, b :: bs => mramWrite (Tab.set 0 m a b) (a + 1) bs

/-- Start of a region. -/
def regionStart (i : Nat) : Nat :=
  match i with
  | 0 => 0x000000 | 1 => 0x010000 | 2 => 0x190000 | 3 => 0x310000 | 4 => 0x350000
  | 5 => 0x390000 | 6 => 0x3B0000 | 7 => 0x3D0000 | _ => 0x3F0000

/-- Size of a region in bytes. -/
def regionSize (i : Nat) : Nat :=
  match i with
  | 0 => 0x10000 | 1 => 0x180000 | 2 => 0x180000 | 3 => 0x40000 | 4 => 0x40000
  | 5 => 0x20000 | 6 => 0x20000 | 7 => 0x20000 | _ => 0x10000

/-- Bytes of a region. -/
def State.regionRead (s : State) (i off n : Nat) : List Byte := mramRead s.nvm.mem (regionStart i + off) n

/-- Write bytes into a region. -/
def State.regionWrite (s : State) (i off : Nat) (bs : List Byte) : State :=
  { s with nvm := { s.nvm with mem := mramWrite s.nvm.mem (regionStart i + off) bs } }

/-! ### Slots (R596 to R598) -/

/-- Regions 1 to 6 are slots. -/
def isSlot (i : Nat) : Bool := within i 1 6
/-- The other slot of a pair. -/
def otherSlot (i : Nat) : Nat := if i % 2 = 1 then i + 1 else i - 1
/-- The slot header. -/
def State.slotHeader (s : State) (i : Nat) : List Byte := s.regionRead i 0 32
/-- Sequence in a slot header. -/
def State.slotSeq (s : State) (i : Nat) : Nat := fld (s.slotHeader i) 4 4
/-- Body length in a slot header. -/
def State.slotLen (s : State) (i : Nat) : Nat := fld (s.slotHeader i) 8 4
/-- Body check in a slot header. -/
def State.slotCheck (s : State) (i : Nat) : Nat := fld (s.slotHeader i) 12 4
/-- The body of a slot. -/
def State.slotBody (s : State) (i : Nat) : List Byte := s.regionRead i 32 (s.slotLen i)
/-- A sequence that marks an erased header. -/
def erasedSeq (q : Nat) : Bool := q == 0 || q == 0xFFFFFFFF

/-- A slot is valid (R596). -/
def slotValid (s : State) (i : Nat) : Bool :=
  let h := s.slotHeader i
  isSlot i && fld h 0 4 == 0xD2A15107 && byteAt h 16 == i && byteAt h 17 == 1 && !erasedSeq (s.slotSeq i) &&
    fld h 28 4 == crc32c (h.take 28) && within (s.slotLen i) 1 (regionSize i - 32) &&
    crc32c (s.slotBody i) == s.slotCheck i

/-- The newest valid slot of a pair, `a` the lower instance (R596). -/
def newestSlot (s : State) (a : Nat) : Option Nat :=
  if slotValid s a then
    if slotValid s (a + 1) && s.slotSeq a < s.slotSeq (a + 1) then some (a + 1) else some a
  else if slotValid s (a + 1) then some (a + 1) else none

/-- The lower instance of a slot's pair. -/
def pairOf (i : Nat) : Nat := if i % 2 = 1 then i else i - 1

/-- The slot is the newest valid one of its pair. -/
def isNewest (s : State) (i : Nat) : Bool := isSlot i && newestSlot s (pairOf i) == some i

/-- The sequence that a write of a slot takes (R597). -/
def nextSlotSeq (s : State) (i : Nat) : Nat :=
  max (if slotValid s i then s.slotSeq i else 0) (if slotValid s (otherSlot i) then s.slotSeq (otherSlot i) else 0) + 1

/-- Step 1 of R598, and an erased header (R605). -/
def eraseSlot (s : State) (i : Nat) : State := s.regionWrite i 0 (zeros 32)

/-- A slot header. -/
def slotHeaderBytes (i seq n check : Nat) : List Byte :=
  let h := be 4 0xD2A15107 ++ be 4 seq ++ be 4 n ++ be 4 check ++ be 1 i ++ be 1 1 ++ zeros 10
  h ++ be 4 (crc32c h)

/-- Step 4 of R598: the header is written over the body as read back, and counts. -/
def writeSlotHeader (s : State) (i seq n : Nat) : State :=
  (s.regionWrite i 0 (slotHeaderBytes i seq n (crc32c (s.regionRead i 32 n)))).bump 0x7016 0 0

/-- Slots that are invalid and not erased are counted at a start of reach 0 to 3 (R606). -/
def scanSlots (s : State) : State :=
  eachN s [1, 2, 3, 4, 5, 6] fun s i => if slotValid s i || erasedSeq (s.slotSeq i) then s else s.bump 0x7016 0 3

/-! ### Sessions (R600, R601) -/

/-- A write session or a device store is open (R600). -/
def nvmBusy (s : State) : Bool := s.nvm.session.isSome || s.nvm.store.isSome

/-- The session is abandoned: its slot stays invalid (R601). Causes 1 idle, 2 Headland reset, 3 Off, 4 reset. -/
def abandonSession (s : State) (cause : Nat) : State :=
  match s.nvm.session with
  | none => s
  | some x =>
    let s1 := ({ s with nvm := { s.nvm with session := none } }).bump 0x7016 0 2
    raiseReady s1 0x7003 1 (tgt 10 x.region) 0 0 (be 1 x.region ++ be 1 cause)

/-- A read-back differs: it is counted, and the session's write has ended with its slot invalid (R598). -/
def verifyFail (s : State) : State := ({ s with nvm := { s.nvm with session := none } }).bump 0x7016 0 1

/-- The session belongs to the source, names the region, and still takes bytes (R600, R604). -/
def ownsSession (s : State) (r : Req) : Bool :=
  match s.nvm.session with
  | some x => x.src == sn r && x.region == ti r && x.closing.isNone
  | none => false

/-- NVM writes are refused after `DEVICE_POWER_SET` Off has completed (R359). -/
def nvmOpen (s : State) : Bool × Status := (!s.nvm.off, .notPermitted)

/-! ### Opcodes -/

/-- NVM_SLOT_STATUS result, 16 bytes. -/
def slotStatusData (s : State) (r : Req) : List Byte :=
  let i := ti r
  if !isSlot i then be 1 4 ++ zeros 15
  else
    let writing := (s.nvm.session.map (·.region)) == some i || (s.nvm.store.map (·.region)) == some i
    let erased := erasedSeq (s.slotSeq i)
    be 1 (if writing then 3 else if slotValid s i then 1 else if erased then 0 else 2) ++ be 1 (b2n (isNewest s i)) ++
      zeros 2 ++ be 4 (if erased then 0 else s.slotSeq i) ++ be 4 (s.slotLen i) ++ be 4 (s.slotCheck i)

/-- NVM_SLOT_STATUS (0x7010). -/
def nvmSlotStatusCmd : Cmd := readCmd 0x7010 onRegion 0 slotStatusData

/-- NVM_SLOT_STATUS. -/
def execNvmSlotStatus (r : Req) (s : State) : Host.Outcome State Fault Refusal := .next (serve nvmSlotStatusCmd r s)

/-- NVM_READ (0x7011). -/
def nvmReadCmd : Cmd where
  op := 0x7011
  target := onRegion
  len := len 8
  check := fun _ r => firstFail [inv (rz r 6 2), rng (p16 r 4 ≤ 1024),
    rng (p16 r 4 == 0 || p32 r 0 + p16 r 4 ≤ regionSize (ti r))]
  run := readOk fun s r => s.regionRead (ti r) (p32 r 0) (p16 r 4)

/-- NVM_READ. -/
def execNvmRead (r : Req) (s : State) : Host.Outcome State Fault Refusal := .next (serve nvmReadCmd r s)

/-- NVM_WRITE_BEGIN (0x7012); `differs`: the read-back of the zeroed header differs (R598 step 1). -/
def nvmWriteBeginCmd (differs : Bool) : Cmd where
  op := 0x7012
  target := onRegion14
  len := len 4
  check := fun s r => firstFail [inv (p32 r 0 ≠ 0), rng (p32 r 0 ≤ regionSize (ti r) - 32), nvmOpen s]
  take := fun s r _ =>
    if nvmBusy s then some (.busy, [])
    else if isNewest s (ti r) then some (.notPermitted, [])
    else if 0xFFFFFFFE < nextSlotSeq s (ti r) then some (.range, []) else none
  run := fun s r =>
    let s1 := eraseSlot s (ti r)
    if differs then (verifyFail s1, some (.nvmFail, []))
    else ({ s1 with nvm := { s1.nvm with session := some { region := ti r, src := sn r, len := p32 r 0, closing := none } } },
      some (.ok, []))

/-- NVM_WRITE_BEGIN. -/
def execNvmWriteBegin (r : Req) (differs : Bool) (s : State) : Host.Outcome State Fault Refusal :=
  .next (serve (nvmWriteBeginCmd differs) r s)

/-- NVM_WRITE (0x7013); `differs`: the read-back of its bytes differs (R598 step 2). -/
def nvmWriteCmd (differs : Bool) : Cmd where
  op := 0x7013
  target := onRegion14
  len := fun ps => 8 ≤ ps.length && ps.length == 8 + fld ps 4 2
  check := fun s r => firstFail [inv (rz r 6 2), inv (p16 r 4 ≠ 0), rng (p16 r 4 ≤ 1016), nvmOpen s,
    (ownsSession s r, .notPermitted), rng (p32 r 0 + p16 r 4 ≤ ((s.nvm.session.map (·.len)).getD 0))]
  run := fun s r =>
    let s1 := s.regionWrite (ti r) (32 + p32 r 0) (r.params.drop 8)
    if differs then (verifyFail s1, some (.nvmFail, [])) else (s1, some (.ok, []))

/-- NVM_WRITE. -/
def execNvmWrite (r : Req) (differs : Bool) (s : State) : Host.Outcome State Fault Refusal :=
  .next (serve (nvmWriteCmd differs) r s)

/-- NVM_WRITE_END (0x7014). -/
def nvmWriteEndCmd : Cmd where
  op := 0x7014
  target := onRegion14
  len := len 4
  check := fun s r => firstFail [nvmOpen s, (ownsSession s r, .notPermitted)]
  run := doAccepted fun s r =>
    { s with nvm := { s.nvm with session := s.nvm.session.map fun x => { x with closing := some (tagN r, p32 r 0) } } }

/-- NVM_WRITE_END. -/
def execNvmWriteEnd (r : Req) (s : State) : Host.Outcome State Fault Refusal := .next (serve nvmWriteEndCmd r s)

/-- The body check of a closing session has been computed and, when it matches, the header written; `differs`: the
header's read-back differs, its words having kept the zeros of step 1 (R598 steps 3 and 4, R604, log entry 20). -/
def execNvmWriteEndDone (differs : Bool) (s : State) : Host.Outcome State Fault Refusal :=
  .next (match s.nvm.session with
    | some { region, src := _, len := n, closing := some (tag, want) } =>
      let s1 := { s with nvm := { s.nvm with session := none } }
      if crc32c (s.regionRead region 32 n) ≠ want then complete s1 0x7014 tag (tgt 10 region) .nvmFail
      else if differs then complete (verifyFail s1) 0x7014 tag (tgt 10 region) .nvmFail
      else complete (writeSlotHeader s1 region (nextSlotSeq s region) n) 0x7014 tag (tgt 10 region) .ok
    | _ => s)

/-- A session has received nothing from its owner for 60 s (R600). -/
def execNvmSessionIdleTimeout (s : State) : Host.Outcome State Fault Refusal :=
  .next (match s.nvm.session with
    | some x => if x.closing.isNone then abandonSession s 1 else s
    | none => s)

/-- NVM_INVALIDATE (0x7015). -/
def nvmInvalidateCmd : Cmd where
  op := 0x7015
  target := onRegion16
  len := len 4
  check := fun s r => firstFail [inv (p32 r 0 == 0x45524153), nvmOpen s,
    (!((ti r == 1 || ti r == 2) && slotValid s (ti r) && !slotValid s (otherSlot (ti r))), .notPermitted)]
  take := fun s r _ =>
    if (s.nvm.session.map (·.region)) == some (ti r) || (s.nvm.store.map (·.region)) == some (ti r)
    then some (.busy, []) else none
  run := doOk fun s r => eraseSlot s (ti r)

/-- NVM_INVALIDATE. -/
def execNvmInvalidate (r : Req) (s : State) : Host.Outcome State Fault Refusal := .next (serve nvmInvalidateCmd r s)

/-- NVM_COUNTERS_READ (0x7016). -/
def nvmCountersReadCmd : Cmd := readCmd 0x7016 onDevice 0 fun s _ => s.cblock 0x7016 0 0 0 4

/-- NVM_COUNTERS_READ. -/
def execNvmCountersRead (r : Req) (s : State) : Host.Outcome State Fault Refusal := .next (serve nvmCountersReadCmd r s)

/-- NVM_COUNTERS_CLEAR (0x7017). -/
def nvmCountersClearCmd : Cmd := clearCmd 0x7017 onDevice 0 (fun _ _ => [0]) fun s _ => s.clearCnt 0x7016 0

/-- NVM_COUNTERS_CLEAR. -/
def execNvmCountersClear (r : Req) (s : State) : Host.Outcome State Fault Refusal := .next (serve nvmCountersClearCmd r s)

end Sys2Proof.Machine
end

