-- ==== Sys2Proof/Machine/Calib.lean ====
section
/-! DEFINITION. Calibration: foreground calibration, the background engine Undertow, its steps, and the storing and
restoring of calibration slots (R580 to R594, R602, R603, R606). A block is a line port n as n, a host lane m as 128 + m. -/

namespace Sys2Proof.Machine

/-! ### Blocks and items (R580) -/

/-- Target word of a calibrated block. -/
def calT (b : Nat) : Nat := if b < 128 then portT b else laneT (b - 128)
/-- Temperature sensor of a block: its cove 0 to 15, its quay as 16 to 23. -/
def calSensor (b : Nat) : Nat := if b < 128 then b / 8 else 16 + (b - 128) / 8
/-- The block has the item. -/
def hasItem (b i : Nat) : Bool := i < 7 && (b < 128 || i != 3)
/-- The item is measured only on a quiet line. -/
def quietItem (b i : Nat) : Bool := hasItem b i && (i == 3 || i == 4)
/-- Allowed change per run, in steps. -/
def allowedChange (i : Nat) : Nat :=
  match i with
  | 0 => 4 | 1 => 8 | 2 => 20 | 3 => 4 | 4 => 2 | 5 => 5 | _ => 8
/-- Values of an item; of item 6 one per mode of a port, numbered by the mode (R580). -/
def itemValues (b i : Nat) : Nat :=
  if i ≤ 2 then (if b < 128 then 64 else 32) else if i = 5 then (if b < 128 then 3 else 2)
  else if i = 6 ∧ b < 128 then 10 else 1

/-- Undertow runs for the block: a port in states 1 to 5, a lane in states 1 to 4, its island not gated and the device not in
Parked (R586, R587). -/
def undertowOn (s : State) (b : Nat) : Bool :=
  (if b < 128 then
    match (s.port b).st with
    | .quiet => false | .slack => false | .test => false | _ => true
   else
    match (s.lane (b - 128)).st with
    | .quiet => false | .test => false | _ => true) &&
  !s.clk.gated.testBit (calSensor b) && s.power.mode != 3

/-- The block applies one step per boundary: a port at Up or LPI, a lane at Up (R591). -/
def stepsByBoundary (s : State) (b : Nat) : Bool :=
  if b < 128 then portLive s b else (s.lane (b - 128)).st == .up

/-! ### Failures, runs and steps -/

/-- An item fails: its counter, and `CAL_FAILED` at most once per second for the block. -/
def calFail (s : State) (b item cause : Nat) : State :=
  let s1 := (s.bump 0x7005 b (if cause = 2 then 4 else if cause = 3 then 5 else 3)).updCal b fun x => { x with
    failures := x.failures + 1, runFailed := setBit x.runFailed item }
  let due : Bool := match (s.cal b).eventAt with
    | some t => t + 4000000000 ≤ s.now
    | none => true
  if due then
    let n := (s1.cal b).failures
    raiseReady (s1.updCal b fun x => { x with failures := 0, eventAt := some s.now }) 0x7001 1 (calT b) 0 0
      (be 1 item ++ be 1 cause ++ be 2 (sat 16 n))
  else s1

/-- A run starts, ending a run of the block that only waits for quiet opportunities (R586, R590, log entry 25). -/
def startRun (s : State) (b : Nat) : State :=
  s.updCal b fun x => { x with
    running := true, measured := false, runFailed := 0, startRead := s.calib.sensors.get 0 (calSensor b) }

/-- A run ends: passed or failed, and the reference reading becomes that of its start (R586, R592). -/
def endRun (s : State) (b : Nat) : State :=
  let x := s.cal b
  let s1 := s.updCal b fun x => { x with running := false, measured := false, endedAt := some s.now, failed := x.runFailed
                                         last := if x.runFailed = 0 then 1 else 2 }
  let s2 := { s1 with calib := { s1.calib with refs := s1.calib.refs.set 0 (calSensor b) x.startRead } }
  s2.bump 0x7005 b (if x.runFailed = 0 then 0 else 1)

/-- The run ends when nothing is left to measure and to apply (R592). -/
def runCheck (s : State) (b : Nat) : State :=
  let x := s.cal b
  if x.running ∧ x.measured ∧ x.pending = 0 ∧ x.steps.isEmpty then endRun s b else s

/-- Apply `n` steps to a value of an item; a step at a line port suspends drift checks for 64 gauge windows (R209). -/
def applySteps (s : State) (b item value : Nat) (n : Int) : State :=
  let s1 := (s.updCal b fun x => { x with values := x.values.upd 0 (item * 64 + value) (· + n) }).bumpBy 0x7005 b 6 n.natAbs
  if b < 128 then s1.updPort b fun x => { x with dsp := { x.dsp with suspend := 64 } } else s1

/-- Apply every step that is left, at once (R591). -/
def applyAll (s : State) (b : Nat) : State :=
  let l := (s.cal b).steps
  l.foldl (fun s x => applySteps s b x.1 x.2.1 x.2.2) (s.updCal b fun x => { x with steps := [] })

/-- A passing result: its steps replace what is left of the item's, and apply at once unless the block carries a link. -/
def takeResult (s : State) (b : Nat) (r : ItemResult) : State :=
  let i := r.item.val
  let new := (r.deltas.filter fun d => d.2 ≠ 0 && d.1 < itemValues b i).map fun d => (i, d.1, d.2)
  let s1 := s.updCal b fun x => { x with
    steps := x.steps.filter (fun y => y.1 < i) ++ new ++ x.steps.filter (fun y => i < y.1)
    runFailed := clrBit x.runFailed i }
  if stepsByBoundary s b then s1 else applyAll s1 b

/-- The checks of R588 on a result, in their order. -/
def judgeItem (s : State) (b : Nat) (r : ItemResult) : State :=
  if !r.inLimits then calFail s b r.item 1
  else if r.deltas.any fun d => allowedChange r.item < d.2.natAbs then calFail s b r.item 2
  else takeResult s b r

/-! ### Device events of Undertow -/

/-- A run of a block that may start one: it ends a waiting run first. -/
def beginRun (s : State) (b : Nat) : State :=
  let x := s.cal b
  if !undertowOn s b ∨ (x.running ∧ !x.measured) then s
  else startRun (if x.running then endRun s b else s) b

/-- 100 ms after the last run in continuous mode (R586). -/
def execUndertowRunStart (b : CalBlock) (s : State) : Host.Outcome State Fault Refusal :=
  .next (if s.cfg.dev.calMode = 1 then beginRun s b else s)

/-- The blocks of a sensor: the ports of a cove, the lanes of a quay. -/
def sensorBlocks (k : Nat) : List Nat :=
  if k < 16 then (List.range 8).map (k * 8 + ·) else (List.range 8).map fun j => 128 + (k - 16) * 8 + j

/-- In triggered mode the blocks of a sensor whose reading is ΔT away from the reference start a run (R586). -/
def tempCompare (s : State) (k : Nat) : State :=
  if s.cfg.dev.calMode = 2 ∧ 4 * s.cfg.dev.calDelta ≤ (s.calib.sensors.get 0 k - s.calib.refs.get 0 k).natAbs then
    eachN s (sensorBlocks k) beginRun
  else s

/-- A cove's or quay's sensor reads; in triggered mode a reading ΔT from the reference starts a run on every block
(R586, R587). -/
def execUndertowTempTrigger (sensor : Fin 24) (reading : Int) (s : State) : Host.Outcome State Fault Refusal :=
  .next (tempCompare { s with calib := { s.calib with sensors := s.calib.sensors.set 0 sensor reading } } sensor)

/-- The in-traffic items have been measured over 2²⁴ symbols (R588); item 6 alone when only its run is due (R581). -/
def execUndertowMeasureDone (b : CalBlock) (results : List ItemResult) (s : State) : Host.Outcome State Fault Refusal :=
  .next (
    let x := s.cal b
    let inRun := x.running ∧ !x.measured
    let rs := results.filter fun r => hasItem b r.item && !quietItem b r.item && (inRun || r.item.val == 6)
    if !inRun ∧ !x.item6 then s
    else
      let s1 := rs.foldl (fun s r => judgeItem s b r) s
      let s2 := s1.updCal b fun y => { y with
        item6 := y.item6 && !(rs.any fun r => r.item.val == 6)
        measured := y.measured || inRun
        pending := if inRun then maskOf ((List.range 7).filter (quietItem b)) else y.pending }
      runCheck s2 b)

/-- The line of a block can be quiet now (R589): a port in state 1 or 3 or in its break interval, or with both directions in
low-power idle; a lane in Ebb or in state 1. -/
def quietChance (s : State) (b : Nat) : Bool :=
  if b < 128 then
    match (s.port b).st with
    | .down => true | .training => true
    | .lpi => (s.port b).power.lpiTx && (s.port b).power.lpiRx &&
        ((s.port b).resMode != 9 || ((s.port b).vs.txLpi == 2 && (s.port b).vs.rxLpi == 2))
    | _ => false
  else (s.lane (b - 128)).st == .ebb || (s.lane (b - 128)).st == .down

/-- A quiet-line item is measured between two energy readings, in mV peak-to-peak (R589, R590). -/
def execQuietOpportunityMeasure (b : CalBlock) (before after : Nat) (result : ItemResult) (s : State) :
    Host.Outcome State Fault Refusal :=
  .next (
    let i := result.item.val
    if !(s.cal b).pending.testBit i ∨ !undertowOn s b ∨ !quietChance s b then s
    else if 15 < before ∨ 15 < after then calFail s b i 3
    else runCheck (judgeItem (s.updCal b fun x => { x with pending := clrBit x.pending i }) b result) b)

/-- One step at a boundary, items in code order and values in index order; in any other state the whole change (R591). -/
def undertowStep (s : State) (b : Nat) : State :=
  if !stepsByBoundary s b then runCheck (applyAll s b) b
  else match (s.cal b).steps with
    | [] => s
    | (i, v, n) :: l =>
      let d : Int := if 0 < n then 1 else -1
      let s1 := s.updCal b fun x => { x with steps := if n = d then l else (i, v, n - d) :: l }
      runCheck (applySteps s1 b i v d) b

/-! ### Device stores and restoring (R593, R594) -/

/-- The free bytes of the records: the block's own layout (R594). -/
def recordBytes (ctr n : Nat) : List Byte := (List.range n).map fun i => Config.calByte (ctr + i)

/-- The body of a calibration slot. -/
def calBody (s : State) : List Byte :=
  be 1 1 ++ zeros 3 ++ be 8 Config.dieId.toNat ++ be 4 (sat 32 (s.keeper / 100000000)) ++
    ((List.range 24).map fun k => beI 4 (s.calib.refs.get 0 k)).flatten ++ recordBytes s.freeCtr (81920 + 16384)

/-- The slot that a device store targets: never the newest valid one (R599). -/
def storeSlot (s : State) : Nat := if newestSlot s 5 = some 5 then 6 else 5

/-- A device store begins: the header is zeroed first (R598). -/
def beginStore (s : State) (w : Option Waiter) : State :=
  let i := storeSlot s
  let q := nextSlotSeq s i
  let s1 := eraseSlot s i
  { s1 with nvm := { s1.nvm with store := some { region := i, seq := q, waiter := w } } }

/-- A device store ends: the body and the header are written and read back (R594, R598); `differs`: a read-back differs. -/
def endStore (s : State) (differs : Bool) : State :=
  match s.nvm.store with
  | none => s
  | some c =>
    let s1 := { s with nvm := { s.nvm with store := none } }
    let (s2, st) :=
      if differs then (s1.bump 0x7016 0 1, Status.nvmFail)
      else
        let s3 := { s1.regionWrite c.region 32 (calBody s) with freeCtr := s.freeCtr + (81920 + 16384) }
        (raiseReady (writeSlotHeader s3 c.region c.seq 98416) 0x7002 0 (tgt 10 c.region) 0 0 (be 1 c.region ++ be 4 c.seq),
          Status.ok)
    match c.waiter with
    | some w => closeWaiter s2 w 0 st
    | none => s2

/-- CAL_STORE_DONE. -/
def execCalStoreDone (differs : Bool) (s : State) : Host.Outcome State Fault Refusal := .next (endStore s differs)

/-- A calibration slot can be restored: valid, and of this die (R593). -/
def calUsable (s : State) (i : Nat) : Bool := slotValid s i && fld (s.slotBody i) 4 8 == Config.dieId.toNat

/-- Order `bs` into the foreground. -/
def toForeground (s : State) (bs : List Nat) : State :=
  { s with calib := { s.calib with foreground := (s.calib.foreground ++ bs).eraseDups } }

/-- At a start of reach 0 or 1: values are restored from the newest valid slot of this die, else from the older one, else
every block is calibrated in the foreground; a block with a value outside its limits is too (R583, R593). The readings are the
24 sensors' at the end of the start's calibration (R586). -/
def execCalibrationRestoreDone (outside : List (CalBlock × Fin 7)) (readings : List Int) (s : State) :
    Host.Outcome State Fault Refusal :=
  .next (
    if !s.rst.starting ∨ s.rst.reach = 2 ∨ !s.rst.bistDone ∨ s.rst.calDone then s
    else
      let s1 := { s with
        rst := { s.rst with calDone := true }
        calib := { s.calib with sensors := (readings.take 24).zipIdx.foldl (fun t x => t.set 0 x.2 x.1) s.calib.sensors
                                refs := (readings.take 24).zipIdx.foldl (fun t x => t.set 0 x.2 x.1) s.calib.refs
                                blocks := [] } }
      if calUsable s 5 || calUsable s 6 then
        let s2 := outside.foldl (fun s x => calFail s x.1 x.2 4) s1
        tryFirmware (toForeground s2 ((outside.map (·.1.val)).eraseDups))
      else
        let s2 := toForeground s1 (List.range 192)
        { s2 with rst := { s2.rst with boot := { s2.rst.boot with cal := 1 } }
                  calib := { s2.calib with startAll := true } })

/-- A start-time foreground calibration of every block has ended: auto-store follows (R594). -/
def autoStore (s : State) : State :=
  if s.calib.startAll && s.calib.foreground.isEmpty then
    let s1 := { s with calib := { s.calib with startAll := false } }
    if s.cfg.dev.calFlags.testBit 0 && !nvmBusy s && !s.nvm.off && nextSlotSeq s (storeSlot s) ≤ 0xFFFFFFFE then beginStore s1 none
    else s1
  else s

/-- A foreground calibration of a block ends: passing items take the measured values as their new start, failing ones keep
theirs (R582 to R585). -/
def execForegroundCalDone (b : CalBlock) (failed : List (Fin 7)) (s : State) : Host.Outcome State Fault Refusal :=
  .next (
    let start := s.calib.foreground.contains b.val
    let run := s.calib.jobs.any fun j => j.left.contains b.val
    if !start ∧ !run then s
    else
      let fs := (failed.map (·.val)).filter (hasItem b)
      let s1 := (s.bump 0x7005 b 7).updCal b fun x => { x with
        values := x.values.filter fun e => fs.contains (e.1 / 64)
        steps := x.steps.filter fun y => fs.contains y.1
        source := if start then 1 else x.source }
      let s2 := fs.foldl (fun s i => calFail s b i 1) s1
      let s3 := calJobDone { s2 with calib := { s2.calib with foreground := s2.calib.foreground.erase b.val } } b
        (if fs.isEmpty then .ok else .calFail)
      let s4 := if b.val < 128 then
          if (s3.port b).st = .test ∧ (s3.port b).test.action = 8 then
            setSt (s3.updPort b fun x => { x with test := {} }) b .down
          else s3
        else
          let m := b.val - 128
          if (s3.lane m).st = .test ∧ (s3.lane m).testAction = 8 then
            laneDown (s3.updLane m fun x => { x with testAction := 0 }) m
          else laneTrain s3 m
      tryFirmware (autoStore s4))

/-! ### Opcodes -/

/-- CAL_CONFIG (0x7001). -/
def calConfigCmd : Cmd := confCmd 0x7001 onDevice 4
  (fun _ r => firstFail [inv (rz r 3 1), inv (within (p8 r 0) 1 2), inv (p8 r 1 ≠ 0), inv (p8 r 2 ≤ 1), rng (p8 r 1 ≤ 20)])
  fun s r => { s with cfg := { s.cfg with dev := { s.cfg.dev with calMode := p8 r 0, calDelta := p8 r 1, calFlags := p8 r 2 } } }

/-- CAL_CONFIG. -/
def execCalConfig (r : Req) (s : State) : Host.Outcome State Fault Refusal := .next (serve calConfigCmd r s)

/-- The blocks of `CAL_RUN`'s masks. -/
def calBlocks (r : Req) : List Nat := portMask r 0 ++ (laneMask r 16).map (128 + ·)

/-- A block goes into its foreground calibration: one that carries or seeks a link through Test, a quiet one as it is
(R584). -/
def calEnter (s : State) (b : Nat) : State :=
  if b < 128 then
    if (s.port b).st = .quiet then s else enterTest s b 8
  else if (s.lane (b - 128)).st = .quiet then s
  else (setLane s (b - 128) .test).updLane (b - 128) fun x => { x with testAction := 8 }

/-- CAL_RUN (0x7002). -/
def calRunCmd : Cmd where
  op := 0x7002
  target := onDevice
  len := len 28
  check := fun s r => firstFail [inv (rz r 24 4), inv (wholeLinks s (laneMask r 16))]
  writes := true
  names := fun _ r => (calBlocks r).map calT
  take := fun s _ b => if (tgtDom b = 1 ∧ (s.port (tgtNum b)).st = .slack) ∨ (tgtDom b ≠ 1 ∧ s.ctl.safeState) then some (.notPermitted, [])
    else if s.calib.jobs.any fun j => j.left.contains (if tgtDom b = 1 then tgtNum b else 128 + tgtNum b) then
      some (.busySelftest, be 4 (Config.testRemaining s.freeCtr).toNat)
    else none
  run := doAccepted fun s r =>
    let w := waiterOf 0x7002 r
    if (calBlocks r).isEmpty then closeWaiter s w 0 .ok
    else
      let s1 := eachN s (linksTouched s (laneMask r 16)) fun s k => linkDrop s k 7
      let s2 := eachN s1 (calBlocks r) calEnter
      { s2 with calib := { s2.calib with jobs := s2.calib.jobs ++ [{ waiter := w, left := calBlocks r, status := 0 }] } }

/-- CAL_RUN. -/
def execCalRun (r : Req) (s : State) : Host.Outcome State Fault Refusal := .next (serve calRunCmd r s)

/-- State byte of `CAL_STATUS`. -/
def calState (s : State) (b : Nat) : Nat :=
  let x := s.cal b
  if s.calib.foreground.contains b || s.calib.jobs.any fun j => j.left.contains b then 4
  else if x.running && !x.measured then 1
  else if !x.steps.isEmpty then 3
  else if x.running then 2 else 0

/-- CAL_STATUS result, 16 bytes. -/
def calStatusData (s : State) (r : Req) : List Byte :=
  let b := if tgtDom (tw r) = 1 then ti r else 128 + ti r
  let x := s.cal b
  be 1 (calState s b) ++ be 1 x.last ++ be 1 x.failed ++ be 1 x.pending ++
    beI 2 (s.calib.sensors.get 0 (calSensor b)) ++ beI 2 (s.calib.refs.get 0 (calSensor b)) ++
    be 4 (match x.endedAt with | some t => sat 32 (s.secsSince t) | none => 0xFFFFFFFF) ++ be 1 x.source ++ zeros 3

/-- CAL_STATUS (0x7003). -/
def calStatusCmd : Cmd := readCmd 0x7003 onPortLane 0 calStatusData

/-- CAL_STATUS. -/
def execCalStatus (r : Req) (s : State) : Host.Outcome State Fault Refusal := .next (serve calStatusCmd r s)

/-- CAL_STORE (0x7004). -/
def calStoreCmd : Cmd where
  op := 0x7004
  target := onDevice
  len := len 0
  check := fun s _ => firstFail [nvmOpen s]
  take := fun s _ _ =>
    if nvmBusy s then some (.busy, [])
    else if 0xFFFFFFFE < nextSlotSeq s (storeSlot s) then some (.range, []) else none
  run := doAccepted fun s r => beginStore s (some (waiterOf 0x7004 r))

/-- CAL_STORE. -/
def execCalStore (r : Req) (s : State) : Host.Outcome State Fault Refusal := .next (serve calStoreCmd r s)

/-- CAL_COUNTERS_READ (0x7005). -/
def calCountersReadCmd : Cmd := readCmd 0x7005 onPortLane 0 fun s r =>
  s.cblock 0x7005 (tw r) (if tgtDom (tw r) = 1 then ti r else 128 + ti r) 0 8

/-- CAL_COUNTERS_READ. -/
def execCalCountersRead (r : Req) (s : State) : Host.Outcome State Fault Refusal := .next (serve calCountersReadCmd r s)

/-- CAL_COUNTERS_CLEAR (0x7006). -/
def calCountersClearCmd : Cmd := clearCmd 0x7006 onDevice 24 (fun _ r => (calBlocks r).map calT)
  fun s r => eachN s (calBlocks r) fun s b => s.clearCnt 0x7005 b

/-- CAL_COUNTERS_CLEAR. -/
def execCalCountersClear (r : Req) (s : State) : Host.Outcome State Fault Refusal := .next (serve calCountersClearCmd r s)

end Sys2Proof.Machine
end

