-- ==== Sys2Proof/Machine/Control.lean ====
section
/-! DEFINITION. Control path: identity and status, control path counters, authentication keys and policy, transport and
event settings, event reading and acknowledgement, `EVENT_NOTIFY`, the epoch's opening and abort, the reads of
Breakwater, and the two mailbox accesses that carry no packet (R39, R40, R67 to R90, R673 to R678). -/

namespace Sys2Proof.Machine

/-! ### Identity and status -/

/-- IDENTITY_READ result, 64 bytes. -/
def identityData (s : State) (_ : Req) : List Byte :=
  padTo 16 (ascii (if Config.isQ2 then "DZ128-Q2" else "DZ128-Q2E")) ++ ascii "B1" ++ be 2 1 ++
    be 8 Config.dieId.toNat ++ be 6 s.cfg.dev.cmdMac ++ be 1 s.rst.slot ++
    be 1 (b2n Config.isQ2 + 2 * s.fuses.minPolicy + 8 * b2n s.fuses.key0.programmed +
      16 * b2n s.fuses.key1.programmed + 32 * b2n s.fuses.key0.revoked + 64 * b2n s.fuses.key1.revoked) ++
    be 4 s.rst.fwVersion ++ zeros 24

/-- IDENTITY_READ (0x0001). -/
def identityReadCmd : Cmd where
  op := 0x0001
  target := onDevice
  len := len 0
  run := readOk identityData

/-- IDENTITY_READ. -/
def execIdentityRead (r : Req) (s : State) : Host.Outcome State Fault Refusal := .next (serve identityReadCmd r s)

/-- DEVICE_STATUS result, 32 bytes; the packets that wait count as used (log entry 8). -/
def deviceStatusData (s : State) (_ : Req) : List Byte :=
  be 1 s.rst.headland ++ be 1 s.epoch.state ++ be 1 s.epoch.owner ++ be 1 s.cfg.dev.policy ++ be 4 s.epoch.id ++
    be 2 s.ctl.cmdQueue.length ++ be 2 s.ctl.events.length ++ be 4 (s.ctl.nextEvent - 1) ++ be 4 s.ctl.newestAck ++ zeros 12

/-- DEVICE_STATUS (0x0002). -/
def deviceStatusCmd : Cmd where
  op := 0x0002
  target := onDevHead
  len := len 0
  run := readOk deviceStatusData

/-- DEVICE_STATUS. -/
def execDeviceStatus (r : Req) (s : State) : Host.Outcome State Fault Refusal := .next (serve deviceStatusCmd r s)

/-! ### Control path counters (R675) -/

/-- Sum of counter `i` over the 66 sources. -/
def sumSources (s : State) (i : Nat) : Nat := ((List.range 66).map fun k => s.cnt 0x0003 k i).sum % 2 ^ 64

/-- The counter block of R675 for the requesting source. -/
def controlCountersData (s : State) (r : Req) : List Byte :=
  s.block 0x0003 0 (sn r) (sn r)
    ((List.range 8).map (sumSources s) ++ [s.cnt 0x0003 66 8] ++ (List.range 8).map (s.cnt 0x0003 (sn r)))

/-- CONTROL_COUNTERS_READ (0x0003). -/
def controlCountersReadCmd : Cmd where
  op := 0x0003
  target := onDevice
  len := len 0
  run := readOk controlCountersData

/-- CONTROL_COUNTERS_READ. -/
def execControlCountersRead (r : Req) (s : State) : Host.Outcome State Fault Refusal :=
  .next (serve controlCountersReadCmd r s)

/-- CONTROL_COUNTERS_CLEAR (0x0004): the counters of every source and EVENT_LOST. -/
def controlCountersClearCmd : Cmd where
  op := 0x0004
  target := onDevice
  len := len 0
  run := doOk fun s _ => eachN s (List.range 67) fun s k => s.clearCnt 0x0003 k

/-- CONTROL_COUNTERS_CLEAR. -/
def execControlCountersClear (r : Req) (s : State) : Host.Outcome State Fault Refusal :=
  .next (serve controlCountersClearCmd r s)

/-! ### Authentication (R82 to R85) -/

/-- Write the record of a key slot. -/
def setSlot (s : State) (i : Nat) (k : KeySlot) : State :=
  { s with fuses := if i = 0 then { s.fuses with key0 := k } else { s.fuses with key1 := k } }

/-- Write the device settings. -/
def updDev (s : State) (f : DevCfg → DevCfg) : State := { s with cfg := { s.cfg with dev := f s.cfg.dev } }

/-- AUTH_POLICY_SET (0x0008). R47 does not order NOT_PERMITTED within step 8: the model judges it after every parameter
(DESIGN CHOICE, log entry 122). -/
def authPolicySetCmd : Cmd where
  op := 0x0008
  stageable := true
  target := onDevice
  len := len 4
  check := fun s r => firstFail [inv (rz r 2 2), inv (p8 r 0 ≤ 2), inv (p8 r 1 ≤ 1),
    (s.fuses.minPolicy ≤ p8 r 0, .notPermitted), ((s.fuses.slot (p8 r 1)).usable, .notPermitted)]
  writes := true
  run := doOk fun s r => updDev s fun d => { d with policy := p8 r 0, active := some (p8 r 1) }

/-- AUTH_POLICY_SET. -/
def execAuthPolicySet (r : Req) (s : State) : Host.Outcome State Fault Refusal := .next (serve authPolicySetCmd r s)

/-- AUTH_KEY_PROGRAM (0x0009): an unprogrammed, unrevoked slot; it becomes active when no slot is. -/
def authKeyProgramCmd : Cmd where
  op := 0x0009
  spiOnly := true
  target := onDevice
  len := len 20
  check := fun s r => firstFail [inv (rz r 1 3), inv (p8 r 0 ≤ 1),
    (!(s.fuses.slot (p8 r 0)).programmed && !(s.fuses.slot (p8 r 0)).revoked, .notPermitted)]
  writes := true
  run := doOk fun s r =>
    updDev (setSlot s (p8 r 0) { programmed := true, revoked := false, key := pN r 4 16 }) fun d =>
      { d with active := if d.active.isNone then some (p8 r 0) else d.active }

/-- AUTH_KEY_PROGRAM. -/
def execAuthKeyProgram (r : Req) (s : State) : Host.Outcome State Fault Refusal := .next (serve authKeyProgramCmd r s)

/-- AUTH_KEY_REVOKE (0x000A): the active slot gives way to the other usable one, or to none at policy 0. -/
def authKeyRevokeCmd : Cmd where
  op := 0x000A
  target := onDevice
  len := len 4
  check := fun s r => firstFail [inv (rz r 1 3), inv (p8 r 0 ≤ 1),
    (s.cfg.dev.active != some (p8 r 0) || (s.fuses.slot (1 - p8 r 0)).usable || s.cfg.dev.policy == 0, .notPermitted)]
  writes := true
  run := doOk fun s r =>
    let k := p8 r 0
    let s1 := setSlot s k { s.fuses.slot k with revoked := true }
    if s.cfg.dev.active = some k then
      updDev s1 fun d => { d with active := if (s.fuses.slot (1 - k)).usable then some (1 - k) else none }
    else s1

/-- AUTH_KEY_REVOKE. -/
def execAuthKeyRevoke (r : Req) (s : State) : Host.Outcome State Fault Refusal := .next (serve authKeyRevokeCmd r s)

/-! ### The epoch's opening, commit request, abort and status (R56, R60, R61, R87, R678) -/

/-- EPOCH_OPEN (0x0010). -/
def epochOpenCmd : Cmd where
  op := 0x0010
  target := onDevice
  len := len 4
  check := fun _ r => firstFail [inv (p32 r 0 ≠ 0), rng (p32 r 0 ≤ 3600)]
  take := fun s _ _ => if s.epoch.state ≠ 0 then some (.busy, []) else none
  run := fun s r =>
    let id := (s.epoch.id + 1) % 2 ^ 32
    ({ s with epoch := { s.epoch with state := 1, owner := sn r, id, idle := p32 r 0, staged := [], draft := none } },
      some (.ok, be 4 id ++ be 4 (2 * 1024 * 1024)))

/-- EPOCH_OPEN. -/
def execEpochOpen (r : Req) (s : State) : Host.Outcome State Fault Refusal := .next (serve epochOpenCmd r s)

/-- The epoch ends with an outcome: staged state is discarded, and `EPOCH_DONE` names it, but for the epoch of a
boot profile, which raises none (R62, R66, R569, R684). -/
def endEpoch (s : State) (op tag failed : Nat) (st : Status) : State :=
  let s1 := { s with epoch := { s.epoch with
    state := 0, owner := 0xFF, lastOutcome := st.code, staged := [], waiting := [], applied := [], failing := none, prior := none,
    draft := none, profile := none
    lastFailed := if s.epoch.owner = 0xFE then s.epoch.lastFailed else failed } }
  if s.epoch.owner = 0xFE then s1 else raiseReady s1 0x0002 0 0 op tag (be 2 st.code ++ be 4 failed)

/-- EPOCH_COMMIT (0x0011): prepare begins (R61); Parked answers BUSY (R356). R87 gives no place to its state checks beside the
parameters: reserved bits and the timeout are judged before NOT_PERMITTED, and the identifier after it (DESIGN CHOICE, log entry
122). -/
def epochCommitCmd : Cmd where
  op := 0x0011
  target := onDevice
  len := len 8
  check := fun s r => firstFail [inv (rz r 6 2), inv (p16 r 4 ≠ 0), rng (p16 r 4 ≤ 10000),
    (s.epoch.state != 0 && s.epoch.owner == sn r, .notPermitted), inv (p32 r 0 == s.epoch.id)]
  take := fun s _ _ => if 2 ≤ s.epoch.state ∨ s.power.mode = 3 then some (.busy, []) else none
  run := doAccepted fun s r =>
    { s with epoch := { s.epoch with state := 2, timeout := p16 r 4, tag := tagN r,
                                     waiting := (s.epoch.staged.flatMap (·.blocks)).eraseDups } }

/-- EPOCH_COMMIT. -/
def execEpochCommit (r : Req) (s : State) : Host.Outcome State Fault Refusal := .next (serve epochCommitCmd r s)

/-- EPOCH_ABORT (0x0012): from the owner, or over SPI from any source (R678); NOT_PERMITTED before the identifier (log entry
122). -/
def epochAbortCmd : Cmd where
  op := 0x0012
  target := onDevice
  len := len 4
  check := fun s r => firstFail [(s.epoch.state != 0 && (s.epoch.owner == sn r || sn r == 0), .notPermitted),
    inv (p32 r 0 == s.epoch.id)]
  take := fun s _ _ => if 2 ≤ s.epoch.state then some (.busy, []) else none
  run := doOk fun s r => endEpoch s 0x0012 (tagN r) 0xFFFFFFFF .epochRolledBack

/-- EPOCH_ABORT. -/
def execEpochAbort (r : Req) (s : State) : Host.Outcome State Fault Refusal := .next (serve epochAbortCmd r s)

/-- EPOCH_STATUS result, 16 bytes. -/
def epochStatusData (s : State) (_ : Req) : List Byte :=
  be 1 s.epoch.state ++ be 1 s.epoch.owner ++ be 2 s.epoch.lastOutcome ++ be 4 s.epoch.id ++
    be 4 (stagingUsed s.epoch) ++ be 4 s.epoch.lastFailed

/-- EPOCH_STATUS (0x0013). -/
def epochStatusCmd : Cmd where
  op := 0x0013
  target := onDevice
  len := len 0
  run := readOk epochStatusData

/-- EPOCH_STATUS. -/
def execEpochStatus (r : Req) (s : State) : Host.Outcome State Fault Refusal := .next (serve epochStatusCmd r s)

/-- An open epoch has received no packet from its owner for its idle timeout (R60). -/
def execEpochIdleTimeout (s : State) : Host.Outcome State Fault Refusal :=
  .next (if s.epoch.state = 1 ∧ s.epoch.owner ≠ 0xFE then endEpoch s 0 0 0xFFFFFFFF .epochRolledBack else s)

/-! ### Transports and events (R67 to R70, R88, R89, R683) -/

/-- TRANSPORT_CONFIG (0x0020). -/
def transportConfigCmd : Cmd where
  op := 0x0020
  stageable := true
  target := onDevice
  len := len 20
  check := fun _ r => firstFail [inv (rz r 17 3), inv (!etherTypeBarred (p16 r 0)), inv (p8 r 2 % 2 == 0),
    inv (p8 r 16 ≤ 1)]
  writes := true
  run := doOk fun s r => updDev s fun d =>
    { d with etherType := p16 r 0, cmdMac := pN r 2 6, inband := p64 r 8, mgmtOn := p8 r 16 == 1 }

/-- TRANSPORT_CONFIG. -/
def execTransportConfig (r : Req) (s : State) : Host.Outcome State Fault Refusal :=
  .next (serve transportConfigCmd r s)

/-- EVENT_ROUTE (0x0030). -/
def eventRouteCmd : Cmd where
  op := 0x0030
  stageable := true
  target := onDevice
  len := len 8
  check := fun _ r => firstFail [inv (p8 r 0 ≤ 2), inv (p8 r 1 ≤ 63)]
  writes := true
  run := doOk fun s r => updDev s fun d => { d with route := p8 r 0, routeLink := p8 r 1, routeMac := pN r 2 6 }

/-- EVENT_ROUTE. -/
def execEventRoute (r : Req) (s : State) : Host.Outcome State Fault Refusal := .next (serve eventRouteCmd r s)

/-- EVENT_MASK (0x0031). -/
def eventMaskCmd : Cmd where
  op := 0x0031
  stageable := true
  target := onDevice
  len := len 4
  check := fun _ r => firstFail [inv (rz r 1 3), inv (p8 r 0 ≤ 15)]
  writes := true
  run := doOk fun s r => updDev s fun d => { d with evMask := p8 r 0 }

/-- EVENT_MASK. -/
def execEventMask (r : Req) (s : State) : Host.Outcome State Fault Refusal := .next (serve eventMaskCmd r s)

/-- The 32 bytes of an event record (R67). -/
def EventRec.bytes (e : EventRec) : List Byte :=
  be 4 e.seq ++ be 2 e.code ++ be 1 e.sev ++ be 1 (b2n e.tmValid) ++ be 4 e.src ++ be 8 e.tidemark ++
    be 2 e.op ++ be 2 e.tag ++ e.detail

/-- EVENT_READ (0x0032). -/
def eventReadCmd : Cmd where
  op := 0x0032
  target := onDevice
  len := len 4
  run := readOk fun s r =>
    (((s.ctl.events.filter fun e => p32 r 0 ≤ e.seq).take 31).map EventRec.bytes).flatten

/-- EVENT_READ. -/
def execEventRead (r : Req) (s : State) : Host.Outcome State Fault Refusal := .next (serve eventReadCmd r s)

/-- Free every record up to event sequence `q` (R70), then queue the overflow record that is due (R68). -/
def ackEvents (s : State) (q : Nat) : State :=
  overflowNote { s with ctl := { s.ctl with
    events := s.ctl.events.filter fun e => q < e.seq
    newestAck := max s.ctl.newestAck (min q (s.ctl.nextEvent - 1)) } }

/-- EVENT_ACK (0x0033). -/
def eventAckCmd : Cmd where
  op := 0x0033
  target := onDevice
  len := len 4
  run := doOk fun s r => ackEvents s (p32 r 0)

/-- EVENT_ACK. -/
def execEventAck (r : Req) (s : State) : Host.Outcome State Fault Refusal := .next (serve eventAckCmd r s)

/-- Source number of the event route. -/
def routeSrc (s : State) : Nat :=
  if s.cfg.dev.route = 0 then 0 else if s.cfg.dev.route = 1 then 1 else 2 + s.cfg.dev.routeLink

/-- The event route can take an `EVENT_NOTIFY` now (R40, R69, R391, R683). -/
def routeReady (s : State) : Bool :=
  if s.cfg.dev.route = 0 then s.ctl.spiQueue.length < 32 && (s.ctl.spiQueue.filter (·.event)).length < 24
  else if s.cfg.dev.route = 1 then s.cfg.dev.mgmtOn && s.ctl.mgmtUp
  else s.linkWidth s.cfg.dev.routeLink != 0 && (s.link s.cfg.dev.routeLink).st == .up

/-- Records not yet sent in an `EVENT_NOTIFY`, at most 31 (R69). -/
def unsent (s : State) : List EventRec := (s.ctl.events.filter fun e => s.ctl.notified < e.seq).take 31

/-- Build and send one `EVENT_NOTIFY` (R676). -/
def notifyEvents (s : State) : State :=
  let es := unsent s
  let q := s.ctl.notifySeq.get 0 (routeSrc s) + 1
  let p : Packet := { dest := routeSrc s, da := s.cfg.dev.routeMac, opcode := 0x0040, tag := 0, target := 0,
                      seq := q % 65536, flags := 0x80, status := 0,
                      data := be 4 es.length ++ (es.map EventRec.bytes).flatten, cmac := none, event := true }
  let s1 := { s with ctl := { s.ctl with
    notified := (es.getLast?.map (·.seq)).getD s.ctl.notified
    notifySeq := s.ctl.notifySeq.set 0 (routeSrc s) q } }
  sendPacket s1 (withCmac s p)

/-- EVENT_NOTIFY: the device sends queued records once the route can take them, and nothing while it cannot. -/
def execEventNotify (s : State) : Host.Outcome State Fault Refusal :=
  .next (if s.ctl.feReady && routeReady s && !(unsent s).isEmpty then notifyEvents s else s)

/-- The management lane comes up or goes down (R683). -/
def execManagementLaneLinkChange (up : Bool) (s : State) : Host.Outcome State Fault Refusal :=
  .next { s with ctl := { s.ctl with mgmtUp := up } }

/-! ### Reads of Breakwater (R71, R81) -/

/-- The 32 bytes of a fault entry (R81). -/
def FaultEntry.bytes (e : FaultEntry) : List Byte :=
  be 4 e.seq ++ be 2 e.code ++ be 1 e.cls ++ be 1 (b2n e.tmValid) ++ be 4 e.src ++ be 8 e.keeperTime ++
    be 8 e.tidemark ++ e.detail

/-- READ_FAULT_RECORD (0xF002). -/
def readFaultRecordCmd : Cmd where
  op := 0xF002
  bw := true
  target := onDevice
  len := len 4
  check := fun _ r => firstFail [rng (p16 r 0 ≤ 63), rng (p16 r 2 ≤ 32)]
  run := readOk fun s r => ((((s.integ.record.take 64).drop (p16 r 0)).take (p16 r 2)).map FaultEntry.bytes).flatten

/-- READ_FAULT_RECORD. -/
def execReadFaultRecord (r : Req) (s : State) : Host.Outcome State Fault Refusal :=
  .next (serve readFaultRecordCmd r s)

/-- ECHO (0xF005). -/
def echoCmd : Cmd where
  op := 0xF005
  bw := true
  target := onDevice
  len := fun ps => ps.length ≤ 1024
  run := readOk fun _ r => r.params

/-- ECHO. -/
def execEcho (r : Req) (s : State) : Host.Outcome State Fault Refusal := .next (serve echoCmd r s)

/-- READ_CORE_STATUS result, 16 bytes. -/
def coreStatusData (s : State) (_ : Req) : List Byte :=
  be 1 s.rst.headland ++ be 1 s.rst.slot ++ be 1 (b2n s.ctl.safeState + 2 * b2n (anyQuietHold s)) ++
    be 1 (b2n (faultN s) + 2 * b2n (intN s)) ++ be 4 (resetActivity s) ++ be 4 s.clk.clkFail ++
    be 4 s.integ.faultSeq

/-- READ_CORE_STATUS (0xF006). -/
def readCoreStatusCmd : Cmd where
  op := 0xF006
  bw := true
  target := onDevHead
  len := len 0
  run := readOk coreStatusData

/-- READ_CORE_STATUS. -/
def execReadCoreStatus (r : Req) (s : State) : Host.Outcome State Fault Refusal := .next (serve readCoreStatusCmd r s)

/-- DEVICE_WARM_RESET (0xF004): the confirmation word; the reset follows in its own row (R80). -/
def deviceWarmResetCmd : Cmd where
  op := 0xF004
  bw := true
  target := onDevice
  len := len 4
  check := fun _ r => firstFail [inv (p32 r 0 == 0x5741524D)]
  run := doOk fun s _ => { s with rst := { s.rst with warmDue := 1 } }

/-- DEVICE_WARM_RESET. -/
def execDeviceWarmReset (r : Req) (s : State) : Host.Outcome State Fault Refusal := .next (serve deviceWarmResetCmd r s)

/-! ### Mailbox accesses (R39, R40) -/

/-- A doorbell write of 0x0000_0002 releases the reply window, and the next packet appears (R40). -/
def execMbxDoorbellRelease (s : State) : Host.Outcome State Fault Refusal :=
  .next { s with ctl := { s.ctl with spiQueue := s.ctl.spiQueue.drop 1 } }

/-- Write bytes into the request window from an address upward; bytes past 0x07FF fall outside it (R39). -/
def windowWrite (w : Tab Byte) : Nat → List Byte → Tab Byte
  | _, [] => w
  | a, b :: bs => windowWrite (if a < 0x800 then w.set 0 a b else w) (a + 1) bs

/-- A WRITE transaction to the request window: ignored and counted while REQ_BUSY is 1 (R39). -/
def execRequestWindowWrite (addr : BitVec 11) (bytes : List Byte) (s : State) : Host.Outcome State Fault Refusal :=
  .next (if s.ctl.reqBusy then s.bump 0x0003 0 6
    else { s with ctl := { s.ctl with window := windowWrite s.ctl.window addr.toNat bytes } })

end Sys2Proof.Machine
end

