-- ==== Sys2Proof/Machine/Fabric.lean ====
section
/-! DEFINITION. Tideway: queue limits, schedulers, shapers, gates at the scheduler, row errors and retirement, and the
commands 0x3001 to 0x3014 (R412 to R444); `SLICE_GATE` stands with the other gating commands. -/

namespace Sys2Proof.Machine

/-! ### Positions and rates -/

/-- An egress position exists: a port, or a host link in use (R439). -/
def posOk (s : State) (e : Nat) : Bool := e < 128 || (e < 192 && s.linkWidth (e - 128) != 0)

/-- Slice of the queues of an egress position: of a port its shoal's, of a link its quay's home slice (R16). -/
def posSlice (e : Nat) : Nat := if e < 128 then e / 32 else ((e - 128) / 8) % 4

/-- Configured rate of an egress position, kbit/s (R429). -/
def confRate (s : State) (e : Nat) : Nat :=
  if e < 128 then
    let m := (s.pcfg e).mode
    if m.neg = 1 then ((maskList 10 m.adv).map modeRate).foldl max 0 else modeRate m.mode
  else s.linkWidth (e - 128) * 100000000

/-- Resolved rate of an egress position, kbit/s; the configured one while no link is up. -/
def egressRate (s : State) (e : Nat) : Nat :=
  if e < 128 ∧ portLive s e then modeRate (s.port e).resMode else confRate s e

/-- idleSlope of class `t` at an egress position, scaled to the resolved rate (R429), kbit/s. -/
def slopeOf (s : State) (e t : Nat) : Nat :=
  s.cfg.fabric.shapers.get 0 (qn e t) * egressRate s e / max 1 (confRate s e)

/-- Greatest frame length of an egress position. -/
def maxFrameOf (s : State) (e : Nat) : Nat :=
  if e < 128 then (s.pcfg e).mode.maxFrame else (s.cfg.links.get {} (e - 128)).maxFrame

/-! ### Gates at the scheduler (R467, R468) -/

/-- Entries of a list as a cycle runs them: (gate states, operation, time in ns). An entry ends at the cycle's end at the
latest, and the last one lasts until it (IEEE 802.1Qbv clause 8.6.9). -/
def cycleList (cycle : Nat) : Nat → List (Nat × Nat × Nat) → List (Nat × Nat × Nat)
  | _, [] => []
  | t, (g, op, d) :: l =>
    if cycle ≤ t then [] else if l.isEmpty then [(g, op, cycle - t)]
    else (g, op, min d (cycle - t)) :: cycleList cycle (t + d) l

/-- The running list of an egress position. -/
def operOf (s : State) (e : Nat) : GclRun := s.strm.gcl.get {} e

/-- Gates run at an egress position: enabled, with a list, and the port not multidrop (R468). -/
def gatesRun (s : State) (e : Nat) : Bool :=
  (operOf s e).oper.on && !(operOf s e).oper.list.isEmpty && !(e < 128 && (s.pcfg e).mode.mode == 2)

/-- The gate of class `t` is open. -/
def gateOpen (s : State) (e t : Nat) : Bool :=
  !gatesRun s e || ((operOf s e).oper.list.getD (operOf s e).cur (0xFF, 0, 0)).1.testBit t

/-- Longest run of open time in a list, given the run so far and the best. -/
def longestOpen (t : Nat) : Nat → Nat → List (Nat × Nat × Nat) → Nat
  | run, best, [] => max run best
  | run, best, (g, _, d) :: l => if g.testBit t then longestOpen t (run + d) best l else longestOpen t 0 (max run best) l

/-- The class's gate is never closed by the list. -/
def neverCloses (l : List (Nat × Nat × Nat)) (t : Nat) : Bool := l.all fun x => x.1.testBit t

/-- Open time at the front of a list. -/
def openFront (t : Nat) : List (Nat × Nat × Nat) → Nat
  | [] => 0
  | (g, _, d) :: l => if g.testBit t then d + openFront t l else 0

/-- Time in ns that a frame of `n` bytes takes at an egress, preamble and inter-frame gap included. -/
def txTime (s : State) (e n : Nat) : Nat := ((n + 20) * 8 * 1000000 + (egressRate s e - 1)) / max 1 (egressRate s e)

/-- Time in ns from `t` on to the entry of a list that opens a gate which its predecessor, with gates `g`, holds closed. -/
def untilOpen : Nat → Nat → List (Nat × Nat × Nat) → Option Nat
  | _, _, [] => none
  | g, t, (g', _, d) :: l => if g' ||| g = g then untilOpen g' (t + d) l else some t

/-- Ticker units to the next gate-open event of an egress (R338). -/
def opensIn (s : State) (e : Nat) : Option Nat :=
  let l := cycleList (operOf s e).oper.cycle 0 (operOf s e).oper.list
  let k := (operOf s e).cur
  match gatesRun s e, l.drop k with
  | true, (g, _, d) :: rest => (untilOpen g d (rest ++ l.take (k + 1))).map fun t => 4 * t - (s.now - (operOf s e).curAt)
  | _, _ => none

/-- A frame of `n` bytes is longer than the longest open interval of its class (R468). -/
def tooLong (s : State) (e t n : Nat) : Bool :=
  gatesRun s e &&
    (let l := cycleList (operOf s e).oper.cycle 0 (operOf s e).oper.list
     !neverCloses l t && longestOpen t 0 0 (l ++ l) < txTime s e n)

/-- Preemption is active at an egress and class `t` is preemptable there. -/
def preemptable (s : State) (e t : Nat) : Bool :=
  e < 128 && (s.strm.preempt.get {} e).active && (s.cfg.streams.preempt.get {} e).mask.testBit t

/-- The frame ends before its class's gate closes, or is exempt from the test (R467). -/
def fitsGate (s : State) (e t n : Nat) : Bool :=
  !gatesRun s e || preemptable s e t ||
    (let l := cycleList (operOf s e).oper.cycle 0 (operOf s e).oper.list
     let k := (operOf s e).cur
     neverCloses l t || txTime s e n + (s.now - (operOf s e).curAt) / 4 ≤ openFront t (l.drop k ++ l.take k ++ l))

/-! ### Shapers (R428, R429) -/

/-- Credit is kept in units of 1/4,000,000 bit, so that one kbit/s adds one unit in each 0.25 ns. -/
def creditUnit : Int := 4000000

/-- The credit of class `t` at an egress after `d` ticks, in the state that the queue has had since (R428). -/
def creditAfter (s : State) (e t d : Nat) (c : Int) : Int :=
  let slope : Int := slopeOf s e t
  let rate : Int := egressRate s e
  let big : Int := maxFrameOf s e * 8 * creditUnit
  if slope = 0 then 0
  else if ((s.egr e).mac.map fun m => m.cls == t && m.started).getD false then
    max (c + (slope - rate) * d) (big * (slope - rate) / max 1 rate)
  else if (s.queue (qn e t)).isEmpty then (if c < 0 then min 0 (c + slope * d) else 0)
  else min (c + slope * d) (big * slope / max 1 rate)

/-- Bring the credits of an egress up to the present. -/
def settleCredit (s : State) (e : Nat) : State :=
  let d := s.now - (s.egr e).creditAt
  s.updEgr e fun x => { x with credit := x.credit.mapIdx fun t c => creditAfter s e t d c, creditAt := s.now }

/-- The shaper of class `t` lets it send: off, or its credit is zero or more. -/
def creditOk (s : State) (e t : Nat) : Bool :=
  s.cfg.fabric.shapers.get 0 (qn e t) == 0 ||
    0 ≤ creditAfter s e t (s.now - (s.egr e).creditAt) ((s.egr e).credit.getD t 0)

/-! ### The scheduler (R427) -/

/-- Length of the frame at the head of class `t`, 0 when the queue is empty. -/
def headLen (s : State) (e t : Nat) : Nat :=
  (((s.queue (qn e t)).head?.bind s.frame).map (·.bytes.length)).getD 0

/-- Class `t` is eligible: it holds a frame, its gate is open, and its credit allows it. -/
def eligible (s : State) (e t : Nat) : Bool :=
  !(s.queue (qn e t)).isEmpty && gateOpen s e t && creditOk s e t

/-- Class `t` may start its head frame now (R427, R467); while a held frame waits, only express classes may. -/
def mayStart (s : State) (e t : Nat) : Bool :=
  eligible s e t && fitsGate s e t (headLen s e t) &&
    !(preemptable s e t && ((s.egr e).held.isSome || (operOf s e).hold))

/-- Deficit weighted round robin below the strict boundary: the class served and the deficits after it. The class whose
turn it is is served while its deficit covers its head frame; then the turn passes to the next class, which takes its
quantum (R427; the order of turns is log entry 14). -/
def dwrr (s : State) (e : Nat) (c : SchedCfg) : Nat → Nat → List Nat → Option (Nat × List Nat)
  | 0, _, _ => none
  | fuel + 1, t, ds =>
    if mayStart s e t && headLen s e t ≤ ds.getD t 0 then
      some (t, ds.set t (ds.getD t 0 - headLen s e t))
    else
      let ds' := if (s.queue (qn e t)).isEmpty then ds.set t 0 else ds
      let t' := (t + 1) % max 1 c.strict
      dwrr s e c fuel t' (if (s.queue (qn e t')).isEmpty then ds' else
        ds'.set t' (ds'.getD t' 0 + c.weights.getD t' 0 * 256))

/-- The class that the scheduler chooses, with the deficits and turn after it (R427). -/
def schedule (s : State) (e : Nat) : Option (Nat × List Nat × Nat) :=
  let c := s.cfg.fabric.scheds.get {} e
  match ((List.range 8).map (7 - ·)).find? fun t => c.strict ≤ t && mayStart s e t with
  | some t => some (t, (s.egr e).deficit, (s.egr e).turn)
  | none =>
    if (List.range c.strict).any (mayStart s e) then
      (dwrr s e c 400 ((s.egr e).turn % max 1 c.strict) (s.egr e).deficit).map fun x => (x.1, x.2, x.1)
    else none

/-! ### Row errors (R414, R416, R437) -/

/-- A row is retired, or its bank has met its limit: the event, and fault 0x0902 at the limit (R416, R513). -/
def retireRow (s : State) (bank row : Nat) : State :=
  let b := s.stest.banks.get {} bank
  if b.retired.length < 64 then
    let s1 := { s with stest := { s.stest with banks := s.stest.banks.set {} bank { b with retired := b.retired ++ [row] } } }
    raise (s1.bump 0x3013 (bank / 32) 5) 0x3002 1 (sliceT (bank / 32))
      (be 1 bank ++ be 1 0 ++ be 2 row ++ be 1 (b.retired.length + 1))
  else
    let s1 := s.updSlice (bank / 32) fun x => { x with limit := true }
    let s2 := raise s1 0x3002 1 (sliceT (bank / 32)) (be 1 bank ++ be 1 1 ++ be 2 row ++ be 1 b.retired.length)
    safetyFault (setPresent s2 1 true) 1 (sliceT (bank / 32)) (be 1 bank ++ be 1 0 ++ be 2 row)

/-- A reset whose reach covers slice `i` gives its retired rows back (R416). -/
def freshRows (s : State) (i : Nat) : State :=
  let banks := s.stest.banks.map fun e => if e.1 / 32 = i then (e.1, { e.2 with retired := [] }) else e
  let s1 := ({ s with stest := { s.stest with banks } }).updSlice i fun x => { x with limit := false }
  setPresent s1 1 ((List.range 4).any fun j => (s1.slice j).limit)

/-- `FABRIC_CELL_ERROR`: event, entry of class 2, and the rate count of its slice (R513, R514). -/
def cellError (s : State) (slice kind bank row affected : Nat) : State :=
  let d := be 1 kind ++ be 1 bank ++ be 2 row ++ be 1 affected
  let s1 := raise (faultEntry s 0x3001 2 (sliceT slice) (d.take 4)) 0x3001 2 (sliceT slice) d
  rateError s1 slice 0

/-- An uncorrectable word of a row: counted, reported, and its row retired (R414). -/
def uncorrectable (s : State) (bank row affected : Nat) : State :=
  retireRow (cellError (s.bump 0x3013 (bank / 32) 3) (bank / 32) 0 bank row affected) bank row

/-- SCRUB_READ: the scrubber reads one row: `words` of it corrected, or uncorrectable; `live` when it holds a live cell;
`last` when the slice's pass is complete (R415). -/
def execScrubRead (bank : Fin 128) (row : Fin 8192) (words : Nat) (bad live last : Bool) (s : State) :
    Host.Outcome State Fault Refusal :=
  let i := bank.val / 32
  .next (if s.cfg.fabric.scrub && !islandShut s (24 + i) then
    let s1 := s.bumpBy 0x3013 i 2 words
    let s2 := if bad then uncorrectable s1 bank.val row.val (b2n live) else s1
    if last then s2.bump 0x3013 i 7 else s2
  else s)

/-! ### Commands -/

/-- The slice of the egress position that the parameters name at offset 0. -/
def namesPos (_ : State) (r : Req) : List Nat := [sliceT (posSlice (p16 r 0))]

/-- The four slices. -/
def namesFabric (_ : State) (_ : Req) : List Nat := (List.range 4).map sliceT

/-- Change the committed fabric configuration. -/
def updFabricCfg (s : State) (f : FabricCfg → FabricCfg) : State :=
  { s with cfg := { s.cfg with fabric := f s.cfg.fabric } }

/-- FABRIC_CONFIG (0x3001). -/
def fabricConfigCmd : Cmd :=
  { confCmd 0x3001 onFabric 8
      (fun _ r => firstFail [inv (p8 r 0 ≤ 1), inv (rz r 1 1), inv (rz r 4 4), inv (p16 r 2 ≠ 0),
        rng (within (p16 r 2) 10 10000)])
      (fun s r => updFabricCfg s fun f => { f with scrub := p8 r 0 == 1, scrubMs := p16 r 2 }) with
    names := namesFabric }

/-- FABRIC_CONFIG. -/
def execFabricConfig (r : Req) (s : State) : Host.Outcome State Fault Refusal := .next (serve fabricConfigCmd r s)

/-- A reset of the slice is asserted or starting up. -/
def sliceInReset (s : State) (i : Nat) : Bool :=
  s.rst.jobs.any fun j => j.phase != 0 && coversIsland j (24 + i)

/-- One entry of FABRIC_STATUS. -/
def sliceEntry (s : State) (i : Nat) : List Byte :=
  let st := if sliceInReset s i then 3 else if s.clk.gated.testBit (24 + i) then 1
    else if s.ctl.safeState || (s.slice i).stopped then 2 else 0
  be 1 st ++ be 1 (b2n (s.slice i).exhausted + 2 * b2n (s.slice i).limit) ++ be 4 (poolFree s i) ++ be 2 (retiredRows s i)

/-- FABRIC_STATUS (0x3002). -/
def fabricStatusCmd : Cmd := readCmd 0x3002 onFabric 0 fun s _ => ((List.range 4).map (sliceEntry s)).flatten

/-- FABRIC_STATUS. -/
def execFabricStatus (r : Req) (s : State) : Host.Outcome State Fault Refusal := .next (serve fabricStatusCmd r s)

/-- The queue settings that a QUEUE_CONFIG makes. -/
def queueSet (f : FabricCfg) (r : Req) : FabricCfg :=
  let c : QueueCfg := { min := p32 r 4, static := p8 r 3 == 2, max := p32 r 8, alpha := i8 r 12 }
  { f with queues := (maskList 8 (p8 r 2)).foldl (fun q t => q.set {} (qn (p16 r 0) t) c) f.queues }

/-- QUEUE_CONFIG (0x3003). -/
def queueConfigCmd : Cmd :=
  { confCmd 0x3003 onFabric 16
      (fun s r => firstFail [inv (rz r 13 3), inv (posOk s (p16 r 0)), inv (within (p8 r 3) 1 2),
        inv (if p8 r 3 = 2 then p32 r 8 ≠ 0 && p8 r 12 == 0 else p32 r 8 == 0),
        rng (p32 r 4 ≤ 4096), rng (p32 r 8 ≤ 253696), rng (p8 r 3 == 2 || withinI (i8 r 12) (-6) 3),
        rng (minSum (queueSet s.cfg.fabric r) ≤ 65536)])
      (fun s r => updFabricCfg s fun f => queueSet f r) with
    names := namesPos }

/-- QUEUE_CONFIG. -/
def execQueueConfig (r : Req) (s : State) : Host.Outcome State Fault Refusal := .next (serve queueConfigCmd r s)

/-- SCHEDULER_CONFIG (0x3004): all deficits return to zero. -/
def schedulerConfigCmd : Cmd :=
  { confCmd 0x3004 onFabric 12
      (fun s r => firstFail [inv (rz r 3 1), inv (posOk s (p16 r 0)),
        inv ((List.range 8).all fun t => if t < p8 r 2 then p8 r (4 + t) ≠ 0 else p8 r (4 + t) == 0),
        inv ((List.range 8).all fun t => p8 r 2 ≤ t || s.cfg.fabric.shapers.get 0 (qn (p16 r 0) t) == 0),
        rng (p8 r 2 ≤ 8), rng ((List.range 8).all fun t => p8 r (4 + t) ≤ 127)])
      (fun s r =>
        let c : SchedCfg := { strict := p8 r 2, weights := (List.range 8).map fun t => p8 r (4 + t) }
        let s1 := updFabricCfg s fun f => { f with scheds := f.scheds.set {} (p16 r 0) c }
        s1.updEgr (p16 r 0) fun x => { x with deficit := List.replicate 8 0, turn := 0 }) with
    names := namesPos }

/-- SCHEDULER_CONFIG. -/
def execSchedulerConfig (r : Req) (s : State) : Host.Outcome State Fault Refusal := .next (serve schedulerConfigCmd r s)

/-- Sum of the idleSlopes of a position with the one that a SHAPER_CONFIG sets. -/
def slopeSum (s : State) (e t v : Nat) : Nat :=
  ((List.range 8).map fun u => if u = t then v else s.cfg.fabric.shapers.get 0 (qn e u)).sum

/-- SHAPER_CONFIG (0x3005): credit starts at zero, and turning off clears it. -/
def shaperConfigCmd : Cmd :=
  { confCmd 0x3005 onFabric 8
      (fun s r => firstFail [inv (posOk s (p16 r 0)), inv (p8 r 2 ≤ 7), inv (p8 r 3 ≤ 1),
        inv (if p8 r 3 = 1 then p32 r 4 ≠ 0 else p32 r 4 == 0),
        inv (p8 r 3 == 0 || (s.cfg.fabric.scheds.get {} (p16 r 0)).strict ≤ p8 r 2),
        rng (p32 r 4 ≤ confRate s (p16 r 0)),
        rng (slopeSum s (p16 r 0) (p8 r 2) (p32 r 4) * 4 ≤ confRate s (p16 r 0) * 3)])
      (fun s r =>
        let s1 := settleCredit s (p16 r 0)
        let s2 := updFabricCfg s1 fun f => { f with shapers := f.shapers.set 0 (qn (p16 r 0) (p8 r 2)) (p32 r 4) }
        s2.updEgr (p16 r 0) fun x => { x with credit := x.credit.set (p8 r 2) 0 }) with
    names := namesPos }

/-- SHAPER_CONFIG. -/
def execShaperConfig (r : Req) (s : State) : Host.Outcome State Fault Refusal := .next (serve shaperConfigCmd r s)

/-- CUT_THROUGH_CONFIG (0x3006). -/
def cutThroughConfigCmd : Cmd :=
  { confCmd 0x3006 onFabric 48 (fun _ _ => none)
      (fun s r => updFabricCfg s fun f => { f with ctInPorts := pN r 0 16, ctInLinks := p64 r 16,
                                                   ctOutPorts := pN r 24 16, ctOutLinks := p64 r 40 }) with
    names := namesFabric }

/-- CUT_THROUGH_CONFIG. -/
def execCutThroughConfig (r : Req) (s : State) : Host.Outcome State Fault Refusal :=
  .next (serve cutThroughConfigCmd r s)

/-- The eight bytes of one class in QUEUE_STATUS. -/
def queueEntry (s : State) (e t : Nat) : List Byte :=
  be 4 (s.occAll (qn e t)) ++ be 3 (sat 24 (s.fabric.marks.get 0 (qn e t))) ++
    be 1 (b2n (eligible s e t) + 2 * b2n (gateOpen s e t) + 4 * b2n (!creditOk s e t) +
      8 * b2n (s.cfg.fabric.shapers.get 0 (qn e t) != 0 && egressRate s e < confRate s e))

/-- QUEUE_STATUS (0x3010). -/
def queueStatusCmd : Cmd :=
  { readCmd 0x3010 onFabric 4 (fun s r => ((List.range 8).map (queueEntry s (p16 r 0))).flatten) with
    check := fun s r => firstFail [inv (rz r 2 2), inv (posOk s (p16 r 0))], names := namesPos }

/-- QUEUE_STATUS. -/
def execQueueStatus (r : Req) (s : State) : Host.Outcome State Fault Refusal := .next (serve queueStatusCmd r s)

/-- QUEUE_COUNTERS_READ (0x3011). -/
def queueCountersReadCmd : Cmd :=
  { readCmd 0x3011 onFabric 4 (fun s r => s.cblock 0x3011 (tw r) (qn (p16 r 0) (p8 r 2)) (p32 r 0) 9) with
    check := fun s r => firstFail [inv (rz r 3 1), inv (posOk s (p16 r 0)), inv (p8 r 2 ≤ 7)]
    names := namesPos }

/-- QUEUE_COUNTERS_READ. -/
def execQueueCountersRead (r : Req) (s : State) : Host.Outcome State Fault Refusal := .next (serve queueCountersReadCmd r s)

/-- Clear the counters and the watermark of a queue; the watermark starts from the present occupancy. -/
def clearQueue (s : State) (q : Nat) : State :=
  let s1 := s.clearCnt 0x3011 q
  { s1 with fabric := { s1.fabric with marks := s1.fabric.marks.set 0 q (s.occAll q) } }

/-- QUEUE_COUNTERS_CLEAR (0x3012). -/
def queueCountersClearCmd : Cmd :=
  { clearCmd 0x3012 onFabric 4 namesPos
      (fun s r => eachN s (maskList 8 (p8 r 2)) fun s t => clearQueue s (qn (p16 r 0) t)) with
    check := fun s r => firstFail [inv (rz r 3 1), inv (posOk s (p16 r 0))] }

/-- QUEUE_COUNTERS_CLEAR. -/
def execQueueCountersClear (r : Req) (s : State) : Host.Outcome State Fault Refusal :=
  .next (serve queueCountersClearCmd r s)

/-- SLICE_COUNTERS_READ (0x3013). -/
def sliceCountersReadCmd : Cmd := readCmd 0x3013 onSlice 0 fun s r => s.cblock 0x3013 (tw r) (ti r) 0 8

/-- SLICE_COUNTERS_READ. -/
def execSliceCountersRead (r : Req) (s : State) : Host.Outcome State Fault Refusal := .next (serve sliceCountersReadCmd r s)

/-- SLICE_COUNTERS_CLEAR (0x3014). -/
def sliceCountersClearCmd : Cmd :=
  clearCmd 0x3014 onSlice 0 (fun _ r => [tw r]) fun s r => s.clearCnt 0x3013 (ti r)

/-- SLICE_COUNTERS_CLEAR. -/
def execSliceCountersClear (r : Req) (s : State) : Host.Outcome State Fault Refusal :=
  .next (serve sliceCountersClearCmd r s)

end Sys2Proof.Machine
end

