-- ==== Sys2Proof/Machine/Streams.lean ====
section
/-! DEFINITION. The stream table (keys, hashes, places, insertion), destination records, ingress profiles, filters,
meters, stream gates, sequence generation and recovery, and the commands 0x3101 to 0x3123 and 0x3150, 0x3151
(R445 to R464, R477, R478). -/

namespace Sys2Proof.Machine

/-- Change the committed stream configuration. -/
def updStreamCfg (s : State) (f : StreamCfg → StreamCfg) : State :=
  { s with cfg := { s.cfg with streams := f s.cfg.streams } }

/-- Change what streams hold. -/
def updStrm (s : State) (f : Strm → Strm) : State := { s with strm := f s.strm }

/-! ### The stream table (R448 to R456) -/

/-- The two probed buckets of a key, as bank × 512 + bucket (R449). -/
def probes (c : StreamCfg) (kt key : Nat) : Nat × Nat :=
  let bs := be 1 kt ++ be 40 key
  let h0 := crc32cFrom c.seed0 bs
  let h1 := crc32cFrom c.seed1 bs
  (bits h0 4 0 * 512 + bits h0 13 5, (32 + bits h1 4 0) * 512 + bits h1 13 5)

/-- The places of a bucket. -/
def bucketPlaces (b : Nat) : List Nat := (List.range 4).map (b * 4 + ·)
/-- First place of the stash. -/
def stash0 : Nat := 131072
/-- The places of the stash. -/
def stashPlaces : List Nat := (List.range 64).map (stash0 + ·)

/-- The entry at a place. -/
def entryAt (c : StreamCfg) (p : Nat) : Option StreamEntry := c.table.get none p

/-- All entries with their places. -/
def entries (c : StreamCfg) : List (Nat × StreamEntry) := c.table.filterMap fun x => x.2.map fun e => (x.1, e)

/-- The entry of a handle and its place. -/
def ofHandle (c : StreamCfg) (h : Nat) : Option (Nat × StreamEntry) := (entries c).find? fun x => x.2.handle == h

/-- The lookup of a key from an ingress position: the entry for that ingress, else the one for any (R449). -/
def lookup (c : StreamCfg) (kt key pos : Nat) : Option (Nat × StreamEntry) :=
  let (b0, b1) := probes c kt key
  let hits := (bucketPlaces b0 ++ bucketPlaces b1 ++ stashPlaces).filterMap fun p =>
    (entryAt c p).bind fun e => if e.kt = kt ∧ e.key = key then some (p, e) else none
  match hits.find? fun x => x.2.ingress == pos with
  | some x => some x
  | none => hits.find? fun x => x.2.ingress == 0xFFFF

/-- One of a list of places, as the device chooses it: a free value. -/
def pickPlace (k i : Nat) (ps : List Nat) : Nat := ps.getD (Config.slotPick k i % max 1 ps.length) 0

/-- Free places of a bucket that a self-test has not excluded. -/
def freePlaces (excl : List Nat) (c : StreamCfg) (b : Nat) : List Nat :=
  if excl.contains b then [] else (bucketPlaces b).filter fun p => (entryAt c p).isNone

/-- Displacement: the entry enters bucket `b`, a resident goes to its other bucket, for at most `fuel` moves. The answer
is the table and the number of moves (R453). -/
def displace (excl : List Nat) (k : Nat) : Nat → StreamCfg → StreamEntry → Nat → Nat → Option (StreamCfg × Nat)
  | 0, _, _, _, _ => none
  | fuel + 1, c, e, b, moves =>
    let v := pickPlace k (moves + 1) (bucketPlaces b)
    match entryAt c v with
    | none => none
    | some x =>
      let c1 := { c with table := c.table.set none v (some e) }
      let other := if (probes c x.kt x.key).1 = b then (probes c x.kt x.key).2 else (probes c x.kt x.key).1
      match freePlaces excl c1 other with
      | [] => displace excl k fuel c1 x other (moves + 1)
      | ps => some ({ c1 with table := c1.table.set none (pickPlace k (moves + 1) ps) (some x) }, moves + 1)

/-- Insert an entry: a free slot of either probed bucket, displacement, the stash; none when all fail (R453). -/
def insertEntry (excl : List Nat) (k : Nat) (c : StreamCfg) (e : StreamEntry) : Option (StreamCfg × Nat) :=
  let (b0, b1) := probes c e.kt e.key
  match freePlaces excl c b0 ++ freePlaces excl c b1 with
  | p :: ps => some ({ c with table := c.table.set none (pickPlace k 0 (p :: ps)) (some e) }, 0)
  | [] =>
    let b := if excl.contains b0 then b1 else b0
    match if excl.contains b then none else displace excl k 256 c e b 0 with
    | some r => some r
    | none => (stashPlaces.find? fun p => (entryAt c p).isNone).map fun p =>
        ({ c with table := c.table.set none p (some e) }, 256)

/-- Write an entry under its handle: in place when its key is unchanged, else inserted before the old one is removed
(R454). -/
def writeEntry (excl : List Nat) (k : Nat) (c : StreamCfg) (e : StreamEntry) : Option (StreamCfg × Nat) :=
  match ofHandle c e.handle with
  | none => insertEntry excl k c e
  | some (p, o) =>
    if o.kt = e.kt ∧ o.key = e.key then some ({ c with table := c.table.set none p (some e) }, 0)
    else (insertEntry excl k c e).map fun x =>
      let gone := ((entries x.1).find? fun y => y.2 == o).map (·.1)
      ({ x.1 with table := x.1.table.set none (gone.getD p) none }, x.2)

/-- The entry that a STREAM_ENTRY_WRITE carries. -/
def entryOf (r : Req) : StreamEntry :=
  { key := pN r 0 40, kt := p8 r 40, flags := p8 r 41, ingress := p16 r 42, handle := p32 r 44, dest := p16 r 48,
    cls := p8 r 50, vact := p8 r 51, vtag := p16 r 52, filter := p16 r 54, frer := p16 r 56 }

/-- Unused bits of a key are zero (the key layouts). -/
def keyClean (kt : Nat) (key : List Byte) : Bool :=
  match kt with
  | 1 => fld key 6 2 < 0x1000 && fld key 8 32 == 0
  | 2 => fld key 6 2 < 0x1000 && fld key 8 32 == 0
  | 3 => fld key 0 2 < 0x1000 && byteAt key 2 < 64
  | 4 => fld key 8 2 < 0x1000 && fld key 10 30 == 0
  | _ => fld key 0 40 == 0

/-- The recovery rule of R462 for an entry and a destination record. -/
def recoveryFits (c : StreamCfg) (flags frer : Nat) (d : DestRec) : Bool :=
  !flags.testBit 3 || (match c.recs.get none frer with
    | none => true
    | some rc => (maskList 192 d.mask).all fun e => posSlice e == rc.slice)

/-- STREAM_ENTRY_WRITE (0x3102). -/
def streamEntryWriteCmd : Cmd :=
  confCmd 0x3102 onFabric 64
    (fun s r =>
      let c := s.cfg.streams
      let e := entryOf r
      firstFail [inv (within e.kt 1 4), inv (keyClean e.kt (r.params.take 40)), inv (e.flags < 32),
        inv (!(e.flags.testBit 2 && e.flags.testBit 3)),
        inv (!((e.flags.testBit 2 || e.flags.testBit 3) && e.frer == 0xFFFF)),
        inv (e.ingress ≤ 191 || e.ingress == 0xFFFF), inv (e.handle ≤ 131071), inv (e.dest ≤ 4095),
        inv (bits e.cls 6 3 == 0), inv (e.vact ≤ 3), inv (e.filter ≤ 16383 || e.filter == 0xFFFF),
        inv (e.frer ≤ 8191 || e.frer == 0xFFFF), inv (rz r 58 6),
        inv (!(entries c).any fun x => x.2.handle != e.handle && x.2.kt == e.kt && x.2.key == e.key &&
          x.2.ingress == e.ingress),
        inv (recoveryFits c e.flags e.frer (c.dests.get {} e.dest)),
        rng (writeEntry s.strm.excluded s.freeCtr c e).isSome])
    (fun s r => match writeEntry s.strm.excluded s.freeCtr s.cfg.streams (entryOf r) with
      | none => s
      | some (c, m) =>
        (updStrm (updStreamCfg s fun _ => c) fun x =>
          { x with moves := max x.moves m, lastHit := x.lastHit.set 0 (p32 r 44) 0
                   ecc := x.ecc.filter fun b =>
                     ((ofHandle c (p32 r 44)).map fun y => y.1 / 4 != b).getD true }).draw)

/-- An insert that fails is counted (STREAM_TABLE_STATUS): the refusal by RANGE of a write that passes every other
check. -/
def noteFailed (s : State) (r : Req) : State :=
  if judge s streamEntryWriteCmd r = .refuse .range [] ∧
      step8 (if staged r then s.drafted else s) streamEntryWriteCmd r = some .range then updStrm s fun x => { x with failed := x.failed + 1 } else s

/-- A request to write a stream entry arrives: a failed insert is noted first. -/
def streamWriteIn (r : Req) (s : State) : State :=
  serve streamEntryWriteCmd r
    (if s.ctl.feReady && sourceOpen s false (sn r) && s.rst.headland == 2 && s.ctl.cmdQueue.isEmpty then noteFailed s r else s)

/-- STREAM_ENTRY_WRITE. -/
def execStreamEntryWrite (r : Req) (s : State) : Host.Outcome State Fault Refusal := .next (streamWriteIn r s)

/-- STREAM_TABLE_CONFIG (0x3101). -/
def streamTableConfigCmd : Cmd :=
  confCmd 0x3101 onFabric 16
    (fun s r => firstFail [inv (rz r 8 8), ((entries s.cfg.streams).isEmpty, .notPermitted)])
    (fun s r => updStreamCfg s fun c => { c with seed0 := p32 r 0, seed1 := p32 r 4 })

/-- STREAM_TABLE_CONFIG. -/
def execStreamTableConfig (r : Req) (s : State) : Host.Outcome State Fault Refusal :=
  .next (serve streamTableConfigCmd r s)

/-- STREAM_ENTRY_DELETE (0x3103). -/
def streamEntryDeleteCmd : Cmd :=
  confCmd 0x3103 onFabric 4
    (fun s r => firstFail [inv (ofHandle s.cfg.streams (p32 r 0)).isSome])
    (fun s r => match ofHandle s.cfg.streams (p32 r 0) with
      | none => s
      | some (p, _) => updStreamCfg s fun c => { c with table := c.table.set none p none })

/-- STREAM_ENTRY_DELETE. -/
def execStreamEntryDelete (r : Req) (s : State) : Host.Outcome State Fault Refusal :=
  .next (serve streamEntryDeleteCmd r s)

/-- The 64 bytes of an entry, its last hit in keeper seconds since cold start. -/
def entryBytes (s : State) (e : StreamEntry) : List Byte :=
  be 40 e.key ++ be 1 e.kt ++ be 1 e.flags ++ be 2 e.ingress ++ be 4 e.handle ++ be 2 e.dest ++ be 1 e.cls ++
    be 1 e.vact ++ be 2 e.vtag ++ be 2 e.filter ++ be 2 e.frer ++ zeros 2 ++
    be 4 (s.strm.lastHit.get 0 e.handle / 4000000000)

/-- STREAM_ENTRY_READ (0x3104): an unknown handle is INVALID_PARAM (log entry 15). -/
def streamEntryReadCmd : Cmd :=
  { readCmd 0x3104 onFabric 4 (fun s r => match ofHandle s.cfg.streams (p32 r 0) with
      | some (_, e) => entryBytes s e
      | none => []) with
    check := fun s r => firstFail [inv (ofHandle s.cfg.streams (p32 r 0)).isSome] }

/-- STREAM_ENTRY_READ. -/
def execStreamEntryRead (r : Req) (s : State) : Host.Outcome State Fault Refusal := .next (serve streamEntryReadCmd r s)

/-- STREAM_LOOKUP (0x3105). -/
def streamLookupCmd : Cmd :=
  { readCmd 0x3105 onFabric 44 (fun s r =>
      match if p8 r 0 = 0 then none else lookup s.cfg.streams (p8 r 0) (pN r 4 40) (p16 r 2) with
      | none => be 4 0xFFFFFFFF ++ zeros 4
      | some (p, e) =>
        if p < stash0 then be 4 e.handle ++ be 1 (p / 2048) ++ be 2 (p / 4 % 512) ++ be 1 (p % 4)
        else be 4 e.handle ++ zeros 3 ++ be 1 (4 + p - stash0)) with
    check := fun _ r => firstFail [inv (p8 r 0 ≤ 4), inv (rz r 1 1), inv (p16 r 2 ≤ 191)] }

/-- STREAM_LOOKUP. -/
def execStreamLookup (r : Req) (s : State) : Host.Outcome State Fault Refusal := .next (serve streamLookupCmd r s)

/-- STREAM_TABLE_STATUS (0x3106). -/
def streamTableStatusCmd : Cmd := readCmd 0x3106 onFabric 0 fun s _ =>
  be 4 (entries s.cfg.streams).length ++ be 1 ((entries s.cfg.streams).filter fun x => stash0 ≤ x.1).length ++ zeros 1 ++
    be 2 s.strm.moves ++ be 4 (sat 32 s.strm.failed) ++ be 4 (s.strm.ecc ++ s.strm.excluded).eraseDups.length

/-- STREAM_TABLE_STATUS. -/
def execStreamTableStatus (r : Req) (s : State) : Host.Outcome State Fault Refusal := .next (serve streamTableStatusCmd r s)

/-- DEST_WRITE (0x3107). -/
def destWriteCmd : Cmd :=
  confCmd 0x3107 onFabric 28
    (fun s r =>
      let d : DestRec := { mask := pN r 4 24, tide := p8 r 2 == 1 }
      firstFail [inv (rz r 3 1), inv (p16 r 0 ≤ 4095), inv (p8 r 2 ≤ 1), inv ((maskList 192 d.mask).all (posOk s)),
        inv ((entries s.cfg.streams).all fun x => x.2.dest != p16 r 0 ||
          recoveryFits s.cfg.streams x.2.flags x.2.frer d)])
    (fun s r => updStreamCfg s fun c => { c with dests := c.dests.set {} (p16 r 0) { mask := pN r 4 24, tide := p8 r 2 == 1 } })

/-- DEST_WRITE. -/
def execDestWrite (r : Req) (s : State) : Host.Outcome State Fault Refusal := .next (serve destWriteCmd r s)

/-- The profile that INGRESS_PROFILE_SET carries. -/
def profileOf (r : Req) : IngressCfg :=
  { ktIp := p8 r 2, ktAvtp := p8 r 3, ktOther := p8 r 4, missFwd := p8 r 5 == 1, missDest := p16 r 6, vid := p16 r 8,
    pcp := p8 r 10, accept := p8 r 11 }

/-- INGRESS_PROFILE_SET (0x3108). -/
def ingressProfileSetCmd : Cmd :=
  confCmd 0x3108 onFabric 16
    (fun _ r => firstFail [inv (p16 r 0 ≤ 191), inv (p8 r 2 ≤ 4), inv (p8 r 3 ≤ 4), inv (p8 r 4 ≤ 4), inv (p8 r 5 ≤ 1),
      inv (p16 r 6 ≤ 4095), inv (p8 r 11 ≤ 7), inv (rz r 12 4), rng (p16 r 8 ≤ 4095), rng (p8 r 10 ≤ 7)])
    (fun s r => updStreamCfg s fun c => { c with profiles := c.profiles.set {} (p16 r 0) (profileOf r) })

/-- INGRESS_PROFILE_SET. -/
def execIngressProfileSet (r : Req) (s : State) : Host.Outcome State Fault Refusal := .next (serve ingressProfileSetCmd r s)

/-! ### Filters, meters and stream gates (R457 to R460) -/

/-- QCI_FILTER_SET (0x3110): the blocked state ends (R457). -/
def qciFilterSetCmd : Cmd :=
  confCmd 0x3110 onFabric 12
    (fun _ r => firstFail [inv (rz r 9 3), inv (p16 r 0 ≤ 16383), inv (p16 r 2 ≠ 0), inv (p16 r 4 ≤ 1023 || p16 r 4 == 0xFFFF),
      inv (p16 r 6 ≤ 16383 || p16 r 6 == 0xFFFF), inv (p8 r 8 ≤ 1), rng (within (p16 r 2) 64 10240)])
    (fun s r =>
      let f : FilterCfg := { maxSdu := p16 r 2, gate := p16 r 4, meter := p16 r 6, block := p8 r 8 == 1 }
      updStrm (updStreamCfg s fun c => { c with filters := c.filters.set {} (p16 r 0) f }) fun x =>
        { x with blocked := x.blocked.filter (· != p16 r 0) })

/-- QCI_FILTER_SET. -/
def execQciFilterSet (r : Req) (s : State) : Host.Outcome State Fault Refusal := .next (serve qciFilterSetCmd r s)

/-- Token units in one byte. -/
def tokenUnit : Nat := 32000000

/-- QCI_METER_SET (0x3111): both buckets start full (log entry 16). -/
def qciMeterSetCmd : Cmd :=
  confCmd 0x3111 onFabric 20
    (fun _ r => firstFail [inv (rz r 3 1), inv (p16 r 0 ≤ 16383), inv (p8 r 2 ≤ 7), inv (p32 r 12 ≠ 0), inv (p32 r 16 ≠ 0),
      rng (within (p32 r 12) 64 16777216), rng (within (p32 r 16) 64 16777216)])
    (fun s r =>
      let m : MeterCfg := { coupling := (p8 r 2).testBit 0, dropYellow := (p8 r 2).testBit 1, allRed := (p8 r 2).testBit 2,
                            cir := p32 r 4, eir := p32 r 8, cbs := p32 r 12, ebs := p32 r 16 }
      let t : MeterRun := { c := m.cbs * tokenUnit, e := m.ebs * tokenUnit, at_ := s.now }
      updStrm (updStreamCfg s fun c => { c with meters := c.meters.set none (p16 r 0) (some m) }) fun x =>
        { x with meters := x.meters.set {} (p16 r 0) t })

/-- QCI_METER_SET. -/
def execQciMeterSet (r : Req) (s : State) : Host.Outcome State Fault Refusal := .next (serve qciMeterSetCmd r s)

/-- The gate entries from an offset of the parameters. -/
def sgateList (r : Req) (off n : Nat) : List (Nat × Nat) :=
  (List.range n).map fun i => (p8 r (off + 8 * i), p32 r (off + 8 * i + 4))

/-- QCI_GATE_SET (0x3112). -/
def qciGateSetCmd : Cmd :=
  { confCmd 0x3112 onFabric 0
      (fun _ r =>
        let n := p16 r 2
        let es := List.range n
        firstFail [inv (p16 r 0 ≤ 1023), inv (n ≠ 0), inv (p8 r 4 ≤ 3), inv (p8 r 5 ≤ 1), inv (p32 r 16 ≠ 0),
          inv (es.all fun i => bits (p8 r (20 + 8 * i)) 6 4 == 0 && rz r (21 + 8 * i) 3 && p32 r (24 + 8 * i) ≠ 0),
          rng (n ≤ 64), rng (p32 r 12 < 1000000000), rng (p32 r 16 ≤ 1000000000),
          rng (es.all fun i => p32 r (24 + 8 * i) ≤ 1000000000)])
      (fun s r =>
        let g : SGateCfg := { tb := p8 r 4, on := p8 r 5 == 1, baseS := pN r 6 6, baseNs := p32 r 12, cycle := p32 r 16,
                              list := sgateList r 20 (p16 r 2) }
        updStreamCfg s fun c => { c with gates := c.gates.set none (p16 r 0) (some g) }) with
    len := lenBy 20 8 2 2 }

/-- QCI_GATE_SET. -/
def execQciGateSet (r : Req) (s : State) : Host.Outcome State Fault Refusal := .next (serve qciGateSetCmd r s)

/-- STREAM_GATE_CHANGE: a list entry of stream gate `g` ends and the next begins; at its config change time (`config`)
the committed list becomes the one that runs, from its first entry (R459, R470). After a step of its time base the gate holds its state,
and its next change is the next cycle start. -/
def execStreamGateChange (g : Fin 1024) (config : Bool) (s : State) : Host.Outcome State Fault Refusal :=
  let adm := s.cfg.streams.gates.get none g.val
  .next (if config then updStrm s fun x =>
      { x with gates := x.gates.set none g.val (adm.map fun a => { oper := a, cur := 0 }) }
    else match s.strm.gates.get none g.val with
      | none => s
      | some run =>
        let l := cycleList run.oper.cycle 0 (run.oper.list.map fun x => (x.1, 0, x.2))
        let cur := if !run.realign && run.cur + 1 < l.length then run.cur + 1 else 0
        updStrm s fun x => { x with gates := x.gates.set none g.val (some { run with cur, realign := false }) })

/-- State byte of a running gate: bit 7 open, bit 3 IPV valid, bits [2:0] IPV; a gate not running or not enabled is open
without one. -/
def sgateByte (s : State) (g : Nat) : Nat :=
  match s.strm.gates.get none g with
  | some run => if run.oper.on then ((run.oper.list.getD run.cur (0x80, 0))).1 else 0x80
  | none => 0x80

/-- The tokens of a meter at the present (R458; IEEE 802.1Q clause 8.6.5.1.3: with coupling, what passes CBS feeds the
excess bucket). -/
def fillMeter (s : State) (m : MeterCfg) (t : MeterRun) : MeterRun :=
  let d := s.now - t.at_
  let c := t.c + m.cir * d
  let spill := if m.coupling then c - m.cbs * tokenUnit else 0
  { c := min c (m.cbs * tokenUnit), e := min (t.e + m.eir * d + spill) (m.ebs * tokenUnit), at_ := s.now }

/-- What a meter answers: 0 green, 1 yellow, 2 red; and its tokens after. -/
def meterFrame (s : State) (m : MeterCfg) (t : MeterRun) (need len : Nat) : Nat × MeterRun :=
  let f := fillMeter s m t
  if m.allRed then (2, f)
  else if need * tokenUnit ≤ f.c then (0, { f with c := f.c - len * tokenUnit })
  else if need * tokenUnit ≤ f.e then (1, { f with e := f.e - len * tokenUnit })
  else (2, f)

/-- Store a meter's tokens. -/
def setMeter (s : State) (k : Nat) (t : MeterRun) : State :=
  updStrm s fun x => { x with meters := x.meters.set {} k t }

/-- QCI_COUNTERS_READ (0x3113). -/
def qciCountersReadCmd : Cmd :=
  { readCmd 0x3113 onFabric 4 (fun s r => s.cblock 0x3113 (tw r) (p16 r 0) (p32 r 0) 7) with
    check := fun _ r => firstFail [inv (rz r 2 2), inv (p16 r 0 ≤ 16383)] }

/-- QCI_COUNTERS_READ. -/
def execQciCountersRead (r : Req) (s : State) : Host.Outcome State Fault Refusal := .next (serve qciCountersReadCmd r s)

/-- A clear of `count` blocks from `first`, at most `n` (R477). -/
def rangeClear (op readOp n : Nat) : Cmd :=
  { clearCmd op onFabric 4 (fun _ r => [tw r])
      (fun s r => eachN s ((List.range (p16 r 2)).map (p16 r 0 + ·)) fun s k => s.clearCnt readOp k) with
    check := fun _ r => firstFail [inv (p16 r 0 < n), rng (p16 r 0 + p16 r 2 ≤ n)] }

/-- QCI_COUNTERS_CLEAR (0x3114). -/
def qciCountersClearCmd : Cmd := rangeClear 0x3114 0x3113 16384

/-- QCI_COUNTERS_CLEAR. -/
def execQciCountersClear (r : Req) (s : State) : Host.Outcome State Fault Refusal := .next (serve qciCountersClearCmd r s)

/-! ### Redundancy (R461 to R464) -/

/-- FRER_SEQGEN_SET (0x3120). -/
def frerSeqgenSetCmd : Cmd :=
  confCmd 0x3120 onFabric 4
    (fun _ r => firstFail [inv (rz r 3 1), inv (p16 r 0 ≤ 8191), inv (p8 r 2 ≤ 1)])
    (fun s r => if p8 r 2 = 1 then updStrm s fun x => { x with gens := x.gens.set 0 (p16 r 0) 0 } else s)

/-- FRER_SEQGEN_SET. -/
def execFrerSeqgenSet (r : Req) (s : State) : Host.Outcome State Fault Refusal := .next (serve frerSeqgenSetCmd r s)

/-- The recovery instance that FRER_RECOVERY_SET carries. -/
def recOf (r : Req) : RecCfg :=
  { slice := p8 r 2, alg := p8 r 3, hist := p8 r 4, flags := p8 r 5, reset := p16 r 6, latDiff := p16 r 8,
    latPeriod := p16 r 10 }

/-- FRER_RECOVERY_SET (0x3121): a written instance starts as after a reset. The history and the latent period are judged
where they are used, and its slice against the entries that name it by none (log entry 144). -/
def frerRecoverySetCmd : Cmd :=
  confCmd 0x3121 onFabric 16
    (fun _ r =>
      let c := recOf r
      firstFail [inv (rz r 12 4), inv (p16 r 0 ≤ 8191), inv (c.slice ≤ 3), inv (within c.alg 1 2), inv (c.flags ≤ 7),
        inv (c.reset ≠ 0), inv (c.alg == 2 || c.hist ≠ 0), inv (!c.flags.testBit 2 || c.latPeriod ≠ 0),
        rng (c.alg == 2 || within c.hist 2 32), rng (c.reset ≤ 10000), rng (!c.flags.testBit 2 || c.latPeriod ≤ 10000)])
    (fun s r => updStrm (updStreamCfg s fun c => { c with recs := c.recs.set none (p16 r 0) (some (recOf r)) }) fun x =>
      { x with recs := x.recs.set {} (p16 r 0) {} })

/-- FRER_RECOVERY_SET. -/
def execFrerRecoverySet (r : Req) (s : State) : Host.Outcome State Fault Refusal := .next (serve frerRecoverySetCmd r s)

/-- Change a recovery instance at work. -/
def updRec (s : State) (i : Nat) (f : RecRun → RecRun) : State :=
  updStrm s fun x => { x with recs := x.recs.upd {} i f }

/-- Shift a history of `n` places by one, with the number of known places whose zero falls out (IEEE 802.1CB 7.4.3.4;
places not filled since the last reset are not lost, log entry 17). -/
def shiftHistory (n : Nat) (bit : Bool) (h : List Bool) : List Bool × Nat :=
  (bit :: h.take (n - 1), if n ≤ h.length ∧ h.getD (n - 1) true = false then 1 else 0)

/-- Shift a history by `d`, the last shift entering a one. -/
def advance (n : Nat) : Nat → List Bool → List Bool × Nat
  | 0, h => (h, 0)
  | d + 1, h =>
    let (h1, l1) := shiftHistory n (d == 0) h
    let (h2, l2) := advance n d h1
    (h2, l1 + l2)

/-- The vector algorithm: passed or not, and the state after (IEEE 802.1CB 7.4.3.4, R464). -/
def vectorRecover (s : State) (i : Nat) (c : RecCfg) (q : Nat) : State × Bool :=
  let x := s.strm.recs.get {} i
  let raw := (q + 65536 - x.seq) % 65536
  let delta : Int := signed 16 raw
  if x.takeAny then (updRec s i fun y => { y with takeAny := false, seq := q, history := [true] }, true)
  else if (c.hist : Int) ≤ delta ∨ delta ≤ -(c.hist : Int) then (s.bump 0x3122 i 3, false)
  else if delta ≤ 0 then
    let k := (-delta).toNat
    if x.history.getD k false then (s.bump 0x3122 i 1, false)
    else
      let h := (x.history ++ List.replicate (k + 1 - x.history.length) false).set k true
      ((updRec s i fun y => { y with history := h }).bump 0x3122 i 2, true)
  else
    let s1 := if raw = 1 then s else s.bump 0x3122 i 2
    let (h, lost) := advance c.hist raw x.history
    ((updRec s1 i fun y => { y with seq := q, history := h }).bumpBy 0x3122 i 4 lost, true)

/-- The match algorithm (IEEE 802.1CB 7.4.3.5, R464). -/
def matchRecover (s : State) (i q : Nat) : State × Bool :=
  let x := s.strm.recs.get {} i
  if !x.takeAny && x.seq == q then (s.bump 0x3122 i 1, false)
  else
    let s1 := if x.takeAny || (x.seq + 1) % 65536 == q then s else s.bump 0x3122 i 2
    (updRec s1 i fun y => { y with takeAny := false, seq := q }, true)

/-- An instance resets as its timer expires, which is counted (R464). -/
def expireRec (s : State) (i : Nat) : State :=
  if (s.strm.recs.get {} i).takeAny then s
  else (updRec s i fun y => { y with takeAny := true, seq := 0, history := [], expiredAt := some s.now }).bump 0x3122 i 6

/-- The reset timer of an instance has run out by the present: it resets before a frame of the same cycle is judged. -/
def dueReset (s : State) (i : Nat) (c : RecCfg) : State :=
  if (s.strm.recs.get {} i).passedAt + c.reset * 4000000 ≤ s.now then expireRec s i else s

/-- Recovery judges a frame with a sequence number or without one; passed frames restart the reset timer (R464). An
instance never set passes every frame (log entry 11). -/
def recover (s0 : State) (i : Nat) (q : Option Nat) : State × Bool :=
  match s0.cfg.streams.recs.get none i with
  | none => (s0, true)
  | some c =>
    let s := dueReset s0 i c
    match q with
    | none => (s.bump 0x3122 i 5, c.flags.testBit 0)
    | some n =>
      let (s1, ok) := if c.alg = 1 then vectorRecover s i c n else matchRecover s i n
      if ok then ((updRec s1 i fun y => { y with passedAt := s.now }).bump 0x3122 i 0, true) else (s1, false)

/-- FRER_RESET_TIMEOUT: the reset timer of an instance expires (R464); an expiry that a frame of the same cycle has met is not
taken twice. -/
def execFrerResetTimeout (i : Fin 8192) (s : State) : Host.Outcome State Fault Refusal :=
  .next (match s.cfg.streams.recs.get none i.val with
    | none => s
    | some _ => if (s.strm.recs.get {} i.val).expiredAt = some s.now then s else expireRec s i.val)

/-- Difference of latent error detection: frames passed on all further paths less frames discarded (802.1CB 7.4.4). -/
def latentDiff (s : State) (i : Nat) : Int :=
  (s.cnt 0x3122 i 0 : Int) * ((Config.latentPaths : Int) - 1) - s.cnt 0x3122 i 1

/-- FRER_LATENT_TEST: a period ends; a difference beyond the configured one raises `FRER_LATENT_ERROR`; the base is taken
anew and the reset counted (R464). -/
def execFrerLatentTest (i : Fin 8192) (s : State) : Host.Outcome State Fault Refusal :=
  .next (match s.cfg.streams.recs.get none i.val with
    | none => s
    | some c =>
      if c.flags.testBit 2 then
        let d := (latentDiff s i.val - (s.strm.recs.get {} i.val).base).natAbs
        let s1 := if c.latDiff < d then raise s 0x3103 1 fabricT (be 2 i.val ++ be 2 (sat 16 d)) else s
        (updRec s1 i.val fun y => { y with base := latentDiff s i.val }).bump 0x3122 i.val 7
      else s)

/-- FRER_COUNTERS_READ (0x3122). -/
def frerCountersReadCmd : Cmd :=
  { readCmd 0x3122 onFabric 4 (fun s r => s.cblock 0x3122 (tw r) (p16 r 0) (p32 r 0) 8) with
    check := fun _ r => firstFail [inv (rz r 2 2), inv (p16 r 0 ≤ 8191)] }

/-- FRER_COUNTERS_READ. -/
def execFrerCountersRead (r : Req) (s : State) : Host.Outcome State Fault Refusal := .next (serve frerCountersReadCmd r s)

/-- FRER_COUNTERS_CLEAR (0x3123). -/
def frerCountersClearCmd : Cmd := rangeClear 0x3123 0x3122 8192

/-- FRER_COUNTERS_CLEAR. -/
def execFrerCountersClear (r : Req) (s : State) : Host.Outcome State Fault Refusal := .next (serve frerCountersClearCmd r s)

/-! ### Ingress counters (R478) -/

/-- INGRESS_COUNTERS_READ (0x3150). -/
def ingressCountersReadCmd : Cmd :=
  { readCmd 0x3150 onFabric 4 (fun s r => s.cblock 0x3150 (tw r) (p16 r 0) (p32 r 0) 9) with
    check := fun _ r => firstFail [inv (rz r 2 2), inv (p16 r 0 ≤ 191)] }

/-- INGRESS_COUNTERS_READ. -/
def execIngressCountersRead (r : Req) (s : State) : Host.Outcome State Fault Refusal :=
  .next (serve ingressCountersReadCmd r s)

/-- INGRESS_COUNTERS_CLEAR (0x3151). -/
def ingressCountersClearCmd : Cmd := rangeClear 0x3151 0x3150 192

/-- INGRESS_COUNTERS_CLEAR. -/
def execIngressCountersClear (r : Req) (s : State) : Host.Outcome State Fault Refusal :=
  .next (serve ingressCountersClearCmd r s)

end Sys2Proof.Machine
end

