-- ==== Sys2Proof/Machine/Time.lean ====
section
/-! DEFINITION. Gate control lists and frame preemption, the ticker and its time bases, gPTP and PPS, and the commands
0x3130 to 0x3143 and 0x32xx (R465 to R478, R510). -/

namespace Sys2Proof.Machine

/-! ### Gate control lists (R465 to R470) -/

/-- Change the committed list of an egress. -/
def updGclCfg (s : State) (e : Nat) (f : GclCfg → GclCfg) : State :=
  updStreamCfg s fun c => { c with gcl := c.gcl.upd {} e f }

/-- Change the running list of an egress. -/
def updGcl (s : State) (e : Nat) (f : GclRun → GclRun) : State :=
  updStrm s fun x => { x with gcl := x.gcl.upd {} e f }

/-- Entries loaded from the first on, without a gap. -/
def loadedRun (t : Tab (Option (Nat × Nat × Nat))) : List (Nat × Nat × Nat) :=
  (((List.range 1024).map fun i => t.get none i).takeWhile (·.isSome)).filterMap id

/-- Preemption is enabled on an egress; host links have none (R465). -/
def preemptOn (s : State) (e : Nat) : Bool := e < 128 && (s.cfg.streams.preempt.get {} e).on

/-- GCL_LOAD (0x3130). -/
def gclLoadCmd : Cmd :=
  { confCmd 0x3130 onFabric 0
      (fun s r =>
        let n := p16 r 4
        let es := List.range n
        firstFail [inv (rz r 6 2), inv (posOk s (p16 r 0)), inv (p16 r 2 ≤ 1023),
          inv (es.all fun i => p8 r (9 + 8 * i) ≤ 2 && rz r (10 + 8 * i) 2 && p32 r (12 + 8 * i) ≠ 0 &&
            (p8 r (9 + 8 * i) == 0 || preemptOn s (p16 r 0))),
          rng (n ≤ 126), rng (p16 r 2 + n ≤ 1024), rng (es.all fun i => p32 r (12 + 8 * i) ≤ 1000000000)])
      (fun s r => updGclCfg s (p16 r 0) fun g => { g with
        loaded := (List.range (p16 r 4)).foldl (fun t i =>
          t.set none (p16 r 2 + i) (some (p8 r (8 + 8 * i), p8 r (9 + 8 * i), p32 r (12 + 8 * i)))) g.loaded }) with
    len := lenBy 8 8 4 2 }

/-- GCL_LOAD. -/
def execGclLoad (r : Req) (s : State) : Host.Outcome State Fault Refusal := .next (serve gclLoadCmd r s)

/-- Config change time: the base time, or the first cycle start at or after the present when it has passed
(IEEE 802.1Qbv clause 8.6.9), in ns. -/
def changeTime (now base cycle : Nat) : Nat :=
  if now ≤ base then base else base + (now - base + cycle - 1) / max 1 cycle * cycle

/-- GCL_STATUS (0x3132). -/
def gclStatusCmd : Cmd :=
  { readCmd 0x3132 onFabric 4 (fun s r =>
      let c := s.cfg.streams.gcl.get {} (p16 r 0)
      let g := operOf s (p16 r 0)
      be 1 (b2n g.oper.on + 2 * b2n c.waiting) ++ be 1 g.oper.tb ++ be 2 g.cur ++ be 6 c.ccS ++ be 4 c.ccNs ++
        be 4 g.oper.cycle ++ be 8 g.tooLong ++ zeros 6) with
    check := fun s r => firstFail [inv (rz r 2 2), inv (posOk s (p16 r 0))] }

/-- GCL_STATUS. -/
def execGclStatus (r : Req) (s : State) : Host.Outcome State Fault Refusal := .next (serve gclStatusCmd r s)

/-- The list that a GCL_READ names. -/
def gclOf (s : State) (r : Req) : List (Nat × Nat × Nat) :=
  if p8 r 2 = 0 then (s.cfg.streams.gcl.get {} (p16 r 0)).admin.list else (operOf s (p16 r 0)).oper.list

/-- GCL_READ (0x3133): a read past the end of the list is RANGE. -/
def gclReadCmd : Cmd :=
  { readCmd 0x3133 onFabric 8 (fun s r => ((((gclOf s r).drop (p16 r 4)).take (p16 r 6)).map fun x =>
      be 1 x.1 ++ be 1 x.2.1 ++ zeros 2 ++ be 4 x.2.2).flatten) with
    check := fun s r => firstFail [inv (rz r 3 1), inv (posOk s (p16 r 0)), inv (p8 r 2 ≤ 1), rng (p16 r 6 ≤ 128),
      rng (p16 r 6 == 0 || p16 r 4 + p16 r 6 ≤ (gclOf s r).length)] }

/-- GCL_READ. -/
def execGclRead (r : Req) (s : State) : Host.Outcome State Fault Refusal := .next (serve gclReadCmd r s)

/-! ### Preemption at work (R469, R470) -/

/-- The preemptable frame in transmission is preempted at its next fragment boundary. -/
def preemptFrame (s : State) (e : Nat) : State :=
  match (s.egr e).mac with
  | some m => if m.started && preemptable s e m.cls && (s.egr e).held.isNone then
      (settleCredit s e).updEgr e fun x => { x with mac := none, held := some m } else s
  | none => s

/-- A held frame resumes when the MAC is free, its gate is open and no hold is in force: one more fragment. -/
def resumeFrame (s : State) (e : Nat) : State :=
  match (s.egr e).held with
  | some m => if (s.egr e).mac.isNone && gateOpen s e m.cls && !(operOf s e).hold then
      ((settleCredit s e).updEgr e fun x => { x with mac := some m, held := none }).bump 0x3142 e 4 else s
  | none => s

/-- Transmit wake time of a mode, ticker units (R338). -/
def wakeTicks (m : Nat) : Nat :=
  match m with
  | 5 => 80000 | 6 => 48000 | 7 => 32000 | 8 => 24000 | 9 => 19600 | _ => 0

/-- A frame of port `p` is eligible, or a gate of it opens within the mode's wake time (R337, R338). -/
def txWanted (s : State) (p : Nat) : Bool :=
  (List.range 8).any (eligible s p) || ((opensIn s p).map fun d => decide (d ≤ wakeTicks (s.port p).resMode)).getD false

/-- The MAC deasserts low-power idle once it has reason to (R337, R338). -/
def lpiSettle (s : State) (p : Nat) : State :=
  if (s.port p).power.macLpi ∧ txWanted s p then macWake s p else s

/-- What the entry now current does: hold or release, preemption at a closed gate, and the end of low-power idle at
the latest when a gate opens (R470, R338). -/
def applyEntry (before s : State) (e : Nat) : State :=
  let op := ((operOf s e).oper.list.getD (operOf s e).cur (0, 0, 0)).2.1
  let s1 := if op = 1 then (updGcl s e fun g => { g with hold := true }) else
    if op = 2 then updGcl s e fun g => { g with hold := false } else s
  let s2 := if op = 1 ∧ (s.strm.preempt.get {} e).active then preemptFrame (s1.bump 0x3142 e 5) e else s1
  let closed := match (s2.egr e).mac with
    | some m => !gateOpen s2 e m.cls
    | none => false
  let s3 := resumeFrame (if closed then preemptFrame s2 e else s2) e
  if e < 128 then
    if (List.range 8).any (fun t => gateOpen s3 e t && !gateOpen before e t) then macWake s3 e else lpiSettle s3 e
  else s3

/-- Config change time of the pending admin configuration of an egress, ns. -/
def ccTime (c : GclCfg) : Nat := c.ccS * 1000000000 + c.ccNs

/-- The config change time of a pending admin configuration has come on its time base (R466). -/
def ccReached (s : State) (e : Nat) : Bool :=
  let c := s.cfg.streams.gcl.get {} e
  c.waiting && ccTime c ≤ s.base c.admin.tb / 4

/-- At a cycle's end the cycle is extended to a config change that comes within the cycle time extension (IEEE 802.1Qbv clause
8.6.9, R465, R466). -/
def cycleExtends (s : State) (e : Nat) : Bool :=
  let c := s.cfg.streams.gcl.get {} e
  c.waiting && !ccReached s e && ccTime c ≤ s.base c.admin.tb / 4 + (operOf s e).oper.ext

/-- GATE_CHANGE: the current entry of an egress ends and the next begins; the last entry goes on while the cycle extends. After a step of
the time base the gates hold their states, and the next change is the next cycle start (R467). -/
def execGateChange (e : Fin 192) (s : State) : Host.Outcome State Fault Refusal :=
  let g := operOf s e.val
  let l := cycleList g.oper.cycle 0 g.oper.list
  .next (if gatesRun s e.val then
    if !g.realign && l.length ≤ g.cur + 1 && cycleExtends s e.val then s
    else applyEntry s (updGcl (settleCredit s e.val) e.val fun x =>
      { x with cur := if !x.realign && x.cur + 1 < l.length then x.cur + 1 else 0, curAt := s.now, realign := false }) e.val
  else s)

/-- The pending admin configuration of an egress becomes its oper configuration (R466). -/
def configChange (s : State) (e : Nat) : State :=
  let c := s.cfg.streams.gcl.get {} e
  if c.waiting then
    let s1 := updGclCfg s e fun g => { g with waiting := false }
    let s2 := updGcl s1 e fun g => { g with oper := c.admin, cur := 0, curAt := s.now, hold := false, realign := false }
    let s3 := if gatesRun s2 e then applyEntry s s2 e else if e < 128 then lpiSettle s2 e else s2
    raise s3 0x3104 0 fabricT (be 2 e ++ be 2 c.admin.list.length)
  else s

/-- GCL_CONFIG_CHANGE: the admin configuration becomes the oper configuration at its config change time (R466). -/
def execGclConfigChange (e : Fin 192) (s : State) : Host.Outcome State Fault Refusal := .next (configChange s e.val)

/-- GCL_SET (0x3131): the list loaded becomes the admin configuration; it replaces a pending one whose config change time has not
come (R466). -/
def gclSetCmd : Cmd :=
  confCmd 0x3131 onFabric 28
    (fun s r => firstFail [inv (rz r 24 4), inv (posOk s (p16 r 0)), inv (p16 r 2 ≠ 0), inv (p8 r 4 ≤ 3), inv (p8 r 5 ≤ 1),
      inv (p32 r 16 ≠ 0), inv (1024 < p16 r 2 || p16 r 2 ≤ (loadedRun (s.cfg.streams.gcl.get {} (p16 r 0)).loaded).length),
      rng (p16 r 2 ≤ 1024), rng (p32 r 12 < 1000000000), rng (p32 r 16 ≤ 1000000000), rng (p32 r 20 ≤ 1000000000)])
    (fun s0 r =>
      let s := if ccReached s0 (p16 r 0) then configChange s0 (p16 r 0) else s0
      let t := changeTime (s.base (p8 r 4) / 4) (pN r 6 6 * 1000000000 + p32 r 12) (p32 r 16)
      updGclCfg s (p16 r 0) fun g => { g with
        admin := { tb := p8 r 4, on := p8 r 5 == 1, baseS := pN r 6 6, baseNs := p32 r 12, cycle := p32 r 16,
                   ext := p32 r 20, list := (loadedRun g.loaded).take (p16 r 2) }
        waiting := true, ccS := t / 1000000000, ccNs := t % 1000000000 })

/-- GCL_SET. -/
def execGclSet (r : Req) (s : State) : Host.Outcome State Fault Refusal := .next (serve gclSetCmd r s)


/-- A port whose committed configuration has modes, and none of 0x04 to 0x09, cannot have preemption enabled (R96). -/
def preemptAbsent (s : State) (p : Nat) : Bool :=
  (s.pcfg p).mode.set && modesOf (s.pcfg p).mode &&& 0x3F0 == 0

/-- PREEMPT_CONFIG (0x3140): at a live port it applies at once, as at a link-up. -/
def preemptConfigCmd : Cmd :=
  confCmd 0x3140 onFabric 8
    (fun s r => firstFail [inv (rz r 6 2), inv (p16 r 0 ≤ 127), inv (p8 r 3 ≤ 3), inv (p8 r 5 ≠ 0),
      inv (!(p8 r 3).testBit 0 || !preemptAbsent s (p16 r 0)), rng (p8 r 4 ≤ 3), rng (p8 r 5 ≤ 128)])
    (fun s r =>
      let c : PreemptCfg := { mask := p8 r 2, on := (p8 r 3).testBit 0, noVerify := (p8 r 3).testBit 1, frag := p8 r 4,
                              time := p8 r 5 }
      let s1 := updStreamCfg s fun x => { x with preempt := x.preempt.set {} (p16 r 0) c }
      if portLive s (p16 r 0) then preemptUp s1 (p16 r 0) else s1)

/-- PREEMPT_CONFIG. -/
def execPreemptConfig (r : Req) (s : State) : Host.Outcome State Fault Refusal := .next (serve preemptConfigCmd r s)

/-- PREEMPT_STATUS (0x3141). -/
def preemptStatusCmd : Cmd :=
  { readCmd 0x3141 onFabric 4 (fun s r =>
      let x := s.strm.preempt.get {} (p16 r 0)
      be 1 x.verify ++ be 1 (b2n x.active) ++ zeros 6) with
    check := fun _ r => firstFail [inv (rz r 2 2), inv (p16 r 0 ≤ 127)] }

/-- PREEMPT_STATUS. -/
def execPreemptStatus (r : Req) (s : State) : Host.Outcome State Fault Refusal := .next (serve preemptStatusCmd r s)

/-- PREEMPT_VERIFY_DONE: verification ends (R469). -/
def execPreemptVerifyDone (p : PortId) (ok : Bool) (s : State) : Host.Outcome State Fault Refusal :=
  .next (if (s.strm.preempt.get {} p.val).verify = 1 then
    raise (setPreempt s p.val { verify := if ok then 2 else 3, active := ok }) 0x3105 1 (portT p.val)
      (be 1 p.val ++ be 1 (b2n !ok))
  else s)

/-- PREEMPT_COUNTERS_READ (0x3142). -/
def preemptCountersReadCmd : Cmd :=
  { readCmd 0x3142 onFabric 4 (fun s r => s.cblock 0x3142 (tw r) (p16 r 0) (p32 r 0) 6) with
    check := fun _ r => firstFail [inv (rz r 2 2), inv (p16 r 0 ≤ 127)] }

/-- PREEMPT_COUNTERS_READ. -/
def execPreemptCountersRead (r : Req) (s : State) : Host.Outcome State Fault Refusal :=
  .next (serve preemptCountersReadCmd r s)

/-- PREEMPT_COUNTERS_CLEAR (0x3143). -/
def preemptCountersClearCmd : Cmd :=
  clearCmd 0x3143 onFabric 16 (fun _ r => [tw r]) fun s r => eachN s (portMask r 0) fun s p => s.clearCnt 0x3142 p

/-- PREEMPT_COUNTERS_CLEAR. -/
def execPreemptCountersClear (r : Req) (s : State) : Host.Outcome State Fault Refusal :=
  .next (serve preemptCountersClearCmd r s)

/-! ### Tidemark time (R472 to R476) -/

/-- Flags byte of TIME_READ: the four time bases valid, and stamps valid (R476). -/
def timeFlags (s : State) : Nat := if s.timeValid then 0x1F else 0

/-- TIME_READ (0x3201). -/
def timeReadCmd : Cmd := readCmd 0x3201 onDevice 0 fun s _ =>
  be 8 s.now ++ ((List.range 4).map fun i => be 8 (s.base i)).flatten ++ be 1 (timeFlags s) ++ zeros 7

/-- TIME_READ. -/
def execTimeRead (r : Req) (s : State) : Host.Outcome State Fault Refusal := .next (serve timeReadCmd r s)

/-- Write a time base. -/
def setBase (s : State) (i : Nat) (b : TimeBase) : State :=
  updStrm s fun x => { x with bases := x.bases.set i b }

/-- A step of a time base within their cycles: the lists that run on it realign at their next cycle start, and their gates hold
until then. -/
def realign (s : State) (i : Nat) : State :=
  updStrm s fun x => { x with
    gcl := x.gcl.map fun e => (e.1, { e.2 with realign := e.2.realign || e.2.oper.tb == i })
    gates := x.gates.map fun e => (e.1, e.2.map fun g => { g with realign := g.realign || g.oper.tb == i }) }

/-- Step a time base by a signed amount, keeping its rate (R472). -/
def stepBase (s : State) (i : Nat) (d : Int) : State :=
  setBase (if d = 0 then s else realign s i) i { value := (((s.base i : Int) + d) % 2 ^ 64).toNat, at_ := s.now, rate := (s.strm.bases.getD i {}).rate }

/-- Give a time base a rate from the present on (R472). -/
def rateBase (s : State) (i : Nat) (rate : Int) : State := setBase s i { value := s.base i, at_ := s.now, rate }

/-- Greatest rate: 500 ppm in units of 2⁻⁴⁰. -/
def maxRate : Int := 549755813

/-- TIME_ADJUST (0x3202). -/
def timeAdjustCmd : Cmd where
  op := 0x3202
  target := onDevice
  len := len 16
  check := fun s r => firstFail [inv (rz r 2 2), inv (p8 r 0 ≤ 3), inv (within (p8 r 1) 1 3),
    rng (p8 r 1 ≠ 3 || withinI (signed 32 (p32 r 4)) (-maxRate) maxRate),
    (!(s.cfg.streams.gptp.get {} (p8 r 0)).flags.testBit 0, .notPermitted)]
  writes := true
  run := doOk fun s r =>
    if p8 r 1 = 1 then setBase (realign s (p8 r 0)) (p8 r 0) { value := p64 r 8, at_ := s.now, rate := (s.strm.bases.getD (p8 r 0) {}).rate }
    else if p8 r 1 = 2 then stepBase s (p8 r 0) (signed 64 (p64 r 8))
    else rateBase s (p8 r 0) (signed 32 (p32 r 4))

/-- TIME_ADJUST. -/
def execTimeAdjust (r : Req) (s : State) : Host.Outcome State Fault Refusal := .next (serve timeAdjustCmd r s)

/-! ### gPTP (R473, R474, R510) -/

/-- Change a gPTP instance at work. -/
def updGptp (s : State) (i : Nat) (f : GptpRun → GptpRun) : State :=
  updStrm s fun x => { x with gptp := x.gptp.upd {} i f }

/-- Enter a gPTP state; each change raises `GPTP_STATE`. -/
def gptpState (s : State) (i st : Nat) : State :=
  if (s.strm.gptp.get {} i).state = st then s
  else
    let s1 := updGptp s i fun g => { g with state := st }
    raise s1 0x3201 1 0 (be 1 i ++ be 1 st ++ be 2 (s1.strm.gptp.get {} i).slavePos)

/-- The roles that a position has under external port configuration. -/
def gptpRole (s : State) (i pos : Nat) : Nat := (s.cfg.streams.gptpPorts.get {} (i * 192 + pos)).role

/-- Under external port configuration an enabled instance with master ports and no slave port is grandmaster. -/
def gptpElect (s : State) (i : Nat) : State :=
  let c := s.cfg.streams.gptp.get {} i
  if !c.flags.testBit 0 then updGptp s i fun _ => {}
  else if c.flags.testBit 1 then s
  else if (List.range 192).any (fun p => gptpRole s i p == 2) then s
  else if (List.range 192).any (fun p => gptpRole s i p == 1) then gptpState s i 2
  else s

/-- GPTP_CONFIG (0x3210). -/
def gptpConfigCmd : Cmd :=
  confCmd 0x3210 onDevice 8
    (fun _ r => firstFail [inv (rz r 7 1), inv (p8 r 0 ≤ 3), inv (p8 r 1 ≤ 7), rng (withinI (i8 r 5) (-7) 0),
      rng (withinI (i8 r 6) (-3) 3)])
    (fun s r =>
      let c : GptpCfg := { flags := p8 r 1, domain := p8 r 2, prio1 := p8 r 3, prio2 := p8 r 4, logSync := i8 r 5,
                           logPdelay := i8 r 6 }
      gptpElect (updStreamCfg s fun x => { x with gptp := x.gptp.set {} (p8 r 0) c }) (p8 r 0))

/-- GPTP_CONFIG. -/
def execGptpConfig (r : Req) (s : State) : Host.Outcome State Fault Refusal := .next (serve gptpConfigCmd r s)

/-- GPTP_PORT_CONFIG (0x3211). -/
def gptpPortConfigCmd : Cmd :=
  confCmd 0x3211 onDevice 8
    (fun _ r => firstFail [inv (rz r 1 1), inv (p8 r 0 ≤ 3), inv (p16 r 2 ≤ 191), inv (p8 r 4 ≤ 3), inv (p8 r 5 ≤ 1)])
    (fun s r =>
      let c : GptpPortCfg := { role := p8 r 4, forced := p8 r 5 == 1, asym := i16 r 6 }
      gptpElect (updStreamCfg s fun x => { x with gptpPorts := x.gptpPorts.set {} (p8 r 0 * 192 + p16 r 2) c }) (p8 r 0))

/-- GPTP_PORT_CONFIG. -/
def execGptpPortConfig (r : Req) (s : State) : Host.Outcome State Fault Refusal := .next (serve gptpPortConfigCmd r s)

/-- GPTP_STATUS (0x3212). -/
def gptpStatusCmd : Cmd :=
  { readCmd 0x3212 onDevice 4 (fun s r =>
      let g := s.strm.gptp.get {} (p8 r 0)
      be 1 g.state ++ be 2 g.slavePos ++ zeros 1 ++ beI 8 g.offset ++ beI 4 g.rate ++ be 8 g.gm ++
        be 4 ((g.syncAt.map s.secsSince).getD 0) ++ zeros 4) with
    check := fun _ r => firstFail [inv (rz r 1 3), inv (p8 r 0 ≤ 3)] }

/-- GPTP_STATUS. -/
def execGptpStatus (r : Req) (s : State) : Host.Outcome State Fault Refusal := .next (serve gptpStatusCmd r s)

/-- GPTP_COUNTERS_READ (0x3213): `PPS_IN_MISSED` is kept at instance 0, position 0, and reported at position 0. -/
def gptpCountersReadCmd : Cmd :=
  { readCmd 0x3213 onDevice 4 (fun s r =>
      let blk := p8 r 0 * 192 + p16 r 2
      s.block 0x3213 0 blk (p32 r 0) ((List.range 5).map (s.cnt 0x3213 blk) ++
        [if p16 r 2 = 0 then s.cnt 0x3213 0 5 else 0])) with
    check := fun _ r => firstFail [inv (rz r 1 1), inv (p8 r 0 ≤ 3), inv (p16 r 2 ≤ 191)] }

/-- GPTP_COUNTERS_READ. -/
def execGptpCountersRead (r : Req) (s : State) : Host.Outcome State Fault Refusal := .next (serve gptpCountersReadCmd r s)

/-- Insert a number into a rising list. -/
def insertInt (v : Int) : List Int → List Int
  | [] => [v]
  | x :: l => if v ≤ x then v :: x :: l else x :: insertInt v l

/-- Twice the median of a list of samples, 0 when empty. -/
def median2 (l : List Int) : Int :=
  let t := l.foldr insertInt []
  t.getD ((l.length - 1) / 2) 0 + t.getD (l.length / 2) 0

/-- A sample is within 1 µs of the median of the last accepted ones, or follows eight rejections (R510). -/
def sampleOk (g : GptpRun) (l : List Int) (v : Int) : Bool :=
  l.isEmpty || 8 ≤ g.rejects || (2 * v - median2 l).natAbs ≤ 8000

/-- The list after an accepted sample; eight rejections restart it. -/
def takeSample (g : GptpRun) (l : List Int) (v : Int) : List Int := if 8 ≤ g.rejects then [v] else (v :: l).take 8

/-- A position carries gPTP for an instance: the instance is enabled and Headland runs, the position has a role, and a
port is not in mode 0x02 (R473, R474). -/
def gptpOn (s : State) (i pos : Nat) : Bool :=
  (s.cfg.streams.gptp.get {} i).flags.testBit 0 && s.rst.headland == 2 && gptpRole s i pos != 0 &&
    !(pos < 128 && (s.pcfg pos).mode.mode == 2)

/-- The position is the instance's slave port. -/
def isSlave (s : State) (i pos : Nat) : Bool :=
  if (s.cfg.streams.gptp.get {} i).flags.testBit 1 && gptpRole s i pos == 3 then (s.strm.gptp.get {} i).slavePos == pos
  else gptpRole s i pos == 2

/-- A rejected sample. -/
def rejectSample (s : State) (i : Nat) : State :=
  (updGptp s i fun g => { g with rejects := g.rejects + 1 }).bump 0x0905 0 4

/-- The position is one of the instance's master ports. -/
def isMaster (s : State) (i pos : Nat) : Bool :=
  gptpRole s i pos == 1 ||
    (gptpRole s i pos == 3 && (s.cfg.streams.gptp.get {} i).flags.testBit 1 && (s.strm.gptp.get {} i).slavePos != pos)

/-- A Sync at the slave port: the offset that its times imply, less the port's path delay with the configured asymmetry added
(DEDUCED, log entry 144), is judged, and sets the time base's rate and step (R473, R510). -/
def gptpSync (s : State) (i pos : Nat) (diff rate : Int) : State :=
  let g := s.strm.gptp.get {} i
  let v := diff - (g.paths.get 0 pos + (s.cfg.streams.gptpPorts.get {} (i * 192 + pos)).asym)
  if sampleOk g g.samples v then
    let s1 := stepBase (rateBase s i (max (-maxRate) (min maxRate rate))) i (-v)
    let s2 := updGptp s1 i fun g => { g with samples := takeSample g g.samples v, rejects := 0, slavePos := pos,
                                             offset := v, rate := rate, syncAt := some s.now }
    gptpState s2 i 1
  else rejectSample s i

/-- GPTP_MESSAGE_RX: the time-sync function processes a received message, or discards it (R473, R474). -/
def execGptpMessageRx (i : Fin 4) (pos : Fin 192) (m : GptpMsg) (s : State) : Host.Outcome State Fault Refusal :=
  let blk := i.val * 192 + pos.val
  .next (if !gptpOn s i.val pos.val then s.bump 0x3213 blk 4
  else match m with
    | .sync diff rate =>
      let s1 := s.bump 0x3213 blk 0
      if isSlave s i.val pos.val then gptpSync s1 i.val pos.val diff rate else s1
    | .pdelayReq => s.bump 0x3213 blk 2
    | .pdelayResp d =>
      let g := s.strm.gptp.get {} i.val
      if sampleOk g g.delays d then
        updGptp s i.val fun g => { g with delays := takeSample g g.delays d, rejects := 0, paths := g.paths.set 0 pos.val d }
      else rejectSample s i.val
    | .announce gm slave =>
      if (s.cfg.streams.gptp.get {} i.val).flags.testBit 1 then
        let s1 := updGptp s i.val fun g => { g with gm := gm.toNat, slavePos := (slave.map (·.val)).getD 0xFFFF }
        if slave.isNone then gptpState s1 i.val 2
        else if (s.strm.gptp.get {} i.val).state = 2 then gptpState s1 i.val 0 else s1
      else updGptp s i.val fun g => { g with gm := gm.toNat })

/-- A position can send: a live port or a host link at Up. -/
def posLive (s : State) (pos : Nat) : Bool := egressLive s pos

/-- GPTP_SYNC_TX: an instance sends Sync on one of its master ports (R473). -/
def execGptpSyncTx (i : Fin 4) (pos : Fin 192) (s : State) : Host.Outcome State Fault Refusal :=
  .next (if gptpOn s i.val pos.val && isMaster s i.val pos.val && posLive s pos.val then
    s.bump 0x3213 (i.val * 192 + pos.val) 1 else s)

/-- GPTP_PDELAY_TX: a port sends a peer-delay request (R473). -/
def execGptpPdelayTx (i : Fin 4) (pos : Fin 192) (s : State) : Host.Outcome State Fault Refusal :=
  .next (if gptpOn s i.val pos.val && posLive s pos.val then s.bump 0x3213 (i.val * 192 + pos.val) 3 else s)

/-- Time becomes invalid: every enabled instance falls to state 0 (R476). -/
def gptpLose (s : State) : State :=
  eachN s (List.range 4) fun s i =>
    if (s.cfg.streams.gptp.get {} i).flags.testBit 0 then gptpState s i 0 else s

/-! ### PPS (R475) -/

/-- PPS_CONFIG (0x3220). -/
def ppsConfigCmd : Cmd :=
  confCmd 0x3220 onDevice 12
    (fun _ r => firstFail [inv (rz r 8 4), inv (p8 r 0 ≤ 3), inv (p8 r 1 ≤ 3), inv (p16 r 2 ≠ 0), inv (p32 r 4 ≠ 0),
      rng (p16 r 2 ≤ 1000), rng (p32 r 4 ≤ 500000), rng (p32 r 4 < p16 r 2 * 1000)])
    (fun s r => updStreamCfg s fun c => { c with pps := { flags := p8 r 0, tb := p8 r 1, period := p16 r 2, width := p32 r 4 } })

/-- PPS_CONFIG. -/
def execPpsConfig (r : Req) (s : State) : Host.Outcome State Fault Refusal := .next (serve ppsConfigCmd r s)

/-- PPS_OUT_PULSE: the pin rises at a whole multiple of the period, and falls at the end of its width. -/
def execPpsOutPulse (rise : Bool) (s : State) : Host.Outcome State Fault Refusal :=
  .next { s with elec := { s.elec with ppsOut := rise && s.cfg.streams.pps.flags.testBit 0 } }

/-- PPS_IN_EDGE: a rising edge is stamped; one less than 1 ms after a stamped edge is missed. -/
def execPpsInEdge (s : State) : Host.Outcome State Fault Refusal :=
  .next (if !s.cfg.streams.pps.flags.testBit 1 then s
  else if ((s.strm.edge.map fun e => decide (s.now - e.ticker < 4000000)).getD false) then s.bump 0x3213 0 5
  else
    let q := ((s.strm.edge.map (·.seq)).getD 0 + 1) % 2 ^ 32
    updStrm s fun x => { x with edge := some { seq := q, valid := timeFlags s % 16, ticker := s.now,
                                               bases := (List.range 4).map s.base } })

/-- PPS_IN_READ (0x3221). -/
def ppsInReadCmd : Cmd := readCmd 0x3221 onDevice 0 fun s _ => match s.strm.edge with
  | none => zeros 48
  | some e => be 4 e.seq ++ be 4 e.valid ++ be 8 e.ticker ++ (e.bases.map (be 8)).flatten

/-- PPS_IN_READ. -/
def execPpsInRead (r : Req) (s : State) : Host.Outcome State Fault Refusal := .next (serve ppsInReadCmd r s)

end Sys2Proof.Machine
end

