-- ==== Sys2Proof/Machine/Admit.lean ====
section
/-! DEFINITION. Admission of a frame to its destination queues (R412, R418, R422 to R426, R432, R106, R395). -/

namespace Sys2Proof.Machine

/-- Admission is stopped for a frame stored in slice `i` and a queue of slice `j`: `SAFE_STATE`, a drain, a gate or a reset
of either (R423 test 1, R438). -/
def admissionStopped (s : State) (i j : Nat) : Bool :=
  s.ctl.safeState || (s.slice i).stopped || (s.slice j).stopped || islandShut s (24 + i) || islandShut s (24 + j)

/-- Settings of queue `q` (R440). -/
def queueCfg (s : State) (q : Nat) : QueueCfg := s.cfg.fabric.queues.get {} q

/-- Test 3 of R423 refuses: the dynamic or the static limit. -/
def overLimit (s : State) (q i : Nat) : Bool :=
  let c := queueCfg s q
  let occ := s.occ q i
  if c.static then c.max ≤ occ
  else if 0 ≤ c.alpha then poolFree s i * 2 ^ c.alpha.toNat ≤ occ - c.min
  else poolFree s i ≤ (occ - c.min) * 2 ^ (-c.alpha).toNat

/-- The outcome of R423 for a frame in slice `i` and a queue: 1 stopped, 2 admitted to the minimum, 3 queue limit,
4 pool exhausted, 5 admitted to the shared pool. -/
def admitTest (s : State) (i e cls : Nat) : Nat :=
  let q := qn e cls
  if admissionStopped s i (posSlice e) then 1
  else if s.occ q i < (queueCfg s q).min then 2
  else if overLimit s q i then 3
  else if poolFree s i = 0 then 4
  else 5

/-- The Slack group address (R342). -/
def slackGroup : Nat := 0x6BD719000001

/-- A frame offered to an egress that is down: counted, and a port in Slack that frames wake is woken (R106, R347, R395). One to the
Slack group is filtered there, and R106 does not count it (R343); that it wakes the port too is read from R347 (DEDUCED, log
entry 139). -/
def offerDown (s : State) (e : Nat) (slack : Bool) : State :=
  let s1 := if slack && e < 128 then s.bump 0x1610 e 6 else countDown s e
  if e < 128 ∧ (s.pcfg e).power.flags.testBit 3 then wakePort s1 e 4 else s1

/-- The drain of a lane or quay stops enqueueing to its links (crossing X1); what would have been queued counts as R26 says of a
link in reset (DEDUCED, log entry 123). -/
def linkDrains (s : State) (e : Nat) : Bool :=
  128 ≤ e && (drains s).any fun t => (tgtDom t == 4 || tgtDom t == 6) && drainStops s t e

/-- The pool of slice `i` is found exhausted: one event per crossing (event 0x3003). -/
def poolExhausted (s : State) (i : Nat) : State :=
  if (s.slice i).exhausted then s
  else raise (s.updSlice i fun x => { x with exhausted := true }) 0x3003 1 (sliceT i) (be 1 1 ++ be 1 i)

/-- Add `c` cells of slice `i` to a queue's occupancy, its watermark and, when shared, the pool. -/
def chargeQueue (s : State) (q i c : Nat) (shared : Bool) : State :=
  let f := { s.fabric with occ := s.fabric.occ.upd 0 (q * 4 + i) (· + c)
                           pool := if shared then s.fabric.pool.upd 0 i (· + c) else s.fabric.pool }
  let s1 := { s with fabric := f }
  { s1 with fabric := { f with marks := f.marks.set 0 q (max (f.marks.get 0 q) (s1.occAll q)) } }

/-- Enqueue frame number `id` with `n` bytes; a frame that becomes eligible ends low-power idle on transmit (R337). -/
def enqueue (s : State) (id i e cls n : Nat) (shared : Bool) : State :=
  let q := qn e cls
  let s1 := chargeQueue (settleCredit s e) q i (cellsOf n) shared
  let s2 := { s1 with fabric := { s1.fabric with queues := s1.fabric.queues.upd [] q (· ++ [id]) } }
  let s3 := (s2.bump 0x3011 q 0).bumpBy 0x3011 q 1 n
  if e < 128 then lpiSettle s3 e else s3

/-- Offer a frame (`slack`: to the Slack group) to one queue, with what has admitted it so far: (queue, shared, cut-through). -/
def offer (s : State) (id i cls n : Nat) (slack : Bool) (acc : List (Nat × Bool × Bool)) (e : Nat) (cut : Bool) :
    State × List (Nat × Bool × Bool) :=
  let q := qn e cls
  match admitTest s i e cls with
  | 1 => (s.bump 0x3011 q 4, acc)
  | k =>
    if !egressLive s e || linkDrains s e then (offerDown s e slack, acc)
    else match k with
      | 3 => (s.bump 0x3011 q 5, acc)
      | 4 => (poolExhausted (s.bump 0x3011 q 6) i, acc)
      | _ => (enqueue s id i e cls n (k == 5), acc ++ [(q, k == 5, cut)])

/-- Admission of one frame, stored in slice `f.slice`, to the egresses of `dests` with whether each takes it cut-through; it
is stored once when any queue takes it, and one frame number is used (R422 to R424). -/
def admitFrame (s : State) (f : Frame) (cls : Nat) (dests : List (Nat × Bool)) : State :=
  let id := s.fabric.nextFrame
  let n := f.bytes.length
  let (s1, hs) := dests.foldl (fun x d => offer x.1 id f.slice cls n (fld f.bytes 0 6 == slackGroup) x.2 d.1 d.2) (s, [])
  if hs.isEmpty then s1
  else
    let s2 := (cellsWritten s1 f.slice (cellsOf n)).updSlice f.slice fun x => { x with turn := (x.turn + cellsOf n) % 32 }
    { s2 with fabric := { s2.fabric with
        frames := s2.fabric.frames.set none id (some { f with holders := hs, bank := (s1.slice f.slice).turn }), nextFrame := id + 1 } }

/-- Frame bytes without the FCS, with the FCS appended. -/
def withFcs (bs : List Byte) : List Byte := bs ++ le 4 (crc32 bs)

/-- Bring a frame to 60 bytes before its FCS. -/
def padFrame (bs : List Byte) : List Byte := if bs.length < 60 then padTo 60 bs else bs

/-- A frame that the device originates enters the slice of its egress queue, store-and-forward (R18, R496, R499). -/
def sendFrame (s : State) (e cls : Nat) (bs : List Byte) : State :=
  admitFrame s { pos := 192, slice := posSlice e, bytes := withFcs bs, stamp := s.now, stampValid := s.timeValid, bad := false,
                 carryBad := false, metaBad := false, holders := [] } cls [(e, false)]

end Sys2Proof.Machine
end

