-- ==== Sys2Proof/Machine/Tide.lean ====
section
/-! DEFINITION. The Tide Table: copies, source formats, layouts and their checks, signals, digests, republication, and the
commands 0x40xx (R479 to R502, R512). -/

namespace Sys2Proof.Machine

/-- Change the committed Tide Table configuration. -/
def updTideCfg (s : State) (f : TideCfg → TideCfg) : State := { s with cfg := { s.cfg with tide := f s.cfg.tide } }
/-- Change what the Tide Table holds. -/
def updTide (s : State) (f : Tide → Tide) : State := { s with tide := f s.tide }
/-- Count in an engine (R502). -/
def ttCount (s : State) (e i n : Nat) : State := s.bumpBy 0x4020 e i n
/-- The Tide Table runs: its island is neither gated nor in reset. -/
def tideRuns (s : State) : Bool := !islandShut s 28

/-- A signal engine takes no copies: it is draining, in reset or under test, or the Tide Table is (R556, R615). -/
def engineStopped (s : State) (e : Nat) : Bool :=
  (s.rst.jobs.any fun j => j.target == engineT e || j.target == tideT) || testRunning s (engineT e)

/-! ### Fields of a payload (R483) -/

/-- Bit `p` of a payload. -/
def payBit (ps : List Byte) (p : Nat) : Bool := (ps.getD (p / 8) 0).getLsbD (p % 8)

/-- The payload positions of a big-endian signal's value bits, least significant first; none below byte 0. -/
def bePositions : Nat → Nat → List Nat
  | 0, _ => []
  | n + 1, q => q :: (if q % 8 ≠ 7 then bePositions n (q + 1) else if 15 ≤ q then bePositions n (q - 15) else [])

/-- The payload positions of a definition's value bits. -/
def sigBitsAt (d : SigDef) : List Nat :=
  if d.flags.testBit 0 then bePositions d.length d.pos else (List.range d.length).map (d.pos + ·)

/-- The value that bits at positions spell, the first least significant. -/
def valueAt (ps : List Byte) : List Nat → Nat
  | [] => 0
  | q :: qs => b2n (payBit ps q) + 2 * valueAt ps qs

/-- A definition's value in a payload, zero- or sign-extended to 64 bits. -/
def extract (ps : List Byte) (d : SigDef) : Nat :=
  let v := valueAt ps (sigBitsAt d)
  if d.flags.testBit 1 ∧ v.testBit (d.length - 1) then v + (2 ^ 64 - 2 ^ d.length) else v

/-- A little-endian field of `n` bits at position `p`. -/
def leField (ps : List Byte) (p n : Nat) : Nat := valueAt ps ((List.range n).map (p + ·))

/-- Payload bytes with one bit written. -/
def putBit (ps : List Byte) (p : Nat) (b : Bool) : List Byte :=
  ps.modify (p / 8) fun x => BitVec.ofNat 8 (if b then setBit x.toNat (p % 8) else clrBit x.toNat (p % 8))

/-- Payload bytes with the low bits of a value written at positions, the first least significant. -/
def putBits : List Byte → List Nat → Nat → List Byte
  | ps, [], _ => ps
  | ps, q :: qs, v => putBits (putBit ps q (v % 2 == 1)) qs (v / 2)

/-- The CRC of R487 over a data ID and a payload with the CRC field's bytes left out. -/
def layoutCrc (wide : Bool) (dataId pos len : Nat) (ps : List Byte) : Nat :=
  let b := ps.take len
  let bs := be 2 dataId ++ b.take (pos / 8) ++ b.drop (pos / 8 + if wide then 2 else 1)
  if wide then crc16 bs else crc8tt bs

/-! ### Signals and digests (R490 to R496) -/

/-- A signal's entry. -/
def State.sig (s : State) (n : Nat) : Sig := s.tide.sigs.get s.tide.blank n
/-- Change a signal's entry. -/
def updSig (s : State) (n : Nat) (f : Sig → Sig) : State := updTide s fun t => { t with sigs := t.sigs.upd t.blank n f }

/-- The definitions of a layout, slot by slot. -/
def defsOf (c : TideCfg) (l : Nat) : List SigDef := (List.range 64).filterMap fun k => c.defs.get none (l * 64 + k)

/-- The receive definition of a signal: layout and slot. -/
def definedAt (c : TideCfg) (n : Nat) : Option (Nat × Nat) :=
  (c.defs.find? fun x => ((x.2.map fun d => d.signal == n).getD false) && (c.layouts.get none (x.1 / 64)).isSome).map
    fun x => (x.1 / 64, x.1 % 64)

/-- The receive definition record of a signal. -/
def defOf (c : TideCfg) (n : Nat) : Option SigDef := (definedAt c n).bind fun x => c.defs.get none (x.1 * 64 + x.2)

/-- Records that one digest frame of a route holds (R495). -/
def digestCap (c : DigestCfg) : Nat := (c.maxLen - 34) / 24

/-- The bytes of a digest record, with the signal's latest value and state (R494). -/
def recBytes (s : State) (d : DigestRec) : List Byte :=
  let x := s.sig d.signal
  be 4 d.signal ++ be 1 x.state ++ be 1 d.reasons ++ zeros 2 ++ be 8 x.value ++ be 8 x.tm

/-- Change a digest route at work. -/
def updRoute (s : State) (k : Nat) (f : DigestRun → DigestRun) : State :=
  updTide s fun t => { t with routes := t.routes.upd {} k f }

/-- A route sends one frame with the records at the front of its pending set (R495, R496). -/
def sendDigest (s : State) (k : Nat) : State :=
  let c := s.cfg.tide.routes.get {} k
  let x := s.tide.routes.get {} k
  let rs := x.recs.take (digestCap c)
  let bs := be 6 c.da ++ be 6 s.cfg.dev.cmdMac ++ be 2 c.etherType ++ be 1 1 ++ be 1 k ++ be 2 x.seq ++
    be 2 rs.length ++ be 2 (sat 16 x.lost) ++ be 8 s.tidemark ++ (rs.map (recBytes s)).flatten
  let s1 := updRoute s k fun y => { y with recs := y.recs.drop (digestCap c), seq := (y.seq + 1) % 65536, lost := 0 }
  sendFrame s1 (128 + c.link) c.cls (padFrame bs)

/-- A signal that finds its route's pending set full is lost; the event comes at most once a second (R494). -/
def digestLost (s : State) (e k : Nat) : State :=
  let x := s.tide.routes.get {} k
  let s1 := ttCount (updRoute s k fun y => { y with lost := y.lost + 1, lostSince := y.lostSince + 1 }) e 18 1
  if (x.eventAt.map fun t => decide (s.now < t + 4000000000)).getD false then s1
  else raise (updRoute s1 k fun y => { y with eventAt := some s.now, lostSince := 0 }) 0x4003 1 tideT
    (be 1 k ++ zeros 1 ++ be 2 (sat 16 (x.lostSince + 1)))

/-- A signal enters its route's pending set, or replaces its record there (R494). -/
def note (s : State) (e k : Nat) (r : DigestRec) : State :=
  if !(s.cfg.tide.routes.get {} k).on || r.reasons == 0 || 15 < k then s
  else
    let x := s.tide.routes.get {} k
    if x.recs.any fun y => y.signal == r.signal then
      ttCount (updRoute s k fun y => { y with recs := y.recs.map fun z =>
        if z.signal = r.signal then { r with reasons := z.reasons ||| r.reasons } else z }) e 17 1
    else if 4096 ≤ x.recs.length then digestLost s e k
    else updRoute s k fun y => { y with recs := y.recs ++ [r] }

/-- A route sends as many full frames as it holds records for, at most `fuel` of them (R495). -/
def sendFull (k : Nat) : Nat → State → State
  | 0, s => s
  | fuel + 1, s =>
    if digestCap (s.cfg.tide.routes.get {} k) ≤ (s.tide.routes.get {} k).recs.length ∧ (s.cfg.tide.routes.get {} k).on then
      sendFull k fuel (sendDigest s k)
    else s

/-- Every route sends what fills a frame: after all updates of an instant, so that no digest sees part of them (R485). -/
def digests (s : State) : State := (List.range 16).foldl (fun s k => sendFull k 4096 s) s

/-- The state byte of a signal has changed outside a message: it enters its route's pending set with flags bit 5 (R494). -/
def noteState (s : State) (o : State) (n : Nat) : State :=
  match (definedAt s.cfg.tide n).bind fun x => s.cfg.tide.layouts.get none x.1, defOf s.cfg.tide n with
  | some l, some d =>
    note s (l.source % 16) l.route { signal := n, reasons := 2 * b2n ((o.sig n).state != (s.sig n).state && d.flags.testBit 5) }
  | _, _ => s

/-- Store a signal's new entry, and note the change to the layout's digest route; the first commit of a signal changes its value (R494;
DEDUCED, log entry 144). -/
def storeSig (s : State) (e : Nat) (l : TtLayout) (d : SigDef) (x : Sig) : State :=
  let o := s.sig d.signal
  let s1 := updSig s d.signal fun _ => x
  let changed := x.count != o.count && (o.value != x.value || o.state % 4 == 0)
  note s1 e l.route
    { signal := d.signal, reasons := b2n (changed && d.flags.testBit 3) + 2 * b2n (x.state != o.state && d.flags.testBit 5) }

/-- A value lies in a definition's range (R491). -/
def inRange (d : SigDef) (v : Nat) : Bool :=
  if d.flags.testBit 1 then signed 64 d.lo ≤ signed 64 v && signed 64 v ≤ signed 64 d.hi else d.lo ≤ v && v ≤ d.hi

/-- Commit one signal from a payload (R490, R491). -/
def commitSig (s : State) (e : Nat) (l : TtLayout) (c : TtCopy) (ps : List Byte) (d : SigDef) : State :=
  let v := extract ps d
  let out := d.flags.testBit 2 && !inRange d v
  let s1 := if out then ttCount s e 14 1 else s
  let x : Sig := { value := v, tm := c.tm, count := ((s.sig d.signal).count + 1) % 2 ^ 64
                   state := 1 + 4 * b2n out + 16 * b2n !c.valid + 32 * b2n (s.stest.sigOut.contains d.signal)
                   since := s.now }
  storeSig (ttCount s1 e 8 1) e l d x

/-- Check fault is set on all of a layout's signals (R486). -/
def faultLayout (s : State) (e li : Nat) (l : TtLayout) : State :=
  (defsOf s.cfg.tide li).foldl (fun s d =>
    let o := s.sig d.signal
    storeSig s e l d { o with state := setBit o.state 3 }) s

/-- A passed message clears check fault on a signal that its selector leaves out too (R486 order 5, log entry 69). -/
def clearFault (s : State) (e : Nat) (l : TtLayout) (d : SigDef) : State :=
  let o := s.sig d.signal
  if o.state.testBit 3 then storeSig s e l d { o with state := clrBit o.state 3 } else s

/-! ### Checks of a message (R486 to R489) -/

/-- Change a receive layout at work. -/
def updLayout (s : State) (l : Nat) (f : LayoutRun → LayoutRun) : State :=
  updTide s fun t => { t with layouts := t.layouts.upd {} l f }

/-- The first check that a message fails: 0 none; and whether it is a duplicate. -/
def checkMessage (x : LayoutRun) (l : TtLayout) (c : TtCopy) (ps : List Byte) : Nat × Bool :=
  let wide := l.flags.testBit 1
  let got := fld ps (l.crcPos / 8) (if wide then 2 else 1)
  let n := l.aliveLen
  let d := (leField ps l.alivePos n + 2 ^ n - x.alive.getD 0) % 2 ^ n
  if ps.length < l.length then (1, false)
  else if l.flags.testBit 0 ∧ got ≠ layoutCrc wide l.dataId l.crcPos l.length ps then (2, false)
  else if l.flags.testBit 2 ∧ x.alive.isSome ∧ d = 0 then (3, true)
  else if l.flags.testBit 2 ∧ x.alive.isSome ∧ l.gap < d then (3, false)
  else if l.flags.testBit 3 ∧ !l.flags.testBit 2 ∧
      ((x.last.map fun p => p.1 == ps.take l.length && decide (c.tm ≤ p.2 + l.window * 4000) &&
        decide (p.2 ≤ c.tm + l.window * 4000)).getD false) then (4, true)
  else (0, false)

/-- `TT_CHECK_FAIL`, at most once a second per layout. -/
def checkFail (s : State) (li k alive : Nat) : State :=
  let x := s.tide.layouts.get {} li
  let s1 := updLayout s li fun y => { y with since := y.since + 1 }
  if (x.eventAt.map fun t => decide (s.now < t + 4000000000)).getD false then s1
  else raise (updLayout s1 li fun y => { y with eventAt := some s.now, since := 0 }) 0x4001 1 tideT
    (be 2 li ++ be 1 k ++ be 1 alive ++ be 2 (sat 16 (x.since + 1)))

/-- One message of a copy against its layout (R486). -/
def runMessage (s : State) (e : Nat) (c : TtCopy) (li : Nat) (l : TtLayout) (ps : List Byte) : State :=
  let x := s.tide.layouts.get {} li
  let got := leField ps l.alivePos l.aliveLen
  let s0 := fun (s : State) k => updLayout s li fun y => { y with check := k }
  match checkMessage x l c ps with
  | (k, true) => ttCount (updLayout (s0 s k) li fun y => { y with dups := y.dups + 1 }) e 13 1
  | (0, false) =>
    let s1 := if l.flags.testBit 2 ∧ x.alive.isSome then
        ttCount s e 12 ((got + 2 ^ l.aliveLen - x.alive.getD 0) % 2 ^ l.aliveLen - 1) else s
    let s2 := updLayout (ttCount s1 e 7 1) li fun y => { y with
      check := 5, committed := y.committed + 1, last := some (ps.take l.length, c.tm)
      alive := if l.flags.testBit 2 then some got else y.alive }
    let sel := leField ps l.selPos l.selLen
    (defsOf s.cfg.tide li).foldl (fun s d =>
      if !l.flags.testBit 4 || d.sel == 0xFFFF || d.sel == sel then commitSig s e l c ps d else clearFault s e l d) s2
  | (k, false) =>
    let s1 := ttCount (s0 s k) e (if k = 1 then 9 else if k = 2 then 10 else 11) 1
    let s2 := updLayout s1 li fun y => { y with
      fails := y.fails + 1, alive := if k = 3 then some got else y.alive }
    checkFail (faultLayout s2 e li l) li k (if l.flags.testBit 2 ∧ l.length ≤ ps.length then got else 0)

/-- A message finds its layout by its key (R481). -/
def findLayout (c : TideCfg) (src fmt bus id : Nat) : Option (Nat × TtLayout) :=
  c.layouts.findSome? fun x => x.2.bind fun l =>
    if l.source = src ∧ l.format = fmt ∧ l.bus = bus ∧ l.msgId = id then some (x.1, l) else none

/-- One message or PDU of a copy. -/
def takeMessage (e src : Nat) (c : TtCopy) (s : State) (m : Nat × Nat × Nat × List Byte) : State :=
  match findLayout s.cfg.tide src m.1 m.2.1 m.2.2.1 with
  | none => ttCount s e 6 1
  | some (li, l) => runMessage s e c li l m.2.2.2

/-! ### Source formats (R479, R480) -/

/-- What parsing a copy gives: its messages (format, bus, message ID, payload), ACF messages skipped, and a parse fault. -/
abbrev Parsed := List (Nat × Nat × Nat × List Byte) × Nat × Bool

/-- Offset of the EtherType after at most two VLAN tags. -/
def etOff (bs : List Byte) : Nat :=
  let tag := fun o => fld bs o 2 == 0x8100 || fld bs o 2 == 0x88A8
  if tag 12 then (if tag 16 then 20 else 16) else 12

/-- ACF messages (IEEE 1722-2016, log entry 18). -/
def parseAcf : Nat → List Byte → Parsed
  | 0, _ => ([], 0, false)
  | fuel + 1, bs =>
    if bs.isEmpty then ([], 0, false)
    else
      let ty := byteAt bs 0 / 2
      let n := (fld bs 0 2 % 512) * 4
      if bs.length < 4 ∨ n < 4 ∨ bs.length < n then ([], 0, true)
      else
        let b2 := byteAt bs 2
        let pad := b2 / 64
        let bus := byteAt bs 3 % 32
        let (ms, k, bad) := parseAcf fuel (bs.drop n)
        let can := fun hd =>
          if n < hd + pad then (ms, k, true)
          else if b2.testBit 4 then (ms, k + 1, bad)
          else
            let id := fld bs (hd - 4) 4 % 2 ^ 29
            ((if b2.testBit 1 then 2 else 1, bus, if b2.testBit 3 then id + 2 ^ 31 else id,
              ((bs.take n).drop hd).take (n - hd - pad)) :: ms, k, bad)
        if ty = 1 then can 16
        else if ty = 2 then can 8
        else if ty = 3 then
          if n < 12 + pad then (ms, k, true)
          else ((3, b2 % 32, byteAt bs 3, ((bs.take n).drop 12).take (n - 12 - pad)) :: ms, k, bad)
        else (ms, k + 1, bad)

/-- Tagged PDUs: a header whose length runs past the payload ends parsing. -/
def parseTagged : Nat → List Byte → Parsed
  | 0, _ => ([], 0, false)
  | fuel + 1, bs =>
    if bs.isEmpty then ([], 0, false)
    else if bs.length < 8 ∨ bs.length < 8 + fld bs 4 4 then ([], 0, true)
    else
      let n := fld bs 4 4
      let (ms, k, bad) := parseTagged fuel (bs.drop (8 + n))
      ((5, 0, fld bs 0 4, (bs.drop 8).take n) :: ms, k, bad)

/-- UDP destination port and payload of an IPv4 or IPv6 packet that is no fragment. -/
def udpOf (et : Nat) (p : List Byte) : Option (Nat × List Byte) :=
  let udp := fun (u : List Byte) =>
    if u.length < 8 ∨ fld u 4 2 < 8 ∨ u.length < fld u 4 2 then none
    else some (fld u 2 2, (u.take (fld u 4 2)).drop 8)
  if et = 0x0800 then
    let hl := byteAt p 0 % 16 * 4
    if byteAt p 0 / 16 ≠ 4 ∨ hl < 20 ∨ p.length < fld p 2 2 ∨ fld p 2 2 < hl ∨ byteAt p 9 ≠ 17 ∨
      fld p 6 2 % 16384 ≠ 0 then none
    else udp ((p.take (fld p 2 2)).drop hl)
  else if et = 0x86DD then
    if byteAt p 0 / 16 ≠ 6 ∨ byteAt p 6 ≠ 17 ∨ p.length < 40 + fld p 4 2 then none
    else udp ((p.take (40 + fld p 4 2)).drop 40)
  else none

/-- Parse a copy by its source format; its FCS is left out. -/
def parseCopy (fmt : Nat) (frame : List Byte) : Parsed :=
  let bs := frame.take (frame.length - 4)
  let o := etOff bs
  let et := fld bs o 2
  let p := bs.drop (o + 2)
  if fmt = 1 then
    if et ≠ 0x22F0 then ([], 0, true)
    else if byteAt p 0 = 0x05 then
      let n := fld p 20 2
      if p.length < 24 + n then ([], 0, true) else parseAcf 400 ((p.drop 24).take n)
    else if byteAt p 0 = 0x82 then
      let n := fld p 1 2 % 2048
      if p.length < 12 + n then ([], 0, true) else parseAcf 400 ((p.drop 12).take n)
    else ([], 0, true)
  else match udpOf et p with
    | none => ([], 0, true)
    | some (port, q) => if fmt = 2 then ([(4, 0, port, q)], 0, false) else parseTagged 1400 q

/-! ### Copies (R479, R482, R485, R512) -/

/-- Bytes held in an input queue. -/
def queueBytes (l : List TtCopy) : Nat := (l.map fun c => c.bytes.length).sum

/-- A copy reaches the Tide Table: unbound, dropped at a full queue, or taken (R479, R482). -/
def tideCopy (s : State) (c : TtCopy) : State :=
  match s.cfg.tide.binds.get none c.handle with
  | none => ttCount s 0 1 1
  | some (src, _) =>
    let e := src % 16
    let q := s.tide.inputs.get [] e
    if engineStopped s e then ttCount s e 2 1
    else if 256 ≤ q.length ∨ 131072 < queueBytes q + c.bytes.length then
      let s1 := ttCount s e 2 1
      if s.tide.full.testBit e then s1
      else raise (updTide s1 fun t => { t with full := setBit t.full e }) 0x4002 1 (engineT e) (be 1 e ++ be 1 1)
    else ttCount (updTide s fun t => { t with inputs := t.inputs.set [] e (q ++ [c]) }) e 0 1

/-- The next copy leaves an engine's queue; space after a full queue is reported. -/
def popCopy (s : State) (e : Nat) : State :=
  let s1 := updTide s fun t => { t with inputs := t.inputs.upd [] e (·.drop 1) }
  if s.tide.full.testBit e then
    raise (updTide s1 fun t => { t with full := clrBit t.full e }) 0x4002 1 (engineT e) (be 1 e ++ be 1 0)
  else s1

/-- Take one injected error of a point for an access at a target word (R685). -/
def takeInject (s : State) (point t all : Nat) : State × Bool :=
  match s.integ.inject.find? fun x => x.point == point && (x.target == t || x.target == all) && x.count != 0 with
  | none => (s, false)
  | some x =>
    ({ s with integ := { s.integ with inject := (s.integ.inject.map fun y =>
        if y = x then { y with count := y.count - 1 } else y).filter fun y => y.count != 0 } }, true)

/-- An uncorrectable signal entry: memory fault, `TT_ECC_ERROR`, an entry of class 2, and its rate count (R484, R513). -/
def sigEcc (s : State) (e n : Nat) : State :=
  let s0 := (updSig s n fun x => { x with state := setBit x.state 5, value := (Config.sigBits s.freeCtr).toNat }).draw
  let s1 := noteState s0 s n
  let s2 := raise (faultEntry s1 0x4004 2 (engineT e) (be 4 n)) 0x4004 2 (engineT e) (be 4 n)
  rateError s2 5 0

/-! ### Republication (R497 to R499) -/

/-- Ones' complement sum of 16-bit words. -/
def sum16 (bs : List Byte) : Nat :=
  let t := ((List.range ((bs.length + 1) / 2)).map fun i => fld (bs ++ [0]) (2 * i) 2).sum
  let f := fun x => x % 65536 + x / 65536
  f (f (f t))

/-- The checksum of bytes: the complement of their sum. -/
def cksum (bs : List Byte) : Nat := 65535 - sum16 bs

/-- The IPv4 header checksum of a header at an offset, written anew. -/
def ipCksum (bs : List Byte) (o : Nat) : List Byte :=
  let b := patch bs (o + 10) (zeros 2)
  patch b (o + 10) (be 2 (cksum ((b.drop o).take (byteAt b o % 16 * 4))))

/-- The UDP checksum of a datagram at an offset, written anew: the IP header before it gives the pseudo header (IPv6 when
byte 40 before it has version 6, log entry 19). -/
def udpCksum (bs : List Byte) (ipv4 : Option Nat) (o : Nat) : List Byte :=
  let b := patch bs (o + 6) (zeros 2)
  let n := fld b (o + 4) 2
  let pseudo := match ipv4 with
    | some i => (b.drop (i + 12)).take 8 ++ be 2 17 ++ be 2 n
    | none =>
      if 40 ≤ o ∧ byteAt b (o - 40) / 16 = 6 then (b.drop (o - 32)).take 32 ++ be 4 n ++ be 4 17
      else (b.drop (o - 8)).take 8 ++ be 2 17 ++ be 2 n
  let c := cksum (pseudo ++ (b.drop o).take n)
  patch b (o + 6) (be 2 (if c = 0 then 0xFFFF else c))

/-- The frame of a compose layout, without FCS (R497). -/
def composeFrame (s : State) (li : Nat) (c : TtCompose) : List Byte :=
  let x := s.tide.composes.get {} li
  let t := padTo c.length (s.cfg.tide.templates.get [] li)
  let pay := (defsOf s.cfg.tide li).foldl (fun p d => putBits p (sigBitsAt d) (s.sig d.signal).value) (t.drop c.payload)
  let p1 := if c.aliveLen = 0 then pay else putBits pay ((List.range c.aliveLen).map (c.alivePos + ·)) x.alive
  let p2 := if c.crcKind = 0 then p1
    else patch p1 (c.crcPos / 8) (be c.crcKind (layoutCrc (c.crcKind == 2) c.dataId c.crcPos c.payLen p1))
  let f1 := t.take c.payload ++ p2
  let f2 := if c.seqOff = 0xFFFF then f1 else patch f1 c.seqOff (be 1 ((byteAt t c.seqOff + x.seq + 1) % 256))
  let f3 := if c.flags.testBit 3 then ipCksum f2 c.ipOff else f2
  if c.flags.testBit 4 then udpCksum f3 (if c.flags.testBit 3 then some c.ipOff else none) c.udpOff else f3

/-- Change a compose layout at work. -/
def updCompose (s : State) (l : Nat) (f : ComposeRun → ComposeRun) : State :=
  updTide s fun t => { t with composes := t.composes.upd {} l f }

/-- A compose layout sends its frame for trigger `k`, or is suppressed while a placed signal is stale or never updated (R499). -/
def composeSend (s : State) (k li : Nat) (c : TtCompose) : State :=
  let s0 := updCompose s li fun x => { x with held := false }
  if c.flags.testBit 2 ∧ (defsOf s.cfg.tide li).any (fun d => (s.sig d.signal).state % 4 != 1) then
    ttCount s0 (li % 16) 20 1
  else
    let s1 := updCompose s0 li fun x => { x with
      alive := if c.aliveLen = 0 then 0 else (x.alive + 1) % 2 ^ c.aliveLen, seq := (x.seq + 1) % 256
      sentAt := some s.now, by_ := k, sent := x.sent + 1 }
    ttCount (sendFrame s1 c.egress c.cls (composeFrame s li c)) (li % 16) 19 1

/-- The period or a command triggers a compose layout at the very moment at which another trigger has made its frame. -/
def coincides (s : State) (k li : Nat) : Bool :=
  let x := s.tide.composes.get {} li
  k != 1 && x.by_ != k && x.sentAt == some s.now

/-- Trigger `k` of a compose layout: held within the minimum interval; triggers that coincide make one frame (R498). -/
def composeTrigger (s : State) (k li : Nat) : State :=
  match s.cfg.tide.composes.get none li with
  | none => s
  | some c =>
    if coincides s k li then s
    else if ((s.tide.composes.get {} li).sentAt.map fun t => decide (s.now < t + c.minInt * 4000000)).getD false then
      updCompose s li fun x => { x with held := true }
    else composeSend s k li c

/-- The compose layouts that send on change and place a signal whose value differs between two states. -/
def changedComposes (o s : State) : List Nat :=
  (s.cfg.tide.composes.filter fun x => ((x.2.map fun c => c.flags.testBit 1).getD false) &&
    (defsOf s.cfg.tide x.1).any fun d => (o.sig d.signal).value != (s.sig d.signal).value).map (·.1)

/-- What engine `e` does with a copy taken from its queue: extraction, checks and commits; a staging parity failure and an
uncorrectable entry are what the memories meet in it (R484, R485, R512). -/
def takeCopy (s1 : State) (e : Nat) (c : TtCopy) (parity : Bool) (bad : Option (Fin 131072)) : State :=
  let (s2, inj) := takeInject s1 9 (engineT e) tideT
  if parity || inj then ttCount (s2.bump 0x0905 0 3) e 3 1
  else if !c.good then ttCount s2 e 3 1
  else match s2.cfg.tide.binds.get none c.handle with
    | none => s2
    | some (src, fmt) =>
      let (ms, skipped, fault) := parseCopy fmt c.bytes
      let s3 := ttCount (if fault then ttCount s2 e 4 1 else s2) e 5 skipped
      let s4 := ms.foldl (takeMessage e src c) s3
      let s5 := (changedComposes s3 s4).foldl (fun s l => composeTrigger s 1 l) s4
      let (s6, inj2) := takeInject s5 8 (engineT e) tideT
      let hit := ms.head?.bind fun m => (findLayout s6.cfg.tide src m.1 m.2.1 m.2.2.1).bind fun x => (defsOf s6.cfg.tide x.1).head?
      let s7 := match if inj2 then hit else none with
        | some d => sigEcc s6 e d.signal
        | none => s6
      match bad with
      | some n => sigEcc s7 e n.val
      | none => s7

/-- TT_COPY_PROCESS: engine `e` takes its next copy, and all its updates become visible at one instant (R485). -/
def execTtCopyProcess (e : Fin 16) (parity : Bool) (corrected : Nat) (bad : Option (Fin 131072)) (s : State) :
    Host.Outcome State Fault Refusal :=
  .next (match s.tide.inputs.get [] e.val with
    | [] => s
    | c :: _ => if tideRuns s then digests (takeCopy (ttCount (popCopy s e.val) e.val 16 corrected) e.val c parity bad) else s)

/-- TT_SIGNAL_STALE: a freshness period passes with no commit (R492). -/
def execTtSignalStale (n : Fin 131072) (s : State) : Host.Outcome State Fault Refusal :=
  .next (match (definedAt s.cfg.tide n.val).bind fun x => s.cfg.tide.layouts.get none x.1, defOf s.cfg.tide n.val with
    | some l, some d =>
      let o := s.sig n.val
      if tideRuns s && d.flags.testBit 4 && o.state % 4 != 2 then
        digests (storeSig (ttCount s (l.source % 16) 15 1) (l.source % 16) l d { o with state := o.state / 4 * 4 + 2 })
      else s
    | _, _ => s)

/-- TT_DIGEST_FLUSH: a route's flush interval has passed since its oldest record entered (R495). -/
def execTtDigestFlush (k : Fin 16) (s : State) : Host.Outcome State Fault Refusal :=
  .next (if tideRuns s && !(s.tide.routes.get {} k.val).recs.isEmpty then sendDigest s k.val else s)

/-- TT_COMPOSE_PERIODIC: a period of a compose layout elapses on the ticker (R498). -/
def execTtComposePeriodic (l : Fin 16384) (s : State) : Host.Outcome State Fault Refusal :=
  .next (if tideRuns s && ((s.cfg.tide.composes.get none l.val).map fun c => c.flags.testBit 0).getD false then
    composeTrigger s 0 l.val else s)

/-- TT_COMPOSE_HOLD_END: the minimum interval ends and a held trigger sends its frame (R498). -/
def execTtComposeHoldEnd (l : Fin 16384) (s : State) : Host.Outcome State Fault Refusal :=
  .next (match s.cfg.tide.composes.get none l.val with
    | some c => if tideRuns s && (s.tide.composes.get {} l.val).held then composeSend s 3 l.val c else s
    | none => s)

/-! ### Resets and Parked exit -/

/-- A reset of an engine discards its queued copies, and clears the alive references of its layouts (R555). -/
def engineReset (s : State) (e : Nat) : State :=
  let s1 := ttCount s e 2 (s.tide.inputs.get [] e).length
  let mine := (s.cfg.tide.layouts.filter fun x => ((x.2.map fun l => l.source % 16 == e)).getD false).map (·.1)
  updTide s1 fun t => { t with
    inputs := t.inputs.set [] e [], full := clrBit t.full e
    layouts := mine.foldl (fun m l => m.upd {} l fun x => { x with alive := none }) t.layouts }

/-- A reset of the Tide Table: queued copies counted, pending digests discarded, entries never updated, alive references and
digest sequences cleared, configuration kept. -/
def tideReset (s : State) : State :=
  let s1 := eachN s (List.range 16) engineReset
  let fresh := s.cfg.tide.defs.filterMap fun x => x.2.map (·.signal)
  updTide s1 fun t => { t with
    sigs := fresh.foldl (fun m n => m.set {} n { since := s.now }) [], blank := {}, routes := []
    layouts := t.layouts.map fun x => (x.1, { x.2 with last := none }) }

/-- A signal entry marked stale; its value stays (R358). -/
def staleSig (x : Sig) : Sig := { x with state := x.state / 4 * 4 + 2 }

/-- Parked exit: every signal of the table stale, and the alive references gone (R358, R488); a changed state byte is noted (R494). -/
def tideUnpark (s : State) : State :=
  let all := (s.tide.sigs.map (·.1)) ++ s.cfg.tide.defs.filterMap fun x => x.2.map (·.signal)
  let s1 := updTide s fun t => { t with
    sigs := t.sigs.foldl (fun m x => m.set (staleSig t.blank) x.1 (staleSig x.2)) [], blank := staleSig t.blank
    layouts := t.layouts.foldl (fun m x => m.set {} x.1 { x.2 with alive := none }) [] }
  digests (all.eraseDups.foldl (fun t n => noteState t s n) s1)

/-! ### Commands -/

/-- The Tide Table as the block of a command. -/
def ttConf (op n : Nat) (check : State → Req → Option Status) (f : State → Req → State) : Cmd := confCmd op onTT n check f

/-- TT_SOURCE_BIND (0x4001). -/
def ttSourceBindCmd : Cmd :=
  ttConf 0x4001 8
    (fun s r => firstFail [inv (p32 r 0 ≤ 131071), inv (p16 r 4 ≤ 4095), inv (within (p8 r 7) 1 2),
      inv (within (p8 r 6) 1 3),
      rng (p8 r 7 == 2 || (s.cfg.tide.binds.get none (p32 r 0)).isSome || s.cfg.tide.binds.length < 8192)])
    (fun s r => updTideCfg s fun c => { c with
      binds := c.binds.set none (p32 r 0) (if p8 r 7 = 1 then some (p16 r 4, p8 r 6) else none) })

/-- TT_SOURCE_BIND. -/
def execTtSourceBind (r : Req) (s : State) : Host.Outcome State Fault Refusal := .next (serve ttSourceBindCmd r s)

/-- The layout that TT_LAYOUT_SET carries. -/
def ttLayoutOf (r : Req) : TtLayout :=
  { format := p8 r 2, bus := p8 r 3, source := p16 r 4, length := p16 r 6, msgId := p32 r 8, flags := p8 r 12,
    route := p8 r 13, dataId := p16 r 14, crcPos := p16 r 16, alivePos := p16 r 18, aliveLen := p8 r 20, gap := p8 r 21,
    selPos := p16 r 22, selLen := p8 r 24, window := p16 r 26 }

/-- Greatest payload length of a layout format (R481). -/
def formatLimit (f : Nat) : Nat := if f = 1 then 8 else if f = 2 then 64 else if f = 3 then 8 else 1472

/-- A message ID fits its layout format (R481). -/
def idOk (f id : Nat) : Bool :=
  match f with
  | 1 => id < 0x800 || (2 ^ 31 ≤ id && id % 2 ^ 31 < 2 ^ 29)
  | 2 => id < 0x800 || (2 ^ 31 ≤ id && id % 2 ^ 31 < 2 ^ 29)
  | 3 => id < 256
  | 4 => id < 65536
  | _ => true

/-- Every bit of a definition lies in a payload of `n` bytes (R483). -/
def defFits (n : Nat) (d : SigDef) : Bool :=
  (sigBitsAt d).length == d.length && (sigBitsAt d).all fun q => q < 8 * n

/-- The checks of a receive layout's fields against its flags and its payload (R487 to R490, R501). -/
def layoutFields (l : TtLayout) : List (Bool × Status) :=
  let n := 8 * l.length
  [inv (if l.flags.testBit 0 then l.crcPos % 8 == 0 && l.crcPos + (if l.flags.testBit 1 then 16 else 8) ≤ n
      else !l.flags.testBit 1 && l.crcPos == 0 && l.dataId == 0),
    inv (if l.flags.testBit 2 then (l.aliveLen == 4 || l.aliveLen == 8) && l.gap ≠ 0 && l.alivePos + l.aliveLen ≤ n
      else l.alivePos == 0 && l.aliveLen == 0 && l.gap == 0),
    inv (if l.flags.testBit 3 then l.window ≠ 0 else l.window == 0),
    inv (if l.flags.testBit 4 then l.selLen ≠ 0 && (16 < l.selLen || l.selPos + l.selLen ≤ n)
      else l.selPos == 0 && l.selLen == 0),
    rng (!l.flags.testBit 2 || l.gap < 2 ^ l.aliveLen), rng (l.selLen ≤ 16), rng (l.window ≤ 1000)]

/-- A layout or a definition has changed: the signal's entry resets to never updated, and its pending digest record
goes. -/
def resetSig (s : State) (n : Nat) : State :=
  updTide s fun t => { t with
    sigs := t.sigs.set t.blank n { since := s.now }
    routes := t.routes.map fun x => (x.1, { x.2 with recs := x.2.recs.filter fun y => y.signal != n }) }

/-- TT_LAYOUT_SET (0x4002). -/
def ttLayoutSetCmd : Cmd :=
  ttConf 0x4002 32
    (fun s r =>
      let l := ttLayoutOf r
      let c := s.cfg.tide
      firstFail ([inv (rz r 25 1), inv (rz r 28 4), inv (l.flags < 32), inv (p16 r 0 ≤ 16383), inv (within l.format 1 5),
        inv (l.source ≤ 4095), inv (l.format ≤ 3 || l.bus == 0), inv (l.bus ≤ 31), inv (idOk l.format l.msgId),
        inv (l.route ≤ 15 || l.route == 0xFF), inv (l.length ≠ 0), rng (l.length ≤ formatLimit l.format)] ++
        layoutFields l ++
        [inv (c.composes.get none (p16 r 0)).isNone,
         inv (!c.layouts.any fun x => x.1 != p16 r 0 && ((x.2.map fun o => o.source == l.source && o.format == l.format &&
           o.bus == l.bus && o.msgId == l.msgId).getD false)),
         inv ((defsOf c (p16 r 0)).all (defFits l.length))]))
    (fun s r =>
      let l := ttLayoutOf r
      if s.cfg.tide.layouts.get none (p16 r 0) = some l then s
      else
        let s1 := updTideCfg s fun c => { c with layouts := c.layouts.set none (p16 r 0) (some l) }
        let s2 := updTide s1 fun t => { t with layouts := t.layouts.set {} (p16 r 0) {} }
        (defsOf s.cfg.tide (p16 r 0)).foldl (fun s d => resetSig s d.signal) s2)

/-- TT_LAYOUT_SET. -/
def execTtLayoutSet (r : Req) (s : State) : Host.Outcome State Fault Refusal := .next (serve ttLayoutSetCmd r s)

/-- A layout index is in use. -/
def layoutUsed (c : TideCfg) (l : Nat) : Bool := (c.layouts.get none l).isSome || (c.composes.get none l).isSome

/-- TT_LAYOUT_DELETE (0x4003). -/
def ttLayoutDeleteCmd : Cmd :=
  ttConf 0x4003 4 (fun s r => firstFail [inv (rz r 2 2), inv (layoutUsed s.cfg.tide (p16 r 0))])
    (fun s r =>
      let l := p16 r 0
      let s1 := if (s.cfg.tide.layouts.get none l).isSome then
        (defsOf s.cfg.tide l).foldl (fun s d => resetSig s d.signal) s else s
      let s2 := updTideCfg s1 fun c => { c with
        layouts := c.layouts.set none l none, composes := c.composes.set none l none, templates := c.templates.set [] l []
        defs := c.defs.dropRange (l * 64) (l * 64 + 64) }
      updTide s2 fun t => { t with layouts := t.layouts.set {} l {}, composes := t.composes.set {} l {} })

/-- TT_LAYOUT_DELETE. -/
def execTtLayoutDelete (r : Req) (s : State) : Host.Outcome State Fault Refusal := .next (serve ttLayoutDeleteCmd r s)

/-- The definition at an offset of the parameters. -/
def sigDefOf (r : Req) (o : Nat) : SigDef :=
  { signal := p32 r o, pos := p16 r (o + 4), length := p8 r (o + 6), flags := p8 r (o + 7), fresh := p16 r (o + 8),
    sel := p16 r (o + 10), lo := p64 r (o + 16), hi := p64 r (o + 24) }

/-- The definitions that TT_SIGNAL_DEFINE carries, with their places. -/
def defsIn (r : Req) : List (Nat × SigDef) :=
  (List.range (p8 r 3)).map fun i => (p16 r 0 * 64 + p8 r 2 + i, sigDefOf r (4 + 32 * i))

/-- A definition is well formed for a receive layout. -/
def rxDefOk (l : TtLayout) (d : SigDef) : Bool :=
  d.signal ≤ 131071 && d.length ≠ 0 && d.flags < 64 && (64 < d.length || defFits l.length d) &&
    (if d.flags.testBit 4 then d.fresh ≠ 0 else d.fresh == 0) &&
    (if d.flags.testBit 2 then
      (if d.flags.testBit 1 then signed 64 d.lo ≤ signed 64 d.hi else d.lo ≤ d.hi)
    else d.lo == 0 && d.hi == 0)

/-- A definition is well formed for a compose layout. -/
def txDefOk (c : TtCompose) (d : SigDef) : Bool :=
  d.signal ≤ 131071 && d.length ≠ 0 && d.flags < 4 && (64 < d.length || defFits c.payLen d) && d.fresh == 0 && d.sel == 0 &&
    d.lo == 0 && d.hi == 0

/-- No signal of a receive layout is defined in two slots, with the definitions given. -/
def oneSlotEach (c : TideCfg) (ds : List (Nat × SigDef)) : Bool :=
  (ds.map fun x => x.2.signal).Nodup &&
    ds.all fun x => !c.defs.any fun y => !(ds.map (·.1)).contains y.1 && (c.layouts.get none (y.1 / 64)).isSome &&
      ((y.2.map fun d => d.signal == x.2.signal).getD false)

/-- TT_SIGNAL_DEFINE (0x4004). -/
def ttSignalDefineCmd : Cmd :=
  { ttConf 0x4004 0
      (fun s r =>
        let c := s.cfg.tide
        let ds := defsIn r
        firstFail [inv ((List.range (p8 r 3)).all fun i => rz r (4 + 32 * i + 12) 4),
          inv (ds.all fun x => x.2.flags < (if (c.composes.get none (p16 r 0)).isSome then 4 else 64)), inv (p16 r 0 ≤ 16383),
          rng (p8 r 3 ≤ 31), rng (p8 r 2 + p8 r 3 ≤ 64), inv (p8 r 3 == 0 || layoutUsed c (p16 r 0)),
          inv (match c.layouts.get none (p16 r 0), c.composes.get none (p16 r 0) with
            | some l, _ => ds.all (fun x => rxDefOk l x.2) && oneSlotEach c ds
            | _, some t => ds.all fun x => txDefOk t x.2
            | _, _ => p8 r 3 == 0),
          rng (ds.all fun x => x.2.length ≤ 64),
          rng (ds.all fun x => x.2.fresh ≤ 60000)])
      (fun s r => (defsIn r).foldl (fun s x =>
        let o := s.cfg.tide.defs.get none x.1
        if o = some x.2 then s
        else
          let rx := (s.cfg.tide.layouts.get none (p16 r 0)).isSome
          let s1 := updTideCfg s fun c => { c with defs := c.defs.set none x.1 (some x.2) }
          if rx then (o.toList.map (·.signal) ++ [x.2.signal]).foldl resetSig s1 else s1) s) with
    len := lenBy 4 32 3 1 }

/-- TT_SIGNAL_DEFINE. -/
def execTtSignalDefine (r : Req) (s : State) : Host.Outcome State Fault Refusal := .next (serve ttSignalDefineCmd r s)

/-- The compose layout that TT_COMPOSE_SET carries. -/
def composeOf (r : Req) : TtCompose :=
  { egress := p16 r 2, cls := p8 r 4, flags := p8 r 5, length := p16 r 6, period := p16 r 8, minInt := p16 r 10,
    payload := p16 r 12, crcKind := p8 r 14, aliveLen := p8 r 15, crcPos := p16 r 16, dataId := p16 r 18,
    alivePos := p16 r 20, payLen := p16 r 22, seqOff := p16 r 24, ipOff := p16 r 26, udpOff := p16 r 28 }

/-- TT_COMPOSE_SET (0x4005). -/
def ttComposeSetCmd : Cmd :=
  ttConf 0x4005 32
    (fun s r =>
      let c := composeOf r
      let n := 8 * c.payLen
      firstFail [inv (rz r 30 2), inv (p16 r 0 ≤ 16383), inv (posOk s c.egress), inv (c.flags < 32), inv (c.length ≠ 0),
        inv (c.payLen ≠ 0), inv (c.minInt ≠ 0), inv (if c.flags.testBit 0 then c.period ≠ 0 else c.period == 0),
        inv (c.crcKind ≤ 2), inv (c.aliveLen == 0 || c.aliveLen == 4 || c.aliveLen == 8),
        inv (c.payload + c.payLen ≤ c.length),
        inv (if c.crcKind = 0 then c.crcPos == 0 && c.dataId == 0 else c.crcPos % 8 == 0 && c.crcPos + 8 * c.crcKind ≤ n),
        inv (if c.aliveLen = 0 then c.alivePos == 0 else c.alivePos + c.aliveLen ≤ n),
        inv (c.seqOff == 0xFFFF || c.seqOff < c.length),
        inv (if c.flags.testBit 3 then c.ipOff + 20 ≤ c.length else c.ipOff == 0),
        inv (if c.flags.testBit 4 then c.udpOff + 8 ≤ c.length else c.udpOff == 0),
        inv (s.cfg.tide.layouts.get none (p16 r 0)).isNone, inv ((defsOf s.cfg.tide (p16 r 0)).all (defFits c.payLen)),
        rng (c.cls ≤ 7), rng (within c.length 60 1518), rng (c.period ≤ 10000), rng (c.minInt ≤ 10000)])
    (fun s r => updTideCfg s fun t => { t with composes := t.composes.set none (p16 r 0) (some (composeOf r)) })

/-- TT_COMPOSE_SET. -/
def execTtComposeSet (r : Req) (s : State) : Host.Outcome State Fault Refusal := .next (serve ttComposeSetCmd r s)

/-- TT_COMPOSE_TEMPLATE (0x4006). -/
def ttComposeTemplateCmd : Cmd :=
  { ttConf 0x4006 0
      (fun s r => firstFail [inv (rz r 6 2), inv (match s.cfg.tide.composes.get none (p16 r 0) with
          | some c => p16 r 2 + p16 r 4 ≤ c.length
          | none => false), rng (p16 r 4 ≤ 1016)])
      (fun s r => updTideCfg s fun c =>
        let o := c.templates.get [] (p16 r 0)
        let n := patch (padTo (max o.length (p16 r 2 + p16 r 4)) o) (p16 r 2) (r.params.drop 8)
        { c with templates := c.templates.set [] (p16 r 0) n }) with
    len := lenBy 8 1 4 2 }

/-- TT_COMPOSE_TEMPLATE. -/
def execTtComposeTemplate (r : Req) (s : State) : Host.Outcome State Fault Refusal :=
  .next (serve ttComposeTemplateCmd r s)

/-- Greatest frame length that a digest route to a link may use. -/
def linkMaxFrame (s : State) (k : Nat) : Nat := if s.linkWidth k = 0 then 10240 else (s.cfg.links.get {} k).maxFrame

/-- TT_DIGEST_ROUTE_SET (0x4007). A route that is disabled discards its pending records. -/
def ttDigestRouteSetCmd : Cmd :=
  ttConf 0x4007 16
    (fun s r =>
      firstFail [inv (p8 r 0 ≤ 15), inv (p8 r 1 ≤ 1), inv (p8 r 3 ≤ 63),
        inv (!etherTypeBarred (p16 r 4) && p16 r 4 ≠ s.cfg.dev.etherType), inv (p16 r 14 ≠ 0), inv (p16 r 12 ≠ 0),
        rng (p8 r 2 ≤ 7), rng (within (p16 r 12) 64 (linkMaxFrame s (p8 r 3))), rng (p16 r 14 ≤ 10000)])
    (fun s r =>
      let c : DigestCfg := { on := p8 r 1 == 1, cls := p8 r 2, link := p8 r 3, etherType := p16 r 4, da := pN r 6 6,
                             maxLen := p16 r 12, flush := p16 r 14 }
      let s1 := updTideCfg s fun t => { t with routes := t.routes.set {} (p8 r 0) c }
      if c.on then s1 else updRoute s1 (p8 r 0) fun x => { x with recs := [] })

/-- TT_DIGEST_ROUTE_SET. -/
def execTtDigestRouteSet (r : Req) (s : State) : Host.Outcome State Fault Refusal := .next (serve ttDigestRouteSetCmd r s)

/-- The 32 bytes of a signal entry as read. -/
def sigEntry (s : State) (n : Nat) : List Byte :=
  let x := s.sig n
  let (l, k) := (definedAt s.cfg.tide n).getD (0xFFFF, 0xFF)
  be 8 x.value ++ be 8 x.tm ++ be 8 x.count ++ be 1 x.state ++ zeros 1 ++ be 2 l ++ be 1 k ++ zeros 3

/-- TT_SIGNAL_READ (0x4010). -/
def ttSignalReadCmd : Cmd :=
  { readCmd 0x4010 onTT 8 (fun s r => ((List.range (p16 r 4)).map fun i => sigEntry s (p32 r 0 + i)).flatten) with
    check := fun _ r => firstFail [inv (rz r 6 2), rng (p16 r 4 ≤ 32),
      rng (p16 r 4 == 0 || p32 r 0 + p16 r 4 ≤ 131072)] }

/-- TT_SIGNAL_READ. -/
def execTtSignalRead (r : Req) (s : State) : Host.Outcome State Fault Refusal := .next (serve ttSignalReadCmd r s)

/-- The signals and values that TT_SIGNAL_WRITE carries. -/
def writesIn (r : Req) : List (Nat × Nat) := (List.range (p16 r 0)).map fun i => (p32 r (4 + 16 * i), p64 r (12 + 16 * i))

/-- TT_SIGNAL_WRITE (0x4011): all values are stored at one instant; the entries read fresh and host-written. -/
def ttSignalWriteCmd : Cmd where
  op := 0x4011
  target := onTT
  len := lenBy 4 16 0 2
  check := fun s r => firstFail [inv (rz r 2 2), inv ((List.range (p16 r 0)).all fun i => rz r (8 + 16 * i) 4),
    inv ((writesIn r).all fun x => x.1 ≤ 131071), rng (p16 r 0 ≤ 63),
    ((writesIn r).all fun x => (definedAt s.cfg.tide x.1).isNone, .notPermitted)]
  writes := true
  run := doOk fun s r =>
    let s1 := (writesIn r).foldl (fun s x => updSig s x.1 fun o =>
      { o with value := x.2, tm := s.tidemark, count := (o.count + 1) % 2 ^ 64, since := s.now
               state := 65 + 16 * b2n !s.timeValid + 32 * b2n (s.stest.sigOut.contains x.1) }) s
    (changedComposes s s1).foldl (fun s l => composeTrigger s 1 l) s1

/-- TT_SIGNAL_WRITE. -/
def execTtSignalWrite (r : Req) (s : State) : Host.Outcome State Fault Refusal := .next (serve ttSignalWriteCmd r s)

/-- TT_LAYOUT_STATUS (0x4012). -/
def ttLayoutStatusCmd : Cmd :=
  { readCmd 0x4012 onTT 4 (fun s r =>
      let x := s.tide.layouts.get {} (p16 r 0)
      let rx := (s.cfg.tide.layouts.get none (p16 r 0)).isSome
      let tx := (s.cfg.tide.composes.get none (p16 r 0)).isSome
      be 1 (if rx then 1 else if tx then 2 else 0) ++ be 1 x.check ++ be 1 (x.alive.getD 0) ++ zeros 5 ++ be 8 x.committed ++
        be 8 x.fails ++ be 8 (if tx then (s.tide.composes.get {} (p16 r 0)).sent else x.dups)) with
    check := fun _ r => firstFail [inv (rz r 2 2), inv (p16 r 0 ≤ 16383)] }

/-- TT_LAYOUT_STATUS. -/
def execTtLayoutStatus (r : Req) (s : State) : Host.Outcome State Fault Refusal := .next (serve ttLayoutStatusCmd r s)

/-- TT_STATUS (0x4013). -/
def ttStatusCmd : Cmd := readCmd 0x4013 onTT 0 fun s _ =>
  let c := s.cfg.tide
  be 2 (c.layouts.length + c.composes.length) ++ be 2 c.binds.length ++
    be 4 (c.defs.filter fun x => (c.layouts.get none (x.1 / 64)).isSome).length ++ be 2 s.tide.full ++
    be 2 (maskOf ((s.tide.routes.filter fun x => x.2.lost != 0).map (·.1))) ++ zeros 4

/-- TT_STATUS. -/
def execTtStatus (r : Req) (s : State) : Host.Outcome State Fault Refusal := .next (serve ttStatusCmd r s)

/-- TT_COMPOSE_SEND (0x4014). -/
def ttComposeSendCmd : Cmd where
  op := 0x4014
  target := onTT
  len := len 4
  check := fun s r => firstFail [inv (rz r 2 2), inv (s.cfg.tide.composes.get none (p16 r 0)).isSome]
  run := doOk fun s r => composeTrigger s 2 (p16 r 0)

/-- TT_COMPOSE_SEND. -/
def execTtComposeSend (r : Req) (s : State) : Host.Outcome State Fault Refusal := .next (serve ttComposeSendCmd r s)

/-- TT_COUNTERS_READ (0x4020): one engine, or the sum of all as number 16. -/
def ttCountersReadCmd : Cmd := readCmd 0x4020 onEngine 0 fun s r =>
  if ti r < 16 then s.cblock 0x4020 (tw r) (ti r) 0 21
  else s.block 0x4020 (tw r) 16 0 ((List.range 21).map fun i => ((List.range 16).map fun e => s.cnt 0x4020 e i).sum % 2 ^ 64)

/-- TT_COUNTERS_READ. -/
def execTtCountersRead (r : Req) (s : State) : Host.Outcome State Fault Refusal := .next (serve ttCountersReadCmd r s)

/-- TT_COUNTERS_CLEAR (0x4021). -/
def ttCountersClearCmd : Cmd := clearCmd 0x4021 onEngine 0 (fun _ r => [tw r]) fun s r =>
  if ti r < 16 then s.clearCnt 0x4020 (ti r) else eachN s (List.range 17) fun s e => s.clearCnt 0x4020 e

/-- TT_COUNTERS_CLEAR. -/
def execTtCountersClear (r : Req) (s : State) : Host.Outcome State Fault Refusal := .next (serve ttCountersClearCmd r s)

end Sys2Proof.Machine
end

