-- ==== Sys2Proof/Machine/Integrity.lean ====
section
/-! DEFINITION. Integrity: thresholds, latches, the fault-record ring, error injection, and the events of the fault
collector's window, the junction sensors, the rails and the keeper's parity (R513 to R519, R641 to R647, R661, R685). -/

namespace Sys2Proof.Machine

/-! ### Voltage targets (R537, R541) -/

/-- Nominal VDD_CORE of an operating point, mV. -/
def pointNominal (pt : Nat) : Int := match pt with | 1 => 750 | 2 => 650 | _ => 550

/-- Per-die trim of a point's target, mV, in the bounds of R537. -/
def fuseTrim (pt : Nat) : Int := max (if pt = 3 then 0 else -30) (min 30 (Config.vTrim pt))

/-- The VOUT_COMMAND word of a target in mV under an exponent of VOUT_MODE bits [4:0], rounded up (R537, R541). -/
def voutWord (mode : Nat) (mv : Int) : Nat :=
  let e := signed 5 (mode % 32)
  let v := mv.toNat
  if e < 0 then (v * 2 ^ e.natAbs + 999) / 1000 else (v + 1000 * 2 ^ e.toNat - 1) / (1000 * 2 ^ e.toNat)

/-- Voltage of a VOUT_COMMAND word, in 2⁻¹⁶ V. -/
def voutUnits (mode w : Nat) : Nat :=
  let e := signed 5 (mode % 32)
  if e < 0 then w * 2 ^ (16 - e.natAbs) else w * 2 ^ (16 + e.toNat)

/-- Target voltage of an operating point, in 2⁻¹⁶ V. -/
def pointTarget (s : State) (pt : Nat) : Nat :=
  voutUnits s.clk.voutMode (voutWord s.clk.voutMode (pointNominal pt + fuseTrim pt))

/-! ### Rails and sensors -/

/-- Operating range of a rail at the balls, mV, and 80 % of its nominal value; rail 0 has its own rule (R641). -/
def railRange (rail : Nat) : Nat × Nat × Nat :=
  match rail with
  | 1 => (713, 787, 600) | 2 => (855, 945, 720) | 3 => (1140, 1260, 960) | 4 => (855, 945, 720)
  | 5 => (1140, 1260, 960) | 6 => (1710, 1890, 1440) | 7 => (1710, 1890, 1440) | _ => (550, 800, 0)

/-- VDD_CORE lies within its range (R642). -/
def coreInRange (s : State) (mv : Nat) : Bool :=
  if !s.clk.settledOnce then within mv 550 800
  else
    let (a, b) := match s.clk.trans with
      | some t => (min (pointTarget s t.fromPt) (pointTarget s t.toPt), max (pointTarget s t.fromPt) (pointTarget s t.toPt))
      | none => (s.clk.vTarget, s.clk.vTarget)
    97 * a * 1000 ≤ mv * 65536 * 100 && mv * 65536 * 100 ≤ 103 * b * 1000

/-- A rail's reading lies within its operating range. -/
def railInRange (s : State) (rail mv : Nat) : Bool :=
  if rail = 0 then coreInRange s mv else within mv (railRange rail).1 (railRange rail).2.1

/-- Take a monitor's reading of a rail. -/
def setRail (s : State) (rail mv : Nat) : State := { s with elec := { s.elec with rails := s.elec.rails.set 0 rail mv } }

/-- A rail reads outside its operating range for 100 µs, or within it again (R642, R647). -/
def execRailLimit (rail : Fin 8) (mv : Nat) (s : State) : Host.Outcome State Fault Refusal :=
  .next (
    let s1 := setRail s rail mv
    let out := !railInRange s rail mv
    let mask := if out then setBit s.elec.outMask rail else clrBit s.elec.outMask rail
    let s2 := setPresent { s1 with elec := { s1.elec with outMask := mask } } 10 (mask != 0)
    if out ∧ !s.elec.outMask.testBit rail ∧ s.rst.pgood then safetyFault s2 10 0 (be 1 rail ++ be 2 (sat 16 mv)) else s2)

/-- A rail falls below 80 % of nominal, or is above it again: the line drivers or host transmitters that it serves are
disconnected (R647). -/
def execRailUndervoltage (rail : Fin 8) (mv : Nat) (s : State) : Host.Outcome State Fault Refusal :=
  .next (
    let s1 := setRail s rail mv
    let below := mv < (railRange rail).2.2
    { s1 with elec := { s1.elec with
      underMask := if below then setBit s.elec.underMask rail else clrBit s.elec.underMask rail } })

/-- A junction sensor reads, in 0.25 °C; above 125 °C it latches 0x090A, and nothing else reacts (R661). -/
def execThermalLimit (sensor : Fin 30) (reading : Int) (s : State) : Host.Outcome State Fault Refusal :=
  .next (
    let was : Bool := 500 < s.calib.sensors.get 0 sensor
    let s1 := { s with calib := { s.calib with sensors := s.calib.sensors.set 0 sensor reading } }
    let s2 := setPresent s1 9 (s1.calib.sensors.any fun e => 500 < e.2)
    if 500 < reading ∧ !was then safetyFault s2 9 0 (be 1 sensor ++ be 1 (sat 8 (reading / 4).toNat)) else s2)

/-- A parity error in keeper island state (R503, R514). -/
def execKeeperParity (word : BitVec 32) (s : State) : Host.Outcome State Fault Refusal :=
  .next (safetyFault s 11 0 (be 4 word.toNat))

/-! ### The fault collector's window and the ring -/

/-- A 1-second window ends: counts restart, and a committed change of thresholds applies (R514, R517). -/
def execIntegrityWindowEnd (s : State) : Host.Outcome State Fault Refusal :=
  .next { s with integ := { s.integ with
    window := [], made := 0
    thr := [s.cfg.dev.thrBuffer, s.cfg.dev.thrStream, s.cfg.dev.thrSignal, s.cfg.dev.thrMeta, s.cfg.dev.thrCarry] } }

/-- Copy one entry of the keeper record to the ring (R516). -/
def ringCopy (s : State) (e : FaultEntry) : State :=
  let s1 := s.regionWrite 8 (s.nvm.ringNext % 2048 * 32) e.bytes
  { s1 with
    nvm := { s1.nvm with ringNext := s1.nvm.ringNext + 1 }
    integ := { s1.integ with record := s1.integ.record.map fun x => if x.seq = e.seq then { x with copied := true } else x
                             copiedSeq := max s1.integ.copiedSeq e.seq } }

/-- Entries not yet copied, oldest first. -/
def uncopied (s : State) : List FaultEntry := (s.integ.record.filter fun e => !e.copied).reverse

/-- Copy every entry that is left (R359). -/
def ringFlush (s : State) : State := (uncopied s).foldl ringCopy s

/-- The oldest entry not yet copied is copied, or its copy fails and is retried; nothing is written after Off has
completed (R359, R516). -/
def execFaultRecordCopy (ok : Bool) (s : State) : Host.Outcome State Fault Refusal :=
  .next (match uncopied s with
    | [] => s
    | e :: _ => if s.nvm.off then s else if ok then ringCopy s e else s.bump 0x0905 0 7)

/-! ### Opcodes -/

/-- INTEGRITY_CONFIG (0x0901): its thresholds apply from the next window (R517). -/
def integrityConfigCmd : Cmd := confCmd 0x0901 onDevice 8
  (fun _ r => firstFail [inv (rz r 5 3), inv ((List.range 5).all fun i => p8 r i ≠ 0)])
  fun s r => updDev s fun d => { d with thrBuffer := p8 r 0, thrStream := p8 r 1, thrSignal := p8 r 2, thrMeta := p8 r 3,
                                        thrCarry := p8 r 4 }

/-- INTEGRITY_CONFIG. -/
def execIntegrityConfig (r : Req) (s : State) : Host.Outcome State Fault Refusal := .next (serve integrityConfigCmd r s)

/-- INTEGRITY_STATUS result, 16 bytes. -/
def integrityStatusData (s : State) (_ : Req) : List Byte :=
  be 2 s.integ.latches ++ be 2 (conditions s) ++ be 1 (b2n (faultN s) + 2 * b2n s.integ.startAssert) ++ zeros 3 ++
    be 4 s.integ.faultSeq ++ be 4 s.integ.copiedSeq

/-- INTEGRITY_STATUS (0x0902). -/
def integrityStatusCmd : Cmd := readCmd 0x0902 onDevice 0 integrityStatusData

/-- INTEGRITY_STATUS. -/
def execIntegrityStatus (r : Req) (s : State) : Host.Outcome State Fault Refusal := .next (serve integrityStatusCmd r s)

/-- Clear the latches of a mask whose conditions are absent (R515). -/
def clearLatches (s : State) (mask : Nat) : State :=
  { s with integ := { s.integ with
    latches := maskOf ((maskList 16 s.integ.latches).filter fun k => !mask.testBit k || (conditions s).testBit k) } }

/-- INTEGRITY_FAULT_CLEAR (0x0903). -/
def integrityFaultClearCmd : Cmd where
  op := 0x0903
  target := onDevice
  len := len 4
  check := fun _ r => firstFail [inv (rz r 2 2), inv (p16 r 0 < 4096)]
  run := fun s r => (clearLatches s (p16 r 0), some (.ok, be 2 (clearLatches s (p16 r 0)).integ.latches ++ zeros 2))

/-- INTEGRITY_FAULT_CLEAR. -/
def execIntegrityFaultClear (r : Req) (s : State) : Host.Outcome State Fault Refusal :=
  .next (serve integrityFaultClearCmd r s)

/-- Ring entry number `k`, 0 the newest. -/
def ringEntry (s : State) (k : Nat) : List Byte := s.regionRead 8 ((s.nvm.ringNext - 1 - k) % 2048 * 32) 32

/-- FAULT_LOG_READ (0x0904): the entries that the ring holds in the range (R516, R518). -/
def faultLogReadCmd : Cmd where
  op := 0x0904
  target := onDevice
  len := len 4
  check := fun _ r => firstFail [rng (p16 r 0 ≤ 2047), rng (p16 r 2 ≤ 32), rng (p16 r 2 == 0 || p16 r 0 + p16 r 2 ≤ 2048)]
  run := readOk fun s r =>
    ((((List.range (min s.nvm.ringNext 2048)).drop (p16 r 0)).take (p16 r 2)).map (ringEntry s)).flatten

/-- FAULT_LOG_READ. -/
def execFaultLogRead (r : Req) (s : State) : Host.Outcome State Fault Refusal := .next (serve faultLogReadCmd r s)

/-- INTEGRITY_COUNTERS_READ (0x0905). -/
def integrityCountersReadCmd : Cmd := readCmd 0x0905 onDevice 0 fun s _ => s.cblock 0x0905 0 0 0 8

/-- INTEGRITY_COUNTERS_READ. -/
def execIntegrityCountersRead (r : Req) (s : State) : Host.Outcome State Fault Refusal :=
  .next (serve integrityCountersReadCmd r s)

/-- INTEGRITY_COUNTERS_CLEAR (0x0906). -/
def integrityCountersClearCmd : Cmd := clearCmd 0x0906 onDevice 0 (fun _ _ => [0]) fun s _ => s.clearCnt 0x0905 0

/-- INTEGRITY_COUNTERS_CLEAR. -/
def execIntegrityCountersClear (r : Req) (s : State) : Host.Outcome State Fault Refusal :=
  .next (serve integrityCountersClearCmd r s)

/-- The instances that an injection point reaches (R685). -/
def injectReach (s : State) (point t : Nat) : Bool :=
  let slice := onSlice s t || onFabric s t
  match point with
  | 1 => onPort s t || slice
  | 2 => slice
  | 3 => slice
  | 4 => onPort s t || slice
  | 5 => onPort s t
  | 6 => slice
  | 7 => slice
  | _ => onEngine s t

/-- FAULT_INJECT (0x0907): over SPI only. -/
def faultInjectCmd : Cmd where
  op := 0x0907
  spiOnly := true
  target := onDevice
  len := len 8
  check := fun s r => firstFail [inv (rz r 2 2), inv (within (p8 r 0) 1 9), inv (injectReach s (p8 r 0) (p32 r 4)),
    rng (p8 r 1 ≤ 16)]
  run := doOk fun s r =>
    if p8 r 1 = 0 then s
    else { s with integ := { s.integ with
      inject := s.integ.inject ++ [{ point := p8 r 0, target := p32 r 4, count := p8 r 1 }] } }

/-- FAULT_INJECT. -/
def execFaultInject (r : Req) (s : State) : Host.Outcome State Fault Refusal := .next (serve faultInjectCmd r s)

end Sys2Proof.Machine
end

