-- ==== Sys2Proof/Machine/Resets.lean ====
section
/-! DEFINITION. Resets of reach 3 and 4: sources and episodes, drains, what an assertion does to the blocks it covers,
releases, and the overrides and domain reset of Breakwater (R24 to R29, R75 to R79, R533, R548 to R556, R574, R579). -/

namespace Sys2Proof.Machine

/-! ### Covered and reached blocks (R550, R555, crossings X1 to X7) -/

/-- Blocks that a reset of a target covers. -/
def coverT (t : Nat) : List Nat :=
  let n := tgtNum t
  match tgtDom t with
  | 2 => t :: (portsOf t).map portT
  | 3 => (List.range 4).map (fun i => coveT (n * 4 + i)) ++ (portsOf t).map portT
  | 6 => t :: (List.range 8).map fun j => laneT (n * 8 + j)
  | 7 => if n < 4 then [t] else fabricT :: (List.range 4).map sliceT
  | 8 => if n < 16 then [t] else tideT :: (List.range 16).map engineT
  | _ => [t]

/-- The ports of a shoal and the lanes of its two quays. -/
def sliceSources (i : Nat) : List Nat :=
  (List.range 32).map (fun j => portT (i * 32 + j)) ++ (List.range 8).map (fun j => laneT (i * 8 + j)) ++
    (List.range 8).map fun j => laneT (i * 8 + 32 + j)

/-- Slices that hold cells bound for link `k` (crossing X1). -/
def boundSlices (s : State) (k : Nat) : List Nat :=
  (List.range 4).filter fun i => (List.range 8).any fun t => s.occ (qn (128 + k) t) i != 0

/-- Blocks that a reset of a target reaches through its crossings: X1 for lanes and quays, X3 and X4 for the fabric, X6 for the
Tide Table, X7 for ports; the cancellers that a cove's ports feed lie in the cove itself. -/
def reachedT (s : State) (t : Nat) : List Nat :=
  let n := tgtNum t
  match tgtDom t with
  | 1 => ((List.range 8).map (n / 8 * 8 + ·)).filterMap fun v =>
      if v ≠ n ∧ (s.port v).dsp.group.testBit (n % 8) then some (portT v) else none
  | 3 => [sliceT n]
  | 4 => sliceT (n / 8 % 4) :: (((s.linkOf n).map (boundSlices s)).getD []).map sliceT
  | 6 => sliceT (n % 4) :: ((List.range 8).flatMap fun j => boundSlices s (8 * n + j)).map sliceT
  | 7 => if n < 4 then sliceSources n else (List.range 4).flatMap sliceSources
  | 8 => if n = 16 then (List.range 4).map sliceT else []
  | _ => []

/-- Two targets belong to one episode when they are asserted together: they share a block, covered or reached. -/
def meets (s : State) (a b : Nat) : Bool :=
  (coverT a ++ reachedT s a).any (coverT b ++ reachedT s b).contains

/-- Targets of the jobs that `p` selects in the episode of the targets so far, one step further. -/
def growEpisode (s : State) (p : ResetJob → Bool) (ts : List Nat) : List Nat :=
  ts ++ ((s.rst.jobs.filter fun j => p j && !ts.contains j.target && ts.any (meets s j.target)).map (·.target))

/-- Targets of the jobs that `p` selects in one episode with `t` (R27, R550). -/
def episodeOf (s : State) (p : ResetJob → Bool) (t : Nat) : List Nat :=
  (List.range s.rst.jobs.length).foldl (fun ts _ => growEpisode s p ts) [t]

/-- The job of a target. -/
def resetJob (s : State) (t : Nat) : Option ResetJob := s.rst.jobs.find? (·.target == t)

/-- Change the jobs that a test selects. -/
def updJobs (s : State) (p : ResetJob → Bool) (f : ResetJob → ResetJob) : State :=
  { s with rst := { s.rst with jobs := s.rst.jobs.map fun j => if p j then f j else j } }

/-! ### What an assertion does -/

/-- A frame number leaves a queue through a slice reset (R437). -/
def dropReset (s : State) (q i : Nat) : State := (unqueue s q i).bump 0x3011 q 8

/-- The frames that slice `i` stores and the queues that it holds are discarded (R438). -/
def sliceDiscard (s : State) (i : Nat) : State :=
  let s1 := s.fabric.frames.foldl (fun s e => match e.2 with
    | some f => if f.slice = i then f.holders.foldl (fun s h => dropReset s h.1 e.1) s else s
    | none => s) s
  eachN s1 ((List.range 192).filter fun e => posSlice e == i) fun s e =>
    eachN s (List.range 8) fun s t => (s.queue (qn e t)).foldl (fun s f => dropReset s (qn e t) f) s

/-- Dynamic stream state of slice `i`: recovery instances of the slice and gate positions of its egresses start anew; sequence
generators keep their next number (R555, log entry 27). -/
def streamSlice (s : State) (i : Nat) : State :=
  updStrm s fun x => { x with
    recs := x.recs.filter fun e => (s.cfg.streams.recs.get none e.1).map (·.slice) != some i
    gcl := x.gcl.map fun e => if posSlice e.1 = i then (e.1, { e.2 with cur := 0, curAt := s.now, hold := false }) else e }

/-- Dynamic stream state of the whole fabric: meter buckets and stream gates too. -/
def streamFabric (s : State) : State :=
  updStrm (eachN s (List.range 4) streamSlice) fun x => { x with
    meters := s.cfg.streams.meters.foldl (fun t e => match e.2 with
      | some m => t.set {} e.1 { c := m.cbs * tokenUnit, e := m.ebs * tokenUnit, at_ := s.now }
      | none => t) []
    gates := x.gates.map fun e => (e.1, e.2.map fun g => { g with cur := 0 })
    blocked := [] }

/-- Reset of a slice as a block (R416, R438, R423 test 1). -/
def sliceReset (s : State) (i : Nat) : State :=
  streamSlice (freshRows (sliceDiscard (markTest (s.updSlice i fun x => { x with stopped := true, inReset := true }) (sliceT i) 4) i) i) i

/-- Port `p` is held in reset, and its taps, windows and cancellers are cleared (R101, R102, R197). -/
def portReset (s : State) (p : Nat) : State :=
  (quietPort (s.updPort p fun x => { x with resetHold := true }) p 6).updPort p fun x => { x with
    dsp := { x.dsp with taps := {}, scout := [], anchor := none } }

/-- Lane `m` is held in reset; a result of an eye scan is discarded (R379, R392). -/
def laneReset (s : State) (m : Nat) : State :=
  (quietLane (s.updLane m fun x => { x with resetHold := true }) m 6).updLane m fun x => { x with scan := none }

/-- What the assertion of a target does to its blocks (R26, R102, R438, R555). -/
def assertBlocks (s : State) (t : Nat) : State :=
  let n := tgtNum t
  match tgtDom t with
  | 1 => portReset s n
  | 2 => eachN (markTest s t 4) (portsOf t) portReset
  | 3 => eachN (eachN s (List.range 4) fun s i => markTest s (coveT (n * 4 + i)) 4) (portsOf t) portReset
  | 4 =>
    let s1 := laneReset s n
    match s.linkOf n with
    | some k => flushEgress s1 (128 + k) (countDown · (128 + k))
    | none => s1
  | 6 =>
    let s1 := eachN (markTest s t 4) ((List.range 8).map (n * 8 + ·)) laneReset
    eachN s1 ((List.range 8).map (128 + n * 8 + ·)) fun s e => flushEgress s e (countDown · e)
  | 7 => if n < 4 then sliceReset s n else streamFabric (eachN s (List.range 4) sliceReset)
  | 8 => if n < 16 then engineReset (markTest s t 4) n
    else tideReset (eachN s (List.range 16) fun s e => markTest s (engineT e) 4)
  | _ => s

/-- The hold of a target on its blocks ends: sources are restored, ports and lanes go to state 1 (R24 step 4, R555). -/
def releaseBlocks (s : State) (t : Nat) : State :=
  let freePort := fun (s : State) p => leaveQuiet (s.updPort p fun x => { x with resetHold := false }) p
  let freeLane := fun (s : State) m => leaveQuietLane (s.updLane m fun x => { x with resetHold := false }) m
  let n := tgtNum t
  match tgtDom t with
  | 1 => freePort s n
  | 2 => eachN s (portsOf t) freePort
  | 3 => eachN s (portsOf t) freePort
  | 4 => freeLane s n
  | 6 => eachN s ((List.range 8).map (n * 8 + ·)) freeLane
  | 7 => eachN s (if n < 4 then [n] else List.range 4) fun s i =>
      s.updSlice i fun x => { x with stopped := false, inReset := false }
  | _ => s

/-- Frames in the buffer and in the egress MACs, for the count of frames that an episode discards. -/
def frameCount (s : State) : Nat :=
  (s.fabric.frames.filter (·.2.isSome)).length +
    (s.fabric.egress.map fun e => (if e.2.mac.isSome then 1 else 0) + if e.2.held.isSome then 1 else 0).sum

/-! ### Sources (R548 to R553) -/

/-- A Breakwater source's command has completed with its reply (R72, R79). -/
def bwDone (s : State) (r : Req) (st : Status) : State :=
  reply { s with ctl := { s.ctl with bwBusy := s.ctl.bwBusy.erase (sn r) } } 0xF003 r st []

/-- Status of a drain: OK, or QUIESCE_TIMEOUT when it was forced. -/
def drainStatus (forced : Bool) : Status := if forced then .quiesceTimeout else .ok

/-- A source is recorded during a start-up at least as strong: its reply is sent now (R552). -/
def recordSource (s : State) (t reach : Nat) (hold : Bool) (w : Option (Waiter × Nat)) : State :=
  { s with rst := { s.rst with recorded := s.rst.recorded ++ [{ target := t, reach, hold, waiter := w }] } }

/-- A start-up at least as strong as `reach` runs over a block that `t` shares, or the device starts up and has not come to
rest in Headland state 3 or 4 (R552, R567, R573). -/
def recordedDuring (s : State) (t reach : Nat) : Bool :=
  (s.rst.starting && s.rst.headland < 3) || s.rst.jobs.any fun j => j.phase == 2 && j.strongest ≤ reach && meets s t j.target

/-- The episode of `t` releases when none of its sources drains or is held any longer (R27, R551): its blocks start up from the
strongest reach asserted. The reset of Headland releases in a row of its own (R572). -/
def tryRelease (s : State) (t : Nat) : State :=
  let ep := episodeOf s (·.phase ≤ 1) t
  let js := s.rst.jobs.filter fun j => j.phase ≤ 1 && ep.contains j.target
  if t = 1 ∨ js.isEmpty ∨ js.any (fun j => j.hold || j.phase == 0) then s
  else
    let top := (js.map fun j => min j.strongest j.reach).foldl min 4
    updJobs s (fun j => j.phase == 1 && ep.contains j.target) fun j => { j with phase := 2, strongest := top }

/-- Close the waiters of one kind of a job. -/
def closeKind (s : State) (ws : List (Waiter × Nat)) (t kind : Nat) (st : Status) : State :=
  (ws.filter fun w => w.2 == kind).foldl (fun s w => closeWaiter s w.1 t st) s

/-- A job's drain has ended: the reset is asserted (R24 step 3, R79, R553, R574). -/
def assertJob (s : State) (t : Nat) (forced : Bool) : State :=
  match resetJob s t with
  | none => s
  | some j =>
    let st := drainStatus forced
    let s1 := if forced then
        let s0 := s.bump 0x6010 0 5
        { s0 with rst := { s0.rst with lastForced := t } }
      else s
    -- R553: weaker start-ups over its blocks are abandoned and join the episode
    let s2 := updJobs s1 (fun k => k.phase == 2 && j.reach < k.strongest && meets s t k.target) fun k => { k with phase := 1 }
    let s3 := s2.bump 0x6010 0 (if j.reach = 3 then 3 else 4)
    let before := frameCount s3
    let s4 := updJobs (assertBlocks s3 t) (fun k => k.target == t) fun k => { k with
      phase := 1, forced := k.forced || forced, waiters := k.waiters.filter fun w => w.2 != 1, bwReply := [] }
    let s5 := updJobs s4 (fun k => k.target == t) fun k => { k with discarded := k.discarded + (before - frameCount s4) }
    let s6 := j.bwReply.foldl (fun s r => bwDone s r st) (closeKind s5 j.waiters t 1 st)
    tryRelease s6 t

/-- Packets in Headland's command queue at its reset are answered with BUSY (R571). -/
def flushCommands (s : State) : State :=
  s.ctl.cmdQueue.foldl (fun s q => frontBusy s q.op q.req) { s with ctl := { s.ctl with cmdQueue := [] } }

/-- Headland's reset is asserted without a drain: what is still inside Headland is given up, and its commands are closed with
BUSY after READY (R66, R315, R474, R571, R601). -/
def headlandReset (s : State) : State :=
  let s0 := flushCommands s
  let s1 := setPresent (setPresent { s0 with rst := { s0.rst with headland := 0, fwChecked := false } } 7 false) 8 false
  let s2 := match s1.nvm.session with
    | some x => match x.closing with
      | some (tag, _) => complete (abandonSession s1 2) 0x7014 tag (tgt 10 x.region) .busy
      | none => abandonSession s1 2
    | none => s1
  let s3 := updStrm (eachN s2 (List.range 128) fun s p => endSound s p 3) fun x => { x with
    gptp := x.gptp.map fun e => (e.1, { e.2 with state := if e.2.state = 1 then 0 else e.2.state }) }
  if s3.epoch.state = 1 then
    match s3.epoch.profile with
    | some (_, _, tag) => complete (endEpoch s3 0 0 0xFFFFFFFF .epochRolledBack) 0x6007 tag 0 .busy
    | none => endEpoch s3 0 0 0xFFFFFFFF .epochRolledBack
  else s3

/-- A pulse or a hold is asked of a target (R552, R556). -/
def askReset (s : State) (t reach : Nat) (hold : Bool) (w : Option (Waiter × Nat)) (bw : Option Req) : State :=
  let owe := fun (s : State) => match bw with
    | some r => { s with ctl := { s.ctl with bwBusy := sn r :: s.ctl.bwBusy } }
    | none => s
  let answer := fun (s : State) => match bw with
    | some r => reply s 0xF003 r .ok []
    | none => s
  match resetJob s t with
  | some j =>
    if j.phase = 0 then
      owe (updJobs s (fun k => k.target == t) fun k => { k with
        hold := k.hold || hold, waiters := k.waiters ++ w.toList, bwReply := k.bwReply ++ bw.toList })
    else if j.phase = 1 then
      let s1 := answer (updJobs s (fun k => k.target == t) fun k => { k with
        hold := k.hold || hold, waiters := k.waiters ++ (w.toList.filter fun x => x.2 != 1) })
      closeKind s1 w.toList t 1 .ok
    else answer (recordSource s t reach hold w)
  | none =>
    if recordedDuring s t reach then answer (recordSource s t reach hold w)
    else
      let s1 := { s with rst := { s.rst with jobs := s.rst.jobs ++
        [{ target := t, reach, hold, strongest := reach, waiters := w.toList, bwReply := bw.toList }] } }
      if t = 1 then
        updJobs (headlandReset (answer s1)) (fun k => k.target == 1) fun k => { k with phase := 1, bwReply := [] }
      else
        owe (if tgtDom t = 7 then eachN s1 (if tgtNum t < 4 then [tgtNum t] else List.range 4) fun s i =>
          s.updSlice i fun x => { x with stopped := true } else s1)

/-- The drain of one reset has ended, in time or forced: it meets a start-up at least as strong that began meanwhile (R552), or it
is asserted. -/
def drainDone (s : State) (j : ResetJob) (forced : Bool) : State :=
  let t := j.target
  if recordedDuring s t j.reach then
    let s1 := { s with rst := { s.rst with jobs := s.rst.jobs.filter fun k => k.target != t } }
    let s2 := j.bwReply.foldl (fun s r => bwDone s r (drainStatus forced)) s1
    let s3 := releaseBlocks (if j.waiters.isEmpty then recordSource s2 t j.reach j.hold none
      else j.waiters.foldl (fun s w => recordSource s t j.reach j.hold (some w)) s2) t
    ((s3.rst.jobs.filter (·.phase == 1)).map (·.target)).foldl tryRelease s3
  else assertJob s t forced

/-- The resets of an episode that drain, with `t` among them. -/
def draining (s : State) (t : Nat) : List ResetJob :=
  let ep := episodeOf s (·.phase == 0) t
  s.rst.jobs.filter fun j => j.phase == 0 && ep.contains j.target

/-- An episode drains once, over the union of its branches: its resets are asserted when the last of their drains has completed
(R27). -/
def drainUnion (s : State) (t : Nat) : State :=
  if (draining s t).all (·.drained) then (draining s t).foldl (fun s j => drainDone s j false) s else s

/-- The drain of a reset completes, or its own timeout expires: then it is asserted at once, forced when it has not completed
(R25). -/
def resetDrained (s : State) (t : Nat) (forced : Bool) : State :=
  match resetJob s t with
  | some j =>
    if j.phase ≠ 0 then s
    else if forced then
      let others := ((draining s t).filter fun k => k.target != t).map (·.target)
      others.foldl drainUnion (drainDone s j (!j.drained))
    else drainUnion (updJobs s (fun k => k.target == t) fun k => { k with drained := true }) t
  | none => s

/-- A hold that is recorded for later is withdrawn (R552). -/
def unrecordHold (s : State) (t : Nat) : State :=
  let recorded := s.rst.recorded.map fun x => if x.target = t then { x with hold := false } else x
  { s with rst := { s.rst with recorded } }

/-- The hold of a target is released; the command, if any, closes with the start-up that follows (R574). -/
def askRelease (s : State) (t : Nat) (w : Option (Waiter × Nat)) : State :=
  tryRelease (updJobs (unrecordHold s t) (fun k => k.target == t) fun k => { k with hold := false, waiters := k.waiters ++ w.toList }) t

/-- The sources recorded for an ended start-up apply (R552). -/
def applyRecorded (s : State) (p : Recorded → Bool) : State :=
  let mine := s.rst.recorded.filter p
  let s1 := { s with rst := { s.rst with recorded := s.rst.recorded.filter fun x => !p x } }
  mine.foldl (fun s x => askReset s x.target x.reach x.hold x.waiter none) s1

/-- An episode's start-up has ended: its blocks are free, its commands close, and `RESET_EPISODE` is raised. -/
def endEpisode (s : State) (t : Nat) : State :=
  let ep := episodeOf s (·.phase == 2) t
  let js := s.rst.jobs.filter fun j => j.phase == 2 && ep.contains j.target
  let s1 := { s with rst := { s.rst with
    jobs := s.rst.jobs.filter fun j => !(j.phase == 2 && ep.contains j.target)
    episodes := (s.rst.episodes + 1) % 2 ^ 32
    lastReach := (js.map (·.strongest)).foldl min 4
    lastEnd := s.keeper } }
  let s2 := js.foldl (fun s j => releaseBlocks s j.target) s1
  let domains := maskOf ((js.filter fun j => j.reach == 3).map fun j => domainBit j.target)
  let s3 := raiseReady s2 0x6002 0 ((js.head?.map (·.target)).getD t) 0 0 (be 1 s2.rst.lastReach ++ be 2 domains ++
    be 1 (b2n (js.any (·.forced))) ++ be 4 (sat 32 (js.map (·.discarded)).sum))
  let s4 := js.foldl (fun s j => closeKind (closeKind s j.waiters j.target 0 (drainStatus j.forced)) j.waiters j.target 2 .ok) s3
  applyRecorded s4 fun x => ep.any (meets s x.target)

/-- A domain's or block's start-up ends (R551, R555); Headland's ends with READY. -/
def execResetStartupDone (t : BitVec 32) (s : State) : Host.Outcome State Fault Refusal :=
  .next (match resetJob s t.toNat with
    | some j => if j.phase = 2 ∧ t ≠ 1 then endEpisode s t.toNat else s
    | none => s)

/-! ### Agent resets of R533 -/

/-- An island that runs from the keeper clock is held in block reset, without a drain. -/
def keeperHold (s : State) (t : Nat) : State :=
  match resetJob s t with
  | some j =>
    if j.phase = 0 then assertJob (updJobs s (fun k => k.target == t) fun k => { k with hold := true }) t false
    else updJobs s (fun k => k.target == t) fun k => { k with hold := true, phase := 1 }
  | none =>
    assertJob { s with rst := { s.rst with jobs := s.rst.jobs ++ [{ target := t, reach := 4, hold := true }] } } t false

/-- The island is back on its PLL. -/
def keeperRelease (s : State) (t : Nat) : State :=
  match resetJob s t with
  | some _ => askRelease s t none
  | none => s

/-! ### Opcodes -/

/-- Checks of `RESET_BLOCK` and `RESET_DOMAIN`. -/
def resetCheck (_ : State) (r : Req) : Option Status :=
  firstFail [inv (rz r 2 2), inv (within (p8 r 0) 1 3), inv (p8 r 1 ≤ 1),
    inv (p8 r 1 == 1 || p32 r 4 ≠ 0), rng (p8 r 1 == 1 || p32 r 4 ≤ 10000), (!(tw r == 1 && p8 r 0 != 1), .notPermitted)]

/-- A block of the target is under test. -/
def resetTest (s : State) (r : Req) (_ : Nat) : Option (Status × List Byte) :=
  if (coverT (tw r)).any (underTest s) then some (.busySelftest, be 4 (Config.testRemaining s.freeCtr).toNat) else none

/-- Effect and answer of `RESET_BLOCK` and `RESET_DOMAIN`: a release of what is not held is OK at once (R574). -/
def resetRun (op reach : Nat) (s : State) (r : Req) : State × Option (Status × List Byte) :=
  let w := waiterOf op r
  let held := s.rst.jobs.any fun j => j.target == tw r && j.hold
  if p8 r 0 = 3 then
    if held then (askRelease s (tw r) (some (w, 2)), some (.accepted, []))
    else (unrecordHold s (tw r), some (.ok, []))
  else (askReset s (tw r) reach (p8 r 0 == 2) (some (w, if p8 r 0 = 2 then 1 else 0)) none, some (.accepted, []))

/-- RESET_BLOCK (0x6001). -/
def resetBlockCmd : Cmd where
  op := 0x6001
  target := onBlock
  len := len 8
  check := resetCheck
  writes := true
  gate := false
  take := resetTest
  run := resetRun 0x6001 4

/-- RESET_BLOCK. -/
def execResetBlock (r : Req) (s : State) : Host.Outcome State Fault Refusal := .next (serve resetBlockCmd r s)

/-- RESET_DOMAIN (0x6002). -/
def resetDomainCmd : Cmd where
  op := 0x6002
  target := onDomain
  len := len 8
  check := resetCheck
  writes := true
  gate := false
  names := fun _ r => coverT (tw r)
  take := resetTest
  run := resetRun 0x6002 3

/-- RESET_DOMAIN. -/
def execResetDomain (r : Req) (s : State) : Host.Outcome State Fault Refusal := .next (serve resetDomainCmd r s)

/-- RESET_STATUS result, 32 bytes. -/
def resetStatusData (s : State) (_ : Req) : List Byte :=
  be 4 (resetActivity s) ++ be 1 s.rst.startKind ++ be 1 s.rst.warmCause ++ be 2 (domainsInReset s) ++
    be 2 (s.rst.jobs.filter (·.hold)).length ++
    be 2 (s.rst.recorded.length + b2n (s.rst.starting && s.rst.warmDue != 0) + b2n s.rst.due.isSome) ++ be 1 s.rst.lastReach ++ zeros 3 ++
    be 4 s.rst.lastForced ++ be 4 s.rst.episodes ++ be 8 s.rst.lastEnd

/-- RESET_STATUS (0x6003). -/
def resetStatusCmd : Cmd := readCmd 0x6003 onDevice 0 resetStatusData

/-- RESET_STATUS. -/
def execResetStatus (r : Req) (s : State) : Host.Outcome State Fault Refusal := .next (serve resetStatusCmd r s)

/-- RESET_COUNTERS_READ (0x6010). -/
def resetCountersReadCmd : Cmd := readCmd 0x6010 onDevice 0 fun s _ => s.cblock 0x6010 0 0 0 9

/-- RESET_COUNTERS_READ. -/
def execResetCountersRead (r : Req) (s : State) : Host.Outcome State Fault Refusal := .next (serve resetCountersReadCmd r s)

/-- RESET_COUNTERS_CLEAR (0x6011). -/
def resetCountersClearCmd : Cmd := clearCmd 0x6011 onDevice 0 (fun _ _ => [0]) fun s _ => s.clearCnt 0x6010 0

/-- RESET_COUNTERS_CLEAR. -/
def execResetCountersClear (r : Req) (s : State) : Host.Outcome State Fault Refusal :=
  .next (serve resetCountersClearCmd r s)

/-! ### Breakwater's overrides and domain reset -/

/-- `OVERRIDE_CHANGED`. -/
def overrideChanged (s : State) (kind on : Nat) : State := raise s 0x0006 1 0 (be 1 kind ++ be 1 on)

/-- An enter from another source reached Breakwater in the present keeper cycle: a release of the same override gives way to it
(R77). The cycle is the ticker's, and one source's packets come one after the other (log entry 125). -/
def sameCycle (s : State) (r : Req) (at_ : Option (Nat × Nat)) : Bool :=
  (at_.map fun x => x.1 == s.keeper && x.2 != sn r).getD false

/-- SAFE_STATE (0xF000). -/
def safeStateCmd : Cmd where
  op := 0xF000
  bw := true
  target := onDevice
  len := len 4
  check := fun _ r => firstFail [inv (rz r 1 3), inv (within (p8 r 0) 1 2)]
  run := doOk fun s r =>
    if p8 r 0 = 1 then
      let s0 := { s with ctl := { s.ctl with safeAt := some (s.keeper, sn r) } }
      if s.ctl.safeState then s0
      else
        let s1 := { s0 with ctl := { s0.ctl with safeState := true } }
        overrideChanged (safeLanes (eachN s1 (List.range 128) fun s p => quietPort s p 5)) 0 1
    else if s.ctl.safeState && !sameCycle s r s.ctl.safeAt then
      let s1 := { s with ctl := { s.ctl with safeState := false } }
      overrideChanged (eachN s1 (List.range 128) leaveQuiet) 0 0
    else s

/-- PORT_QUIET (0xF001). -/
def portQuietCmd : Cmd where
  op := 0xF001
  bw := true
  target := onDevice
  len := len 20
  check := fun _ r => firstFail [inv (rz r 1 3), inv (within (p8 r 0) 1 2)]
  run := doOk fun s r =>
    let on := p8 r 0 == 1
    let ms := portMask r 4
    let ps := ms.filter fun p => (s.port p).quietHold != on && (on || !sameCycle s r (s.port p).quietAt)
    let noted := if on then eachN s ms fun s p => s.updPort p fun x => { x with quietAt := some (s.keeper, sn r) } else s
    let s1 := eachN noted ps fun s p =>
      let s0 := s.updPort p fun x => { x with quietHold := on }
      if on then quietPort s0 p 5 else leaveQuiet s0 p
    if ps.isEmpty then noted else overrideChanged s1 1 (b2n on)

/-- DOMAIN_RESET (0xF003): the reply marks the assertion, but for Headland it leaves first (R79, R574). -/
def domainResetCmd : Cmd where
  op := 0xF003
  bw := true
  target := onDomain
  len := len 4
  check := fun _ r => firstFail [inv (p8 r 0 ≤ 1), inv (rz r 1 1), inv (p8 r 0 == 1 || p16 r 2 ≠ 0),
    rng (p8 r 0 == 1 || p16 r 2 ≤ 40)]
  run := fun s r => (askReset s (tw r) 3 false (some (waiterOf 0xF003 r, 0)) (some r), none)

/-- DOMAIN_RESET. -/
def execDomainReset (r : Req) (s : State) : Host.Outcome State Fault Refusal := .next (serve domainResetCmd r s)

end Sys2Proof.Machine
end

