-- ==== Sys2Proof/Machine/Clocks.lean ====
section
/-! DEFINITION. Clocks and operating points: references, PLLs and their monitors, clock switching, island gating, the DVFS
sequencer and its PMBus, the completion of device mode changes that wait for it, and the commands 0x50xx and 0x3020
(R353 to R357, R435, R443, R520 to R547). -/

namespace Sys2Proof.Machine

/-! ### Clocks, islands and their codes (R38, R529) -/

/-- Write the clock state. -/
def updClk (s : State) (f : Clk → Clk) : State := { s with clk := f s.clk }

/-- Write the device power mode's state. -/
def updPower (s : State) (f : DevPower → DevPower) : State := { s with power := f s.power }

/-- Target word of island `i`. -/
def islandT (i : Nat) : Nat := tgt 9 i

/-- The PLL that feeds island `i`: coves and quays their own, 24 to 29 the core PLL, 30 the Tidemark PLL. -/
def pllOf (i : Nat) : Nat := if i < 24 then i else if i < 30 then 24 else 25

/-- Islands that a clock of the `failed` coding feeds: their CLK_FAIL bits (the effects of a clock failure). -/
def clockIslands (c : Nat) : List Nat :=
  if c < 24 then [c]
  else match c with
    | 24 => [24, 25, 26, 27, 28, 29]
    | 25 => [30]
    | 26 => []
    | 27 => List.range 16 ++ [24, 25, 26, 27, 28, 29, 30]
    | 28 => (List.range 8).map (16 + ·)
    | _ => [31]

/-- The clock code of R529. -/
def clockCode (c : Nat) : Nat :=
  if c < 24 then c
  else match c with
    | 24 => 0xFB
    | 25 => 30
    | 26 => 0xFE
    | 27 => 0xFD
    | 28 => 0xFC
    | _ => 31

/-- Islands whose clock is failing now. -/
def failingIslands (s : State) : Nat := maskOf ((maskList 30 s.clk.failed).flatMap clockIslands)

/-- PLLs that LREF feeds. -/
def lrefPlls : Nat := 2 ^ 16 - 1 + 2 ^ 24 + 2 ^ 25 + 2 ^ 26

/-- `m` without the bits of `x`. -/
def minusBits (m x : Nat) : Nat := m - (m &&& x)

/-- The core PLL is locked. -/
def coreLocked (s : State) : Bool := s.clk.locked.testBit 24

/-- A clock of fault 0x0907 is failing: LREF, the core PLL or the Tidemark PLL (R514). -/
def refLost (s : State) : Bool := s.clk.failed.testBit 24 || s.clk.failed.testBit 25 || s.clk.failed.testBit 27

/-! ### Operating points (R526, R537, R543, R544) -/

/-- The dividers go to an operating point: its time is counted, and the fit test starts again. -/
def setPoint (s : State) (n : Nat) : State :=
  { s with
    clk := { s.clk with point := n, timeAt := s.clk.timeAt.upd 0 s.clk.point (· + (s.now - s.clk.pointAt)), pointAt := s.now }
    fabric := { s.fabric with fitRun := 0 } }

/-- VDD_CORE target of the present point, mV rounded down: as written once a write has settled. -/
def targetMv (s : State) : Nat :=
  if s.clk.settledOnce then pointTarget s s.clk.point * 1000 / 65536
  else (pointNominal s.clk.point + fuseTrim s.clk.point).toNat

/-- The ceiling that holds now: that of the mode, of the mode a Parked exit goes to, or, at a fixed point, the one that a
request to Reduced asks for (R353, R354, R357). -/
def dvfsCeil (s : State) : Nat :=
  let p := s.power
  if p.transition = 3 then p.beforeCeil
  else if p.transition = 1 ∧ s.cfg.dev.dvfsMode = 2 then (p.job.map (·.ceiling)).getD p.ceiling
  else p.ceiling

/-- The point that the sequencer moves to (R543, R544). -/
def dvfsGoal (s : State) : Nat :=
  let p := s.power
  if (p.mode = 3 ∧ p.transition ≠ 3) ∨ (p.transition = 2 ∧ p.parkStage = 3) then 3
  else if s.cfg.dev.dvfsMode = 2 then max s.cfg.dev.dvfsPoint (dvfsCeil s)
  else if s.clk.stepUp then dvfsCeil s
  else max s.clk.point (dvfsCeil s)

/-- A transition to an adjacent point begins: a step down changes the dividers first (R538). -/
def beginTrans (s : State) (n : Nat) : State :=
  let t : Trans := { fromPt := s.clk.point, toPt := n, stage := if s.clk.pageDue then 2 else 0, attempts := 0, startedAt := s.now,
                     avs := (s.cfg.dev.avsAddr, s.cfg.dev.avsFlags, s.cfg.dev.avsPage) }
  updClk (if s.clk.point < n then setPoint s n else s) fun c => { c with trans := some t }

/-- The packet error code of PMBus bytes: CRC-8 with polynomial 0x07 (SMBus, log entry 145). -/
def pec (bs : List Byte) : Nat :=
  bs.foldl (fun c b => (List.range 8).foldl (fun c _ => (c * 2 % 256) ^^^ if c.testBit 7 then 7 else 0) (c ^^^ b.toNat)) 0

/-- The bytes of a PMBus write under address, flags and page: address byte, command, data, and with flags bit 0 the error code
(R540). -/
def pmbusWrite (avs : Nat × Nat × Nat) (cmd : Nat) (data : List Byte) : List Byte :=
  let b := be 1 (2 * avs.1) ++ be 1 cmd ++ data
  if avs.2.1.testBit 0 then b ++ be 1 (pec b) else b

/-- The transaction that the sequencer has on `AVS_SCL` and `AVS_SDA` now: PAGE, the read of VOUT_MODE, or a VOUT_COMMAND, its word
low byte first (R541). -/
def pmbusNow (s : State) : Option (List Byte) :=
  let c := s.clk
  let set := (s.cfg.dev.avsAddr, s.cfg.dev.avsFlags, s.cfg.dev.avsPage)
  let vout := fun (avs : Nat × Nat × Nat) pt => pmbusWrite avs 0x21 (le 2 (voutWord c.voutMode (pointNominal pt + fuseTrim pt)))
  if s.rst.asserted || !s.rst.fusesLoaded then none
  else match c.pmStage with
    | 0 => some (pmbusWrite set 0x00 (be 1 set.2.2))
    | 1 => some (be 1 (2 * set.1) ++ be 1 0x20 ++ be 1 (2 * set.1 + 1))
    | 2 => some (vout set 3)
    | 4 => match c.trans with
      | some t => if t.stage = 0 then some (vout t.avs t.toPt) else if t.stage = 2 then some (pmbusWrite t.avs 0x00 (be 1 t.avs.2.2))
        else none
      | none => none
    | _ => none

/-- What a host lane's pins present (R393, R557, R647): whether the transmitter is out of electrical idle, and whether the receiver
is terminated. -/
def hostPins (s : State) (m : Nat) : Bool × Bool :=
  let x := s.lane m
  let sends : Bool := match x.st with
    | .training | .up => true
    | .test => x.testAction != 0 && x.testAction != 8
    | _ => false
  (s.rst.powered && !s.rst.asserted && sends && !hostTxOff s, s.rst.powered)

/-- The sequencer may begin a transition. -/
def dvfsFree (s : State) : Bool :=
  s.clk.trans.isNone && !s.clk.halted && !s.clk.suspended && s.clk.pmStage == 4 && coreLocked s

/-- The sequencer goes on towards its goal, one transition after another (R538, R543). -/
def dvfsPump (s : State) : State :=
  if !dvfsFree s then s
  else if dvfsGoal s < s.clk.point then beginTrans s (s.clk.point - 1)
  else if s.clk.point < dvfsGoal s then beginTrans s (s.clk.point + 1)
  else updClk s fun c => { c with stepUp := false }

/-- The point is to be raised to the ceiling (R543). -/
def raisePoint (s : State) : State := dvfsPump (updClk s fun c => { c with stepUp := true })

/-- `DVFS_FAULT`: counted, and the sequencer is halted (R541, R542). -/
def dvfsFault (s : State) (cause pt : Nat) : State :=
  raise ((updClk s fun c => { c with halted := true, trans := none }).bump 0x5010 0 4) 0x5005 2 0
    (be 1 cause ++ be 1 pt ++ be 2 (s.elec.rails.get 0 0))

/-- The sequencer cannot raise the point any further: at its goal, halted, or suspended. -/
def raised (s : State) : Bool :=
  s.clk.trans.isNone && (s.clk.halted || s.clk.suspended || s.clk.pmStage != 4 || !coreLocked s || s.clk.point ≤ dvfsGoal s)

/-! ### Device mode changes (R353 to R359, R363) -/

/-- A device mode takes effect: `DEVICE_MODE_CHANGED` with its cause. -/
def setMode (s : State) (mode ceil cause port : Nat) : State :=
  let b := s.power.mode
  let s1 := updPower s fun p => { p with mode, ceiling := ceil, since := s.now, transition := 0, parkStage := 0 }
  raise { s1 with nvm := { s1.nvm with off := mode == 4 } } 0x1604 0 0 (be 1 b ++ be 1 mode ++ be 1 ceil ++ be 1 cause ++ be 1 port)

/-- The `DEVICE_POWER_SET` in progress ends with a status. -/
def powerJobEnd (s : State) (st : Status) : State :=
  match s.power.job with
  | some j => closeWaiter (updPower s fun p => { p with job := none, transition := if p.transition = 1 then 0 else p.transition })
      j.waiter 0 st
  | none => s

/-- A request to Reduced or Full has been met (R354): the point is at or below the new ceiling, or raised to it. -/
def powerDone (s : State) : State :=
  match s.power.job with
  | some j =>
    if s.power.transition = 1 then
      if s.clk.trans.isNone ∧ j.ceiling ≤ s.clk.point then powerJobEnd (setMode s 2 j.ceiling 1 0xFF) .ok else s
    else if s.power.transition = 0 ∧ (j.mode = 1 ∨ j.mode = 2) ∧ raised s then powerJobEnd s .ok
    else s
  | none => s

/-- A request for Full or Reduced begins in Full, Reduced or Off (R354). A higher ceiling applies at once. -/
def powerBegin (s : State) (j : PowerJob) : State :=
  let s1 := updPower s fun p => { p with job := some j }
  if j.mode = 1 then powerDone (raisePoint (setMode s1 1 1 1 0xFF))
  else if j.mode = 2 ∧ j.ceiling < s.power.ceiling then powerDone (raisePoint (setMode s1 2 j.ceiling 1 0xFF))
  else if j.mode = 2 then powerDone (dvfsPump (updPower s1 fun p => { p with transition := 1 }))
  else s1

/-- A wake that a gated slice has held begins (R351). -/
def releaseWakes (s : State) (i : Nat) : State :=
  eachN s ((List.range 32).map (i * 32 + ·)) fun s p =>
    match (s.port p).power.held with
    | some src => wakeSteps s p src
    | none => s

/-- Admission of slice `i` resumes, unless a reset or a test holds it. -/
def openSlice (s : State) (i : Nat) : State :=
  if (s.slice i).inReset ∨ testRunning s (sliceT i) then s else s.updSlice i fun x => { x with stopped := false }

/-- Ungate islands: their bridges open later (R536). -/
def ungate (s : State) (mask : Nat) : State :=
  updClk s fun c => { c with
    shut := c.shut ||| (c.gated &&& mask), gated := minusBits c.gated mask, parkedGated := minusBits c.parkedGated mask }

/-- The mask of the five islands that Parked gates. -/
def parkedIslands : Nat := 31 * 2 ^ 24

/-- The device has been parked: the point is Neap (R355 steps 4 and 5). -/
def parkDone (s : State) : State :=
  let p := s.power
  let s1 := updPower s fun p => { p with before := if p.mode = 4 then (if p.ceiling = 1 then 1 else 2) else p.mode,
                                         beforeCeil := p.ceiling, parked := (p.parked + 1) % 2 ^ 32 }
  powerJobEnd (setMode s1 3 p.ceiling 1 0xFF) .ok

/-- The device has left Parked for the mode it was in: islands ungated, admission on, sensors compared (R587), ports woken; a command then goes on to
the mode it asks for (R347, R351, R357, R358, log entry 37). -/
def unparkDone (s : State) : State :=
  let p := s.power
  let s1 := eachN (ungate s parkedIslands) (List.range 4) openSlice
  let s2 := setMode (tideUnpark s1) p.before p.beforeCeil p.exitCause p.exitPort
  let s3 := updPower s2 fun x => { x with lastExit := p.exitCause, lastPort := p.exitPort, exitCause := 0, exitPort := 0xFF }
  let s4 := eachN (eachN s3 (List.range 24) tempCompare) (List.range 4) releaseWakes
  let s5 := if p.exitCause = 1 then s4 else eachN s4 (List.range 128) fun s q =>
    if (s.pcfg q).power.flags.testBit 4 then wakePort s q 5 else s
  match p.job with
  | some j => if j.mode = p.before ∧ (j.mode = 4 ∨ j.ceiling = p.beforeCeil) then powerJobEnd s5 .ok else powerBegin s5 j
  | none => s5

/-- What waits for the sequencer goes on. -/
def powerCheck (s : State) : State :=
  if s.power.transition = 2 ∧ s.power.parkStage = 3 then
    (if s.clk.trans.isNone ∧ (s.clk.point = 3 ∨ s.clk.halted) then parkDone s else s)
  else if s.power.transition = 3 then (if raised s then unparkDone s else s)
  else powerDone s

/-- The sequencer goes on, and what waits for it. -/
def dvfsGo (s : State) : State := powerCheck (dvfsPump s)

/-- The device begins to leave Parked (R357): cause 1 command, 2 `WAKE_N`, 3 line wake. -/
def unparkBegin (s : State) (cause port : Nat) : State :=
  if s.power.mode = 3 ∧ s.power.transition = 0 then
    powerCheck (raisePoint (updPower s fun p => { p with transition := 3, exitCause := cause, exitPort := port }))
  else s

/-! ### FE_READY (R74, R80) -/

/-- FE_READY becomes 1 when the core PLL runs at Neap, locked or open-loop, after the start's PMBus sequence; the reply
queue is emptied. -/
def tryFeReady (s : State) : State :=
  if s.rst.starting && !s.rst.asserted && !s.ctl.feReady && s.clk.startDone && (coreLocked s || 2 ≤ s.clk.lref) then
    { s with
      ctl := { s.ctl with feReady := true, spiQueue := [] }
      rst := { s.rst with boot := { s.rst.boot with toFe := sat 32 ((s.now - s.rst.startAt) / 4000) } } }
  else s

/-! ### The sequencer's events (R538 to R542) -/

/-- The PMBus sequence of a start, or of a halt's end, has failed: the core starts at Neap where the regulator holds VDD_CORE
(R541). -/
def startHalt (s : State) (cause : Nat) : State :=
  tryFeReady (updClk (dvfsFault s cause 3) fun c => { c with pmStage := 4, startDone := true, startHalt := true })

/-- One attempt of the start's sequence has failed; `write`: a write, which counts as retried (R541, R542). -/
def startRetry (s : State) (cause stage : Nat) (write : Bool) : State :=
  if s.clk.pmTries < 2 then
    let s1 := updClk s fun c => { c with pmTries := c.pmTries + 1, pmStage := stage }
    if write then s1.bump 0x5010 0 5 else s1
  else startHalt s cause

/-- One attempt of a transition has failed (R542). -/
def transRetry (s : State) (t : Trans) (cause : Nat) : State :=
  if t.attempts < 2 then
    (updClk s fun c => { c with trans := some { t with attempts := t.attempts + 1, stage := if t.stage = 2 then 2 else 0 } }).bump
      0x5010 0 5
  else powerCheck (dvfsFault s cause t.toPt)

/-- PMBUS_WRITE_DONE: a transaction of the sequencer ends, acknowledged or not; `data` is VOUT_MODE when it was its read. -/
def execPmbusWriteDone (ack : Bool) (data : BitVec 8) (s : State) : Host.Outcome State Fault Refusal :=
  .next (if s.rst.asserted ∨ !s.rst.fusesLoaded then s
  else match s.clk.pmStage with
    | 0 => if ack then updClk s fun c => { c with pmStage := 1, pmTries := 0 } else startRetry s 1 0 true
    | 1 =>
      if !ack then startRetry s 1 1 false
      else if bits data.toNat 7 5 ≠ 0 then startHalt s 3
      else updClk s fun c => { c with pmStage := 2, pmTries := 0, voutMode := data.toNat }
    | 2 => if ack then updClk s fun c => { c with pmStage := 3 } else startRetry s 1 2 true
    | 4 =>
      match s.clk.trans with
      | some t =>
        if t.stage = 1 then s
        else if !ack then transRetry s t 1
        else updClk s fun c => { c with trans := some { t with stage := if t.stage = 2 then 0 else 1 },
                                        pageDue := c.pageDue && t.stage != 2 }
      | none => s
    | _ => s)

/-- A reading lies within the settle window of R539 for a target in 2⁻¹⁶ V. -/
def settles (target mv : Nat) (up down : Bool) : Bool :=
  (!up || target * 1000 ≤ (mv + 10) * 65536) && (!down || (mv - 15) * 65536 ≤ target * 1000)

/-- DVFS_SETTLED: the voltage has been within its window for 10 µs, and the transition proceeds or ends (R538, R539). -/
def execDvfsSettled (mv : BitVec 16) (s : State) : Host.Outcome State Fault Refusal :=
  .next (
    let v := mv.toNat
    let s0 := setRail s 0 v
    if s.clk.pmStage = 3 then
      if settles (pointTarget s 3) v true true then
        let s1 := updClk s0 fun c => { c with pmStage := 4, startDone := true, startHalt := false, settledOnce := true,
                                              vTarget := pointTarget s 3 }
        dvfsGo (tryFeReady s1)
      else s
    else match s.clk.trans with
      | some t =>
        let target := pointTarget s t.toPt
        if t.stage = 1 ∧ settles target v (t.toPt < t.fromPt) (t.fromPt < t.toPt) then
          let s1 := if t.toPt < t.fromPt then setPoint s0 t.toPt else s0
          let s2 := updClk s1 fun c => { c with trans := none, settledOnce := true, vTarget := target }
          let s3 := raise (s2.bump 0x5010 0 (if t.toPt < t.fromPt then 2 else 3)) 0x5004 0 0
            (be 1 t.fromPt ++ be 1 t.toPt ++ be 2 (sat 16 ((s.now - t.startedAt) / 4000)) ++ be 2 v)
          dvfsGo s3
        else s
      | none => s)

/-- DVFS_SETTLE_TIMEOUT: the voltage has not settled within 150 µs of the write (R542). -/
def execDvfsSettleTimeout (mv : BitVec 16) (s : State) : Host.Outcome State Fault Refusal :=
  .next (
    let s0 := setRail s 0 mv.toNat
    if s.clk.pmStage = 3 then startRetry s0 2 2 true
    else match s.clk.trans with
      | some t => if t.stage = 1 then transRetry s0 t 2 else s
      | none => s)

/-- Capacity of a slice in one 1 ms window at an operating point: bank accesses, lookups, ring cells (R435). -/
def capacity (pt : Nat) : Nat × Nat × Nat :=
  let k := 4 - pt
  (16000000 * k, 2000000 * k, 4000000 * k)

/-- Every demand is at or below a share, in tenths, of a point's capacity. -/
def demandFits (tenths pt banks lookups ring : Nat) : Bool :=
  banks * 10 ≤ (capacity pt).1 * tenths && lookups * 10 ≤ (capacity pt).2.1 * tenths && ring * 10 ≤ (capacity pt).2.2 * tenths

/-- The greatest demand of the present window among `n` from number `a` on. -/
def greatest (s : State) (a n : Nat) : Nat := ((List.range n).map fun i => s.fabric.load.get 0 (a + i)).foldl max 0

/-- LOAD_WINDOW_END: the demands measured in a window, of each slice and ring segment, are judged by their greatest; automatic choice
follows them in Full and Reduced (R435, R543). -/
def execLoadWindowEnd (s : State) : Host.Outcome State Fault Refusal :=
  .next (
    let pt := s.clk.point
    let banks := greatest s 0 4
    let lookups := greatest s 4 4
    let ring := greatest s 8 8
    let run := if pt < 3 ∧ demandFits 8 (pt + 1) banks lookups ring then s.fabric.fitRun + 1 else 0
    let s1 := { s with fabric := { s.fabric with fitRun := min run 100, load := [] } }
    if s.cfg.dev.dvfsMode ≠ 1 ∨ s.power.mode = 3 ∨ (s.power.transition = 2 ∧ s.power.parkStage = 3) ∨ s.rst.headland = 0 then s1
    else if !demandFits 9 pt banks lookups ring then dvfsGo (updClk s1 fun c => { c with stepUp := dvfsCeil s < pt })
    else if 100 ≤ run ∧ dvfsFree s1 ∧ !s.clk.stepUp then beginTrans s1 (pt + 1)
    else s1)

/-! ### Failures and returns of clocks (R521 to R530) -/

/-- A port loses its cove's clock: reason 8 from Up and LPI, and state 1 from start-up (R529). -/
def portClockLoss (s : State) (p : Nat) : State :=
  match (s.port p).st with
  | .up | .lpi => linkDown s p 8 4
  | .negotiating | .training => abandon s p
  | _ => s

/-- The configured links of quay `q`. -/
def quayLinks (s : State) (q : Nat) : List Nat := ((List.range 8).map (8 * q + ·)).filter fun k => s.linkWidth k != 0

/-- A quay loses its clock: its links drop with reason 8, and its lanes wait for it (R383). -/
def quayClockLoss (s : State) (q : Nat) : State := eachN s (quayLinks s q) fun s k => linkRetrain s k 8

/-- The core PLL coasts: dividers at Neap at once, a transition is given up, the sequencer is suspended. -/
def coreCoast (s : State) : State := updClk (setPoint s 3) fun c => { c with trans := none, suspended := true }

/-- The effects on the data path of a clock's failure (R529, R383, R476). -/
def clockLoss (s : State) (c : Nat) : State :=
  if c < 16 then eachN s (portsOf (coveT c)) portClockLoss
  else if c < 24 then quayClockLoss s (c - 16)
  else match c with
    | 24 => powerCheck (coreCoast s)
    | 25 => gptpLose s
    | 26 => { s with ctl := { s.ctl with mgmtUp := false } }
    | 27 =>
      let s1 := eachN (coreCoast s) (List.range 128) portClockLoss
      powerCheck (gptpLose { s1 with ctl := { s1.ctl with mgmtUp := false } })
    | _ => eachN s (List.range 8) quayClockLoss

/-- The condition of fault 0x0907 is present or absent. -/
def refPresent (s : State) : State := setPresent s 6 (refLost s)

/-- The clock is there to fail, and not yet marked: a reference once stable or present, a PLL that is locked or coasts. A clock
that still fails after a reset is found anew (R529). -/
def clockRuns (s : State) (c : Nat) : Bool :=
  !s.clk.failed.testBit c &&
    (if c < 26 then s.clk.locked.testBit c || !(clockIslands c).any s.clk.onKeeper.testBit
     else if c = 26 then s.clk.locked.testBit c
     else if c = 27 then s.clk.lref == 1 || s.clk.lref == 2 else s.clk.href != 0)

/-- Flags, status and counts of a failure. -/
def markFailed (s : State) (c : Nat) : State :=
  updClk s fun k => { k with
    failed := setBit k.failed c
    clkFail := k.clkFail ||| maskOf (clockIslands c)
    locked := if c < 27 then clrBit k.locked c else if c = 27 then minusBits k.locked lrefPlls
      else minusBits k.locked (255 * 2 ^ 16)
    lref := if c = 27 then 2 else k.lref
    href := if c = 28 then 2 else k.href }

/-- CLOCK_FAIL: a monitor flags a failing clock (R527, R529). -/
def execClockFail (clock : Fin 29) (stopped : Bool) (s : State) : Host.Outcome State Fault Refusal :=
  .next (
    let c := clock.val
    if !s.rst.powered ∨ !clockRuns s c then s
    else
      let s1 := raise ((markFailed s c).bump 0x5010 0 0) 0x5001 2 0 (be 1 (clockCode c) ++ be 1 (b2n stopped))
      let s2 := if c = 24 ∨ c = 25 ∨ c = 27 then safetyFault (refPresent s1) 6 0 (be 1 (clockCode c)) else s1
      clockLoss s2 c)

/-- CLOCK_RETURN: a failed clock has stayed in range for 4,096 keeper cycles (R527, R529). -/
def execClockReturn (clock : Fin 30) (s : State) : Host.Outcome State Fault Refusal :=
  .next (
    let c := clock.val
    let lost : Bool := (c == 27 && s.clk.lref == 2) || (c == 28 && s.clk.href == 2)
    if !lost ∧ (c = 27 ∨ !s.clk.failed.testBit c) then s
    else
      let s1 := updClk s fun k => { k with
        failed := clrBit k.failed c, lref := if c = 27 then 1 else k.lref, href := if c = 28 then 1 else k.href }
      refPresent (raise s1 0x5002 0 0 (be 1 (clockCode c))))

/-- LREF_STABLE: the amplitude has held for 4,096 cycles; `freq` is the keeper's frequency against it, in 10 kHz (R521). -/
def execLrefStable (freq : BitVec 16) (s : State) : Host.Outcome State Fault Refusal :=
  .next (if !s.rst.powered ∨ (s.rst.asserted ∧ s.rst.reach = 0) ∨ (s.clk.lref ≠ 0 ∧ s.clk.lref ≠ 3) then s
  else refPresent (updClk s fun k => { k with lref := 1, keeperFreq := freq.toNat, failed := clrBit k.failed 27 }))

/-- LREF_START_TIMEOUT: LREF is not stable 50 ms after `PGOOD_IN`; start-up goes on, every LREF-fed PLL coasting (R522). -/
def execLrefStartTimeout (s : State) : Host.Outcome State Fault Refusal :=
  .next (if s.clk.lref ≠ 0 ∨ s.rst.asserted ∨ !s.rst.starting then s
  else
    let s1 := updClk s fun k => { k with
      lref := 3, failed := setBit k.failed 27, clkFail := k.clkFail ||| maskOf (clockIslands 27)
      onKeeper := minusBits k.onKeeper (maskOf (clockIslands 27)), suspended := true }
    let s2 := safetyFault (refPresent s1) 6 0 (be 1 0xFD)
    tryFeReady (eachN s2 (List.range 128) leaveQuiet))

/-- HREF_PRESENT: HREF has been seen in range for 4,096 keeper cycles (R523). -/
def execHrefPresent (s : State) : Host.Outcome State Fault Refusal :=
  .next (if !s.rst.powered ∨ (s.rst.asserted ∧ s.rst.reach = 0) ∨ s.clk.href ≠ 0 then s
  else eachN (updClk s fun k => { k with href := 1 }) (List.range 64) leaveQuietLane)

/-- Islands move back to a PLL that has locked (R530, R533). -/
def islandsBack (s : State) (c : Nat) : State :=
  let back := (clockIslands c).filter s.clk.onKeeper.testBit
  let s1 := updClk s fun k => { k with onKeeper := minusBits k.onKeeper (maskOf (clockIslands c)) }
  eachN s1 back fun s i =>
    if i < 16 then eachN (keeperRelease s (coveT i)) (portsOf (coveT i)) leaveQuiet
    else if i < 24 then eachN (keeperRelease s (quayT (i - 16))) ((List.range 8).map ((i - 16) * 8 + ·)) leaveQuietLane
    else if i < 28 then keeperRelease s (sliceT (i - 24))
    else if i = 28 then keeperRelease s tideT
    else s

/-- PLL_LOCK: a PLL locks or relocks (R530, R541, R543). -/
def execPllLock (pll : Fin 27) (s : State) : Host.Outcome State Fault Refusal :=
  .next (
    let c := pll.val
    let ref : Bool := if 16 ≤ c ∧ c < 24 then s.clk.href == 1 else s.clk.lref == 1
    if !s.rst.powered ∨ s.rst.asserted ∨ !ref ∨ s.clk.locked.testBit c ∨ (c = 24 ∧ !s.clk.startDone) then s
    else
      let s1 := islandsBack (updClk s fun k => { k with locked := setBit k.locked c, suspended := k.suspended && c != 24 }) c
      if c < 16 then s1
      else if c < 24 then eachN s1 ((List.range 8).map ((c - 16) * 8 + ·)) laneTrain
      else if c = 24 then (if s.rst.starting then tryFeReady s1 else powerCheck (raisePoint s1))
      else s1)

/-- Block target of the island that the keeper clock holds in reset, if any (R533). -/
def keeperTarget (i : Nat) : Option Nat :=
  if i < 16 then some (coveT i)
  else if i < 24 then some (quayT (i - 16))
  else if i < 28 then some (sliceT (i - 24))
  else if i = 28 then some tideT
  else none

/-- CLOCK_FORCED_SWITCH: the island's PLL output has stopped, and its clock switches to the keeper; a test in
the island has lost its precondition (R532, R533, R617). -/
def execClockForcedSwitch (i : Fin 31) (s : State) : Host.Outcome State Fault Refusal :=
  .next (if !s.rst.powered ∨ s.rst.asserted ∨ s.clk.locked.testBit (pllOf i) ∨ s.clk.onKeeper.testBit i then s
  else
    let s1 := updClk s fun k => { k with onKeeper := setBit k.onKeeper i, forced := setBit k.forced i }
    let s2 := raise (s1.bump 0x5010 0 1) 0x5003 1 (islandT i) (be 1 i ++ be 1 1)
    let s3 := (s2.stest.running.filter fun e => islandOf e.1 == some i.val).foldl (fun s e => markTest s e.1 5) s2
    match keeperTarget i with
    | some t => keeperHold s3 t
    | none => if i.val = 30 then gptpLose s3 else s3)

/-- KEEPER_FREQ_FAULT: the keeper's frequency against LREF lies outside 100 MHz ±10 % (R528). -/
def execKeeperFreqFault (freq : BitVec 16) (s : State) : Host.Outcome State Fault Refusal :=
  .next (if s.clk.lref ≠ 1 ∨ within freq.toNat 9000 11000 then s
  else
    let s1 := updClk s fun k => { k with keeperFreq := freq.toNat, clkFail := setBit k.clkFail 31, failed := setBit k.failed 29 }
    if s.clk.failed.testBit 29 then s1
    else raise (s1.bump 0x5010 0 0) 0x5001 2 0 (be 1 31 ++ be 1 0))

/-! ### Gating (R28, R31, R443, R534 to R536, R546) -/

/-- R28 for slice `i`: every port of its shoal quiet or in Slack, no host link of its quays Up. -/
def sliceIdle (s : State) (i : Nat) : Bool :=
  ((List.range 32).all fun j => let st := (s.port (i * 32 + j)).st; st == .quiet || st == .slack) &&
    (quayLinks s i ++ quayLinks s (i + 4)).all fun k => (s.link k).st != .up

/-- A slice's gate has lost its conditions before it took effect: a link has come up, or a port has left Quiet or Slack (R28). -/
def gateLost (s : State) (i : Nat) : Bool := 24 ≤ i && i < 28 && !sliceIdle s (i - 24)

/-- Island `i` is gated, or its gate request is on its way. -/
def gateAsked (s : State) (i : Nat) : Bool :=
  s.clk.gated.testBit i || s.clk.gateReq.testBit i || s.rst.gating.any fun g => 24 + g.1 == i

/-- Island `i` can be gated (R534). -/
def gateOk (s : State) (i : Nat) : Bool :=
  gateAsked s i ||
    (if i < 16 then (portsOf (coveT i)).all fun p => (s.port p).st == .quiet
     else if i < 24 then (List.range 8).all fun j => (s.lane ((i - 16) * 8 + j)).st == .quiet
     else if i < 28 then sliceIdle s (i - 24) else false)

/-- Gate island `i` for a request: a slice drains first and its reply comes at the end, others wait for their bridges. -/
def gateIsland (s : State) (op : Nat) (r : Req) (i : Nat) : State × Option (Status × List Byte) :=
  if gateAsked s i then (s, some (.ok, []))
  else if 24 ≤ i ∧ i < 28 then
    let s1 := s.updSlice (i - 24) fun x => { x with stopped := true }
    ({ s1 with rst := { s1.rst with gating := s1.rst.gating ++ [(i - 24, op, r, false)] } }, none)
  else (updClk s fun c => { c with gateReq := setBit c.gateReq i }, some (.ok, []))

/-- Ungate island `i`. -/
def ungateIsland (s : State) (i : Nat) : State :=
  if !s.clk.gated.testBit i then s
  else
    let s1 := ungate s (2 ^ i)
    if i < 16 then eachN s1 (portsOf (coveT i)) leaveQuiet
    else if i < 24 then eachN s1 ((List.range 8).map ((i - 16) * 8 + ·)) leaveQuietLane
    else if i < 28 then releaseWakes (openSlice s1 (i - 24)) (i - 24)
    else s1

/-- Checks of the gating commands on island `i`. -/
def gateCheck (s : State) (r : Req) (i : Nat) : Option Status :=
  firstFail [inv (rz r 1 3), inv (within (p8 r 0) 1 2),
    ((if p8 r 0 = 1 then gateOk s i else !s.clk.parkedGated.testBit i), .notPermitted)]

/-- Run of the gating commands on island `i`. -/
def gateRun (s : State) (op : Nat) (r : Req) (i : Nat) : State × Option (Status × List Byte) :=
  if p8 r 0 = 1 then gateIsland s op r i else (ungateIsland s i, some (.ok, []))

/-- SLICE_GATE (0x3020). -/
def sliceGateCmd : Cmd where
  op := 0x3020
  target := onSlice
  len := len 4
  check := fun s r => gateCheck s r (24 + ti r)
  writes := true
  gate := false
  run := fun s r => gateRun s 0x3020 r (24 + ti r)

/-- SLICE_GATE. -/
def execSliceGate (r : Req) (s : State) : Host.Outcome State Fault Refusal := .next (serve sliceGateCmd r s)

/-- Block that an island is. -/
def islandBlock (i : Nat) : Nat := (keeperTarget i).getD 0

/-- ISLAND_GATE (0x5005): addressed to a slice it behaves as SLICE_GATE (R546). -/
def islandGateCmd : Cmd where
  op := 0x5005
  target := onIsland
  len := len 4
  check := fun s r => gateCheck s r (ti r)
  writes := true
  gate := false
  names := fun _ r => [islandBlock (ti r)]
  run := fun s r => gateRun s 0x5005 r (ti r)

/-- ISLAND_GATE. -/
def execIslandGate (r : Req) (s : State) : Host.Outcome State Fault Refusal := .next (serve islandGateCmd r s)

/-- The drain of a slice's gate has ended: the gate waits for its bridges (R443). -/
def gatingDrained (s : State) (i : Nat) (forced : Bool) : State :=
  let gating := s.rst.gating.map fun g => if g.1 = i then (g.1, g.2.1, g.2.2.1, g.2.2.2 || forced) else g
  let s1 := updClk { s with rst := { s.rst with gating } } fun c => { c with gateReq := setBit c.gateReq (24 + i) }
  if forced then s1.bump 0x6010 0 5 else s1

/-- The commands that gate slice `i` are answered (R443): with the status of their drain, or as `st` says. -/
def gatingReply (s : State) (i : Nat) (st : Option Status) : State :=
  let mine := s.rst.gating.filter fun g => g.1 == i
  let s1 := { s with rst := { s.rst with gating := s.rst.gating.filter fun g => g.1 != i } }
  mine.foldl (fun s g => reply s g.2.1 g.2.2.1 (st.getD (drainStatus g.2.2.2)) []) s1

/-- A slice's gate is given up: its commands are answered as R28 answers them, admission resumes, and wakes go on (DEDUCED, log
entry 123). -/
def gateGiveUp (s : State) (i : Nat) : State :=
  let s1 := gatingReply (updClk s fun c => { c with gateReq := clrBit c.gateReq i }) (i - 24) (some .notPermitted)
  releaseWakes (openSlice s1 (i - 24)) (i - 24)

/-- Parked entry: when all five islands are gated, the point steps to Neap (R355 steps 3 and 4). -/
def parkGated (s : State) : State :=
  if s.power.transition = 2 ∧ s.power.parkStage = 2 ∧ s.clk.parkedGated = parkedIslands then
    dvfsGo (updPower s fun p => { p with parkStage := 3 })
  else s

/-- ISLAND_GATE_EFFECT: every bridge is idle, and the gate takes effect; it waits for a transition in progress. -/
def execIslandGateEffect (i : Fin 31) (s : State) : Host.Outcome State Fault Refusal :=
  .next (if !s.clk.gateReq.testBit i ∨ s.clk.trans.isSome then s
  else
    let park : Bool := s.power.transition == 2 && s.power.parkStage == 2 && parkedIslands.testBit i
    if !park && gateLost s i then gateGiveUp s i
    else
    let s1 := updClk s fun c => { c with
      gateReq := clrBit c.gateReq i, gated := setBit c.gated i
      parkedGated := if park then setBit c.parkedGated i else c.parkedGated }
    parkGated (if 24 ≤ i.val ∧ i.val < 28 then gatingReply s1 (i.val - 24) none else s1))

/-- BRIDGES_OPEN: 64 island clock cycles after ungating (R536). -/
def execBridgesOpen (i : Fin 31) (s : State) : Host.Outcome State Fault Refusal :=
  .next (updClk s fun c => { c with shut := clrBit c.shut i })

/-! ### Opcodes 0x50xx -/

/-- Sequencer byte of CLOCK_STATUS. -/
def sequencerByte (s : State) : Nat :=
  if s.clk.halted then 2 else if s.clk.suspended then 3 else if s.power.mode = 3 then 4
  else if s.cfg.dev.dvfsMode = 2 then 1 else 0

/-- CLOCK_STATUS result, 32 bytes. -/
def clockStatusData (s : State) (_ : Req) : List Byte :=
  be 1 s.clk.lref ++ be 1 s.clk.href ++ be 1 s.clk.point ++ be 1 (sequencerByte s) ++ be 4 s.clk.clkFail ++
    be 4 (failingIslands s) ++ be 4 s.clk.forced ++ be 4 s.clk.gated ++
    be 2 (if s.clk.lref = 1 then s.clk.keeperFreq else 0) ++ be 2 (sat 16 (s.elec.rails.get 0 0)) ++ be 2 (targetMv s) ++
    be 1 (b2n !(s.clk.locked.testBit 26)) ++ zeros 5

/-- CLOCK_STATUS (0x5001). -/
def clockStatusCmd : Cmd := readCmd 0x5001 onDevice 0 clockStatusData

/-- CLOCK_STATUS. -/
def execClockStatus (r : Req) (s : State) : Host.Outcome State Fault Refusal := .next (serve clockStatusCmd r s)

/-- A committed `DVFS_CONFIG` applies at once and clears the halt; after a halt of the start's own sequence it repeats the
VOUT_MODE read and the Neap write first (R541, R545). -/
def dvfsRestart (s : State) : State :=
  let s1 := updClk s fun c => { c with halted := false }
  if s.clk.startHalt then
    updClk s1 fun c => { c with startHalt := false, pmStage := if s.cfg.dev.avsPage = 0xFF then 1 else 0, pmTries := 0 }
  else dvfsGo s1

/-- DVFS_CONFIG (0x5002). -/
def dvfsConfigCmd : Cmd := confCmd 0x5002 onDevice 4
  (fun _ r => firstFail [inv (rz r 2 2), inv (within (p8 r 0) 1 2),
    inv (if p8 r 0 = 2 then within (p8 r 1) 1 3 else p8 r 1 == 0)])
  fun s r => dvfsRestart (updDev s fun d => { d with dvfsMode := p8 r 0, dvfsPoint := p8 r 1 })

/-- DVFS_CONFIG. -/
def execDvfsConfig (r : Req) (s : State) : Host.Outcome State Fault Refusal := .next (serve dvfsConfigCmd r s)

/-- AVS_CONFIG (0x5003): its page is written before the next transition (R541, R545). -/
def avsConfigCmd : Cmd := confCmd 0x5003 onDevice 4
  (fun _ r => firstFail [inv (rz r 3 1), inv (within (p8 r 0) 0x08 0x77), inv (p8 r 1 ≤ 3)])
  fun s r => updClk (updDev s fun d => { d with avsAddr := p8 r 0, avsFlags := p8 r 1, avsPage := p8 r 2 })
    fun c => { c with pageDue := p8 r 2 != 0xFF }

/-- AVS_CONFIG. -/
def execAvsConfig (r : Req) (s : State) : Host.Outcome State Fault Refusal := .next (serve avsConfigCmd r s)

/-- CLOCK_FLAGS_CLEAR (0x5006): a bit whose clock still fails stays (R529). -/
def clockFlagsClearCmd : Cmd where
  op := 0x5006
  target := onDevice
  len := len 8
  writes := true
  run := doOk fun s r => updClk s fun c => { c with
    clkFail := minusBits c.clkFail (minusBits (p32 r 0) (failingIslands s)), forced := minusBits c.forced (p32 r 4) }

/-- CLOCK_FLAGS_CLEAR. -/
def execClockFlagsClear (r : Req) (s : State) : Host.Outcome State Fault Refusal := .next (serve clockFlagsClearCmd r s)

/-- Whole milliseconds spent at a point (R547). -/
def timeAtMs (s : State) (pt : Nat) : Nat :=
  (s.clk.timeAt.get 0 pt + if s.clk.point = pt then s.now - s.clk.pointAt else 0) / 4000000

/-- CLOCK_COUNTERS_READ (0x5010). -/
def clockCountersReadCmd : Cmd := readCmd 0x5010 onDevice 0 fun s _ =>
  s.block 0x5010 0 0 0 ((List.range 6).map (s.cnt 0x5010 0) ++ [timeAtMs s 1, timeAtMs s 2, timeAtMs s 3])

/-- CLOCK_COUNTERS_READ. -/
def execClockCountersRead (r : Req) (s : State) : Host.Outcome State Fault Refusal := .next (serve clockCountersReadCmd r s)

/-- CLOCK_COUNTERS_CLEAR (0x5011). -/
def clockCountersClearCmd : Cmd := clearCmd 0x5011 onDevice 0 (fun _ _ => [0]) fun s _ =>
  updClk (s.clearCnt 0x5010 0) fun c => { c with timeAt := [], pointAt := s.now }

/-- CLOCK_COUNTERS_CLEAR. -/
def execClockCountersClear (r : Req) (s : State) : Host.Outcome State Fault Refusal := .next (serve clockCountersClearCmd r s)

end Sys2Proof.Machine
end

