-- ==== Sys2Proof/Machine/Boot.lean ====
section
/-! DEFINITION. Resets of reach 0 to 2 and the starts that follow, the choice of the firmware slot, Headland's restart and
watchdog, and the commands 0x6004 to 0x6006 (R548 to R567, R571 to R576). How the block comes to run from `State.reset`
is log entry 39. -/

namespace Sys2Proof.Machine

/-! ### What a reset of reach 0 to 2 keeps (R555) -/

/-- The PLLs, references and islands across a reset: a cold reset starts everything anew, a pin or warm reset keeps every PLL
but the core PLL (R561, R563, log entry 29). -/
def resetClk (s : State) (reach : Nat) : Clk :=
  if reach = 0 then {}
  else { lref := if s.clk.lref = 1 then 1 else s.clk.lref, href := s.clk.href, locked := clrBit s.clk.locked 24
         onKeeper := s.clk.onKeeper ||| maskOf (clockIslands 24), keeperFreq := s.clk.keeperFreq, pointAt := s.now }

/-- Calibration across a warm reset: values are kept, runs and commands given up (R555, R592). -/
def keptCalib (s : State) : Calib :=
  let kept := eachN s (List.range 192) fun s b => s.updCal b fun x => { x with
    running := false, measured := false, steps := [], source := 2, failures := 0, eventAt := none }
  { blocks := kept.calib.blocks, refs := s.calib.refs, sensors := s.calib.sensors }

/-- Counters across a reset: the reset counters alone are kept, and not by a cold reset (R555, R579). -/
def keptCounters (s : State) (reach : Nat) : Tab Nat :=
  if reach = 0 then [] else s.counters.filter fun e => ckey 0x6010 0 0 ≤ e.1 && e.1 < ckey 0x6010 0 256

/-- The committed configuration after a reset: the defaults, under the fuse minimum policy and the lowest usable key slot
(R84, R85). -/
def resetCfg (s : State) : Cfg :=
  let d : Cfg := {}
  { d with dev := { d.dev with policy := s.fuses.minPolicy, active := lowestUsable s.fuses } }

/-- Reset controller across a reset: every hold and every recorded source is discarded (R554); the firmware selection and the
last image checked survive a warm reset alone (R555, R564). -/
def resetRst (s : State) (reach : Nat) : Rst :=
  let r := s.rst
  { powered := r.powered, pgood := r.pgood, resetN := r.resetN, bootselPins := r.bootselPins, bootsel := r.bootsel
    asserted := true, reach
    fusesLoaded := reach == 2, startAt := s.now, startKind := r.startKind
    warmCause := if reach = 2 then r.warmDue else if reach = 1 then r.warmCause else 0
    sel := if reach = 2 then r.sel else none, lastImage := if reach = 2 then r.lastImage else none
    slot := r.slot, fwVersion := r.fwVersion, boot := r.boot
    lastForced := if reach = 0 then 0xFFFFFFFF else r.lastForced, episodes := if reach = 0 then 0 else r.episodes
    lastReach := if reach = 0 then 0xFF else r.lastReach, lastEnd := if reach = 0 then 0 else r.lastEnd }

/-- Fault collector across a reset: latches cleared, the record kept by reach 1 and 2, the conditions of rails and sensors as
they are (R515, R555). -/
def resetInteg (s : State) (reach : Nat) : Integ :=
  let i : Integ := { present := s.integ.present &&& 0x600, startAssert := true }
  if reach = 0 then i else { i with record := s.integ.record, faultSeq := s.integ.faultSeq, copiedSeq := s.integ.copiedSeq }

/-- A reset of reach 0, 1 or 2 is asserted (R554, R555, R557, R563, R601). -/
def deviceReset (s : State) (reach : Nat) : State :=
  let s1 : State := {
    pending := s.pending, freeCtr := s.freeCtr, now := if reach = 0 then 0 else s.now
    ctl := { sent := s.ctl.sent, window := if reach = 2 then s.ctl.window else []
             spiQueue := if reach = 0 then [] else s.ctl.spiQueue }
    fuses := s.fuses, cfg := resetCfg s, counters := keptCounters s reach, integ := resetInteg s reach
    clk := resetClk s reach, rst := resetRst s reach
    nvm := { mem := s.nvm.mem, ringNext := s.nvm.ringNext, session := s.nvm.session }
    calib := if reach = 2 then keptCalib s else { sensors := s.calib.sensors }
    stest := { logA := s.stest.logA, logB := s.stest.logB }
    elec := { rails := s.elec.rails, outMask := s.elec.outMask, underMask := s.elec.underMask }
    relinks := if reach = 2 then s.relinks else [], baselines := if reach = 2 then s.baselines else []
    power := { since := if reach = 0 then 0 else s.now }
    strm := { bases := if reach = 0 then [{}, {}, {}, {}] else s.strm.bases } }
  abandonSession s1 4

/-! ### Assertion and release (R548, R560 to R563) -/

/-- The power-on detector releases: the keeper starts and `FAULT_N` is driven low (R558, R645). -/
def execPowerOnRelease (s : State) : Host.Outcome State Fault Refusal :=
  .next { s with rst := { s.rst with powered := true } }

/-- A start-up at least as strong as `reach` is in progress, and has not come to rest in Headland state 3 or 4 (R552, R567, R573). -/
def startHolds (s : State) (reach : Nat) : Bool :=
  s.rst.starting && !s.rst.asserted && s.rst.reach ≤ reach && s.rst.headland < 3

/-- A cold or pin reset restarts no start-up at least as strong; it is recorded for READY (R552). -/
def recordDue (s : State) (reach : Nat) : State :=
  { s with rst := { s.rst with due := some (min reach (s.rst.due.getD reach)) } }

/-- The cold reset is asserted: `por` by the power-on detector, as the supply goes, else by a low `PGOOD_IN`, which a cold start in
progress records (R552, log entry 146). -/
def execColdResetAssert (por : Bool) (s : State) : Host.Outcome State Fault Refusal :=
  .next (
    let s1 := if !por && startHolds s 0 then recordDue s 0 else deviceReset s 0
    { s1 with rst := { s1.rst with powered := s.rst.powered && !por, pgood := s.rst.pgood && por } })

/-- `RESET_N` low asserts the pin reset; under a cold reset it only holds its release, and a cold or pin start in progress records
it (R551, R552, R560). -/
def execPinResetAssert (s : State) : Host.Outcome State Fault Refusal :=
  .next (
    let s1 := if s.rst.asserted ∧ s.rst.reach = 0 ∨ !s.rst.powered then s
      else if startHolds s 1 then recordDue s 1 else deviceReset s 1
    { s1 with rst := { s1.rst with resetN := false } })

/-- A start begins: its record, the slot scan, and its kind (R560, R563, R606). -/
def beginBoot (s : State) (kind : Nat) (bootsel : Nat) : State :=
  scanSlots { s with rst := { s.rst with
    asserted := false, starting := true, pgood := true, resetN := true, bootsel, startAt := s.now, startKind := kind
    boot := { kind, cal := if kind = 2 then 2 else 0 } } }

/-- COLD_START: the reset of reach 0 and `RESET_N` are released; the fuse load begins, or a reset that waits for READY has lost its
source. -/
def execColdStart (bootsel : BitVec 2) (s : State) : Host.Outcome State Fault Refusal :=
  .next (if s.rst.powered ∧ s.rst.asserted ∧ s.rst.reach = 0 then beginBoot s 0 bootsel.toNat
  else if s.rst.due.isSome then { s with rst := { s.rst with pgood := true, resetN := true, bootselPins := bootsel.toNat } }
  else s)

/-- PIN_START: `RESET_N` is released. -/
def execPinStart (bootsel : BitVec 2) (s : State) : Host.Outcome State Fault Refusal :=
  .next (if s.rst.powered ∧ s.rst.asserted ∧ s.rst.reach = 1 then (beginBoot s 1 bootsel.toNat).bump 0x6010 0 0
  else if s.rst.due.isSome then { s with rst := { s.rst with resetN := true, bootselPins := bootsel.toNat } }
  else s)

/-- A reply with this opcode has not left its host link yet (R43, R80). -/
def replyWaits (s : State) (op : Nat) : Bool := s.fabric.egress.any fun e => e.2.replies.any fun p => p.opcode == op

/-- WARM_RESET_ASSERT: the reply of `DEVICE_WARM_RESET` has left, or the watchdog asks; during a start it is recorded (R552). -/
def execWarmResetAssert (s : State) : Host.Outcome State Fault Refusal :=
  .next (if s.rst.warmDue ≠ 0 ∧ !replyWaits s 0xF004 ∧ s.rst.powered ∧ !s.rst.asserted ∧ (!s.rst.starting ∨ 3 ≤ s.rst.headland) then deviceReset s 2
    else s)

/-- The newest valid copy of the repair log, if any (R622). -/
def newestLog (s : State) : Option LogCopy :=
  let a := s.stest.logA
  let b := s.stest.logB
  if a.valid ∧ (!b.valid ∨ b.seq < a.seq) then some a else if b.valid then some b else none

/-- Take the soft repair map of a log copy. -/
def useLog (s : State) (l : LogCopy) : State :=
  { s with stest := { s.stest with banks := l.map.map fun e => (e.1, { soft := e.2 }) } }

/-- A warm start takes its repair from the newest valid copy of the repair log, and then runs no memory test (R563, R622). -/
def repairFromLog (s : State) : State :=
  match newestLog s with
  | some l => useLog { s with rst := { s.rst with bistDone := true } } l
  | none => s

/-- WARM_START: the assertion phase ends; repair comes from the repair log, and the memory test runs when no copy is valid
(R563, R622). The PMBus sequence begins (R541). -/
def execWarmStart (s : State) : Host.Outcome State Fault Refusal :=
  .next (if s.rst.asserted ∧ s.rst.reach = 2 then
    let s1 := repairFromLog ((beginBoot s 2 s.rst.bootsel).bump 0x6010 0 1)
    updClk { s1 with rst := { s1.rst with calDone := true } } fun c => { c with pmStage := 1 }
  else s)

/-- FUSE_LOAD_DONE: trims, keys, permanent repair and addresses are loaded, and the PMBus sequence begins (R541, R560). -/
def execFuseLoadDone (s : State) : Host.Outcome State Fault Refusal :=
  .next (if s.rst.starting ∧ !s.rst.asserted ∧ !s.rst.fusesLoaded then
    updClk { s with rst := { s.rst with fusesLoaded := true } } fun c => { c with pmStage := 1 }
  else s)

/-! ### Firmware slots (R564 to R567) -/

/-- Region of firmware slot `i`, 0 A, 1 B. -/
def fwRegion (i : Nat) : Nat := i + 1

/-- Slot that R565 chooses; none when no slot is valid and none is selected. -/
def chosenSlot (s : State) : Option Nat :=
  match s.rst.sel with
  | some i => some i
  | none =>
    match newestSlot s 1 with
    | some n =>
      let i := n - 1
      some (if s.rst.bootsel.testBit 1 && slotValid s (otherSlot n) then 1 - i else i)
    | none => none

/-- The image of a slot is unchanged (R564). -/
def imageUnchanged (s : State) (i : Nat) : Bool :=
  slotValid s (fwRegion i) && s.rst.lastImage == some (i, s.slotSeq (fwRegion i))

/-- The image of a slot passes: valid, and unchanged or with a correct signature (R566). -/
def imagePasses (s : State) (i : Nat) (sig : Bool) : Bool := slotValid s (fwRegion i) && (imageUnchanged s i || sig)

/-- The device runs the image of slot `i`; `flags` are the firmware result's. -/
def runImage (s : State) (i flags version : Nat) : State :=
  tryFirmware { s with rst := { s.rst with
    slot := i, fwVersion := version, fwChecked := true, lastImage := some (i, s.slotSeq (fwRegion i))
    boot := { s.rst.boot with slot := i, fwResult := flags ||| b2n !(imageUnchanged s i) } } }

/-- FIRMWARE_SIGNATURE_DONE: the slot has been chosen and its image checked, and the other slot's when it failed; `chosen` and
`other` are the signature checks' outcomes, `version` that of the image that runs (R565 to R567, log entry 30). -/
def execFirmwareSignatureDone (chosen other : Bool) (version : BitVec 32) (s : State) : Host.Outcome State Fault Refusal :=
  .next (
    let restart := s.rst.jobs.any fun j => j.target == 1 && j.phase == 2
    if !s.ctl.feReady ∨ s.rst.fwChecked ∨ s.rst.headland ≠ 0 ∨ !(s.rst.starting || restart) then s
    else
      let c := (chosenSlot s).getD 0
      if (chosenSlot s).isSome ∧ imagePasses s c chosen then runImage s c 0 version.toNat
      else if imagePasses s (1 - c) other then
        raise (runImage s (1 - c) (2 + b2n ((chosenSlot s).isSome && slotValid s (fwRegion c) && !imageUnchanged s c)) version.toNat) 0x6003 2 1 (be 1 c ++ be 1 (1 - c))
      else
        let res := 4 + b2n (slotValid s 1 || slotValid s 2)
        let s1 := { s with rst := { s.rst with
          headland := 4, boot := { s.rst.boot with slot := 0xFF, profResult := 6, fwResult := res } } }
        safetyFault (setPresent s1 8 true) 8 1 [])

/-! ### Headland's restart and watchdog (R571 to R573) -/

/-- HEADLAND_RESET_RELEASE: the domain reset of Headland is released, and its start of reach 3 begins (R565, R572, R579). -/
def execHeadlandResetRelease (s : State) : Host.Outcome State Fault Refusal :=
  .next (match resetJob s 1 with
    | some j =>
      if j.phase = 1 then
        let s1 := updJobs (s.bump 0x6010 0 2) (fun k => k.target == 1) fun k => { k with phase := 2, strongest := 3 }
        scanSlots { s1 with rst := { s1.rst with
          startAt := s.now, headland := 0, fwChecked := false, boot := { kind := 3, profResult := 5, cal := 2 } } }
      else s
    | none => s)

/-- A watchdog expiry: Headland stops, fault 0x0908, and the configured action (R573). -/
def watchdogExpired (s : State) : State :=
  let s1 := ({ s with rst := { s.rst with headland := 3 } }).bump 0x6010 0 6
  let s2 := safetyFault (setPresent s1 7 true) 7 1 []
  match s.cfg.dev.wdAction with
  | 1 => askReset s2 1 3 false none none
  | 2 => { s2 with rst := { s2.rst with warmDue := 2 } }
  | _ => s2

/-- WATCHDOG_EXPIRY: the firmware has not served the watchdog for its timeout. -/
def execWatchdogExpiry (s : State) : Host.Outcome State Fault Refusal :=
  .next (if s.rst.headland = 2 ∧ s.cfg.dev.wdOn then watchdogExpired s else s)

/-- STARTUP_TIMER_EXPIRY: READY has not been reached in time. -/
def execStartupTimerExpiry (s : State) : Host.Outcome State Fault Refusal :=
  .next (if s.rst.headland = 1 ∧ s.cfg.dev.wdOn then watchdogExpired s else s)

/-! ### Opcodes -/

/-- BOOT_STATUS result, 32 bytes. -/
def bootStatusData (s : State) (_ : Req) : List Byte :=
  let b := s.rst.boot
  be 1 b.kind ++ be 1 s.rst.bootsel ++ be 1 b.slot ++ be 1 b.fwResult ++ be 1 b.profSlot ++ be 1 b.profResult ++ be 1 b.cal ++
    zeros 1 ++ be 4 b.toFe ++ be 4 b.toReady ++ be 4 b.packets ++ be 4 b.failPkt ++ be 2 b.failStatus ++ zeros 6

/-- BOOT_STATUS (0x6004). -/
def bootStatusCmd : Cmd := readCmd 0x6004 onDevice 0 bootStatusData

/-- BOOT_STATUS. -/
def execBootStatus (r : Req) (s : State) : Host.Outcome State Fault Refusal := .next (serve bootStatusCmd r s)

/-- WATCHDOG_CONFIG (0x6005). -/
def watchdogConfigCmd : Cmd := confCmd 0x6005 onDevice 4
  (fun _ r => firstFail [inv (p8 r 0 ≤ 1), inv (p8 r 1 ≤ 2), inv (p16 r 2 ≠ 0), rng (within (p16 r 2) 10 10000)])
  fun s r => updDev s fun d => { d with wdOn := p8 r 0 == 1, wdAction := p8 r 1, wdTimeout := p16 r 2 }

/-- WATCHDOG_CONFIG. -/
def execWatchdogConfig (r : Req) (s : State) : Host.Outcome State Fault Refusal := .next (serve watchdogConfigCmd r s)

/-- FIRMWARE_SELECT (0x6006). -/
def firmwareSelectCmd : Cmd where
  op := 0x6006
  target := onDevice
  len := len 4
  check := fun _ r => firstFail [inv (rz r 1 3), inv (within (p8 r 0) 1 3)]
  writes := true
  run := doOk fun s r => { s with rst := { s.rst with sel := if p8 r 0 = 3 then none else some (p8 r 0 - 1) } }

/-- FIRMWARE_SELECT. -/
def execFirmwareSelect (r : Req) (s : State) : Host.Outcome State Fault Refusal := .next (serve firmwareSelectCmd r s)

end Sys2Proof.Machine
end

