-- ==== Sys2Proof/Machine/Pcs.lean ====
section
/-! DEFINITION. The PCS of VS50 between the MAC interface and the VS50 scrambler: 64b/66b coding, rate adaptation, and the
transcoding to 256b/257b, with their inverses (R132 steps 1 to 3, R133, R152, R161). The block formats of IEEE 802.3 Clause 82 and
the transcoder of Clause 91 are cited by R132 and not restated there (PRESUMED, log entry 126). -/

namespace Sys2Proof.Machine

/-! ### Words of the MAC interface -/

/-- A word whose eight lanes hold one control character. -/
def ctlWord (c : Nat) : MiiWord := { ctl := 0xFF, octets := BitVec.ofNat 64 (c * 0x0101010101010101) }

/-- Idle, low-power idle and error in every lane. -/
def idleWord : MiiWord := ctlWord 0x07
/-- Low-power idle in every lane. -/
def lpiWord : MiiWord := ctlWord 0x06
/-- Error in every lane. -/
def errWord : MiiWord := ctlWord 0xFE

/-- Octet of lane `i`. -/
def miiLane (w : MiiWord) (i : Nat) : Nat := (w.octets.toNat / 2 ^ (8 * i)) % 256

/-- The word starts a packet: the start character in lane 0, data in the others. -/
def miiStarts (w : MiiWord) : Bool := w.ctl == 1 && miiLane w 0 == 0xFB

/-- Lane of the terminate character of a word that ends a packet: data before it, control after it. -/
def miiEnds (w : MiiWord) : Option Nat :=
  (List.range 8).find? fun k => w.ctl.toNat == 256 - 2 ^ k && miiLane w k == 0xFD

/-! ### 64b/66b (R132 step 1) -/

/-- Control code of a control character. -/
def ctlCode (c : Nat) : Option Nat := if c = 0x07 then some 0x00 else if c = 0x06 then some 0x06 else if c = 0xFE then some 0x1E else none

/-- Control character of a control code. -/
def codeCtl (n : Nat) : Option Nat := if n = 0x00 then some 0x07 else if n = 0x06 then some 0x06 else if n = 0x1E then some 0xFE else none

/-- Block type of a word whose terminate character stands in lane `k`. -/
def termType (k : Nat) : Nat := [0x87, 0x99, 0xAA, 0xB4, 0xCC, 0xD2, 0xE1, 0xFF].getD k 0

/-- A 64b/66b block: its control header, and its 64 payload bits with the first sent bit least significant. -/
abbrev Blk66 := Bool × Nat

/-- The block of eight error control codes. -/
def errBlk : Blk66 := (true, 0x1E + (List.range 8).foldl (fun a i => a + 0x1E * 2 ^ (8 + 7 * i)) 0)

/-- Control codes of the lanes from `k` on, at their places in the payload; none when a lane holds another character. -/
def laneCodes (w : MiiWord) (k : Nat) : Option Nat :=
  ((List.range 8).drop k).foldl (fun a i => a.bind fun v => (ctlCode (miiLane w i)).map fun c => v + c * 2 ^ (8 + 7 * i)) (some 0)

/-- Code a word: data, start, ordered set, terminate or control; any other word becomes an error block. -/
def encBlk (w : MiiWord) : Blk66 :=
  if w.ctl = 0 then (false, w.octets.toNat)
  else if miiStarts w then (true, w.octets.toNat - 0xFB + 0x78)
  else if w.ctl = 1 ∧ miiLane w 0 = 0x9C then (true, 0x4B + w.octets.toNat % 2 ^ 32 / 256 * 256)
  else match miiEnds w with
    | some k => match laneCodes w (k + 1) with
      | some v => (true, termType k + w.octets.toNat % 2 ^ (8 * k) * 256 + v)
      | none => errBlk
    | none => if w.ctl = 0xFF then (match laneCodes w 0 with | some v => (true, 0x1E + v) | none => errBlk) else errBlk

/-- The word with the given octets, lane 0 first. -/
def wordOf (ctl : Nat) (ls : List Nat) : MiiWord :=
  { ctl := BitVec.ofNat 8 ctl, octets := BitVec.ofNat 64 (ls.reverse.foldl (fun a b => 256 * a + b) 0) }

/-- Control characters of the lanes from `k` on; none when a code is not one of Clause 82's. -/
def codeLanes (v k : Nat) : Option (List Nat) :=
  ((List.range 8).drop k).foldr (fun i a => a.bind fun l => (codeCtl (v / 2 ^ (8 + 7 * i) % 128)).map (· :: l)) (some [])

/-- Decode a block; an invalid one becomes errors. -/
def decBlk (b : Blk66) : MiiWord :=
  let v := b.2
  let t := v % 256
  let oct := fun (i : Nat) => v / 2 ^ (8 * i) % 256
  if !b.1 then { ctl := 0, octets := BitVec.ofNat 64 v }
  else if t = 0x78 then wordOf 1 (0xFB :: (List.range 7).map fun i => oct (i + 1))
  else if t = 0x4B then wordOf 1 ([0x9C, oct 1, oct 2, oct 3] ++ [0, 0, 0, 0])
  else if t = 0x1E then (match codeLanes v 0 with | some l => wordOf 0xFF l | none => errWord)
  else match (List.range 8).find? fun k => termType k == t with
    | some k => match codeLanes v (k + 1) with
      | some l => wordOf (256 - 2 ^ k) ((List.range k).map (fun i => oct (i + 1)) ++ 0xFD :: l)
      | none => errWord
    | none => errWord

/-! ### 256b/257b (R132 step 3) -/

/-- The low `n` bits of `v`, least significant first. -/
def lsbBits (n v : Nat) : List Bool := (List.range n).map v.testBit

/-- The number of bits given least significant first. -/
def ofLsb (bs : List Bool) : Nat := bs.reverse.foldl (fun a b => 2 * a + b2n b) 0

/-- The first five bits, each combined with the bit eight places on. -/
def headMask (bs : List Bool) : List Bool := List.zipWith (· != ·) (bs.take 5) ((bs.drop 8).take 5) ++ bs.drop 5

/-- Transcode four blocks into the 257 bits of one, the first sent bit first. -/
def trans257 (bs : List Blk66) : List Bool :=
  let pay := bs.flatMap fun b => lsbBits 64 b.2
  match (List.range 4).find? fun j => (bs.getD j errBlk).1 with
  | none => headMask (true :: pay)
  | some c => headMask (false :: bs.map (fun b => !b.1) ++ pay.take (64 * c + 4) ++ pay.drop (64 * c + 8))

/-- The second nibble of the block type whose first sent nibble is `n`. -/
def typeHigh (n : Nat) : Option Nat :=
  (([0x1E, 0x78, 0x4B] ++ (List.range 8).map termType).find? fun t => t % 16 == n).map (· / 16)

/-- The four blocks of 257 bits; an impossible header or block type gives error blocks. -/
def untrans257 (ws : List Bool) : List Blk66 :=
  let bs := headMask ws
  let four := fun (f : Nat → Bool) (pay : List Bool) => (List.range 4).map fun j => (f j, ofLsb ((pay.drop (64 * j)).take 64))
  if bs.headD false then four (fun _ => false) (bs.drop 1)
  else
    let ctl := fun (j : Nat) => !bs.getD (j + 1) false
    let body := bs.drop 5
    match (List.range 4).find? ctl with
    | none => List.replicate 4 errBlk
    | some c => match typeHigh (ofLsb ((body.drop (64 * c)).take 4)) with
      | some h => four ctl (body.take (64 * c + 4) ++ lsbBits 4 h ++ body.drop (64 * c + 4))
      | none => List.replicate 4 errBlk

/-- Lists of four, `n` of them. -/
def fours : Nat → List Blk66 → List (List Blk66)
  | 0, _ => []
  | n + 1, l => l.take 4 :: fours n (l.drop 4)

/-- The 10,280 block bits of a frame's 160 words (R133). -/
def pcsBits (ws : List MiiWord) : List Bool := (fours 40 (ws.map encBlk)).flatMap trans257

/-- The 160 words of a frame's block bits. -/
def pcsWords : Nat → List Bool → List MiiWord
  | 0, _ => []
  | n + 1, bs => (untrans257 (bs.take 257)).map decBlk ++ pcsWords n (bs.drop 257)

/-! ### Rate adaptation (R133) -/

/-- The packet that begins `ws` is whole in it. -/
def packetWhole (ws : List MiiWord) : Bool := ws.any fun w => (miiEnds w).isSome

/-- Take `n` words from the queue: between packets, where the queue is empty or the next packet is not yet whole in it, `fill` is
inserted (log entry 126). -/
def takeWords (fill : MiiWord) : Nat → List MiiWord → List MiiWord × List MiiWord
  | 0, q => ([], q)
  | n + 1, [] => let r := takeWords fill n []; (fill :: r.1, r.2)
  | n + 1, w :: q =>
    if miiStarts w && !packetWhole q then let r := takeWords fill n (w :: q); (fill :: r.1, r.2)
    else let r := takeWords fill n q; (w :: r.1, r.2)

/-! ### Packets in the received words (R152) -/

/-- Where the receiver stands: within a packet, that one hit by an error, and the outcomes of the packets that have ended, oldest
first. -/
structure RxWalk where
  inside : Bool
  bad : Bool
  ended : List Bool
  deriving DecidableEq, Repr

/-- One received word: an error within a packet, or an end that no start preceded, makes its packet bad; a start within a packet
ends that one early. -/
def walkWord (t : RxWalk) (w : MiiWord) : RxWalk :=
  if miiStarts w then { inside := true, bad := false, ended := if t.inside then t.ended ++ [true] else t.ended }
  else if (miiEnds w).isSome then { inside := false, bad := false, ended := t.ended ++ [t.bad || !t.inside] }
  else if w.ctl = 0 then t
  else { t with bad := t.bad || t.inside }

end Sys2Proof.Machine
end

