-- ==== Sys2Proof/Machine/Power.lean ====
section
/-! DEFINITION. Power states: low-power idle of the standard modes, Slack with its handshake and wakes, and the device power
modes (R336 to R365, opcodes 0x16xx). -/

namespace Sys2Proof.Machine

/-! ### Low-power idle (R336 to R338) -/

/-- Port `p` may use low-power idle in its present mode (R336). -/
def lpiUsable (s : State) (p : Nat) : Bool :=
  let x := s.port p
  if x.resMode = 9 then x.vs.lpiNeg && (s.pcfg p).vs.lpi == 1
  else 5 ≤ x.resMode && x.resMode ≤ 8 && x.power.eee && (s.pcfg p).power.flags.testBit 0

/-- No frame of port `p` is eligible for transmission and none is in transmission, a Slack frame that waits included; no gate opens
within the wake time (R337, R338; log entry 140). -/
def txIdle (s : State) (p : Nat) : Bool :=
  (s.egr p).mac.isNone && (s.egr p).held.isNone && !txWanted s p &&
    (s.port p).power.handshake == 0 && (s.port p).power.refuse.isNone

/-- LPI_ASSERT: the entry delay has passed without an eligible frame. In modes 0x05 to 0x08 the transmit direction enters its
clause's low-power idle; VS50 follows R161. -/
def execLpiAssert (p : PortId) (s : State) : Host.Outcome State Fault Refusal :=
  .next (
    let x := s.port p.val
    if portLive s p.val ∧ lpiUsable s p.val ∧ txIdle s p.val then
      let s1 := s.updPort p.val fun x => { x with power := { x.power with macLpi := true } }
      if x.resMode = 9 then s1 else setLpi s1 p.val true x.power.lpiRx
    else s)

/-! ### The Slack handshake (R340 to R346) -/

/-- A Slack frame of port `p`: subtype 1 request, 2 accept, 3 refuse (R342). -/
def slackBytes (p sub token : Nat) : List Byte :=
  let id := linkIdent p
  withFcs (be 6 slackGroup ++ be 6 (setBit (clrBit id 40) 41) ++ be 2 0x88B6 ++ be 1 sub ++ be 1 1 ++ be 2 token ++ be 6 id ++ zeros 36)

/-- One Slack frame is sent by the port's MAC (R342). -/
def slackTx (s : State) (p sub token : Nat) : State :=
  ((s.updEgr p fun x => { x with out := some (slackBytes p sub token), outStamp := some (s.now, s.timeValid) }).bump 0x1010 p 8).bumpBy
    0x1010 p 9 64

/-- Change the power record of a port. -/
def updPw (s : State) (p : Nat) (f : Power → Power) : State := s.updPort p fun x => { x with power := f x.power }

/-- The transmit direction of a port is in low-power idle, so that no frame can leave. -/
def txAsleep (s : State) (p : Nat) : Bool := (s.port p).power.lpiTx || ((s.port p).resMode == 9 && (s.port p).vs.txLpi != 0)

/-- A refusal that waits for the MAC is sent (R345). -/
def slackRefuse (s : State) (p : Nat) : State :=
  match (s.port p).power.refuse with
  | some t => slackTx (updPw s p fun x => { x with refuse := none }) p 3 t
  | none => s

/-- The MAC of a port has ended what it had in transmission, and the transmit direction is awake: a refusal, a Slack request, an
accept, or a multidrop port's sleep that waited for it goes on (R340, R344, R345). -/
def slackGo (s : State) (p : Nat) : State :=
  let w := (s.port p).power
  if (s.egr p).mac.isSome ∨ (s.egr p).held.isSome ∨ txAsleep s p then s
  else
    let s1 := slackRefuse s p
    if w.handshake = 0 ∨ w.sent ≠ 0 then s1
    else if w.handshake = 1 then
      if (s.port p).resMode = 2 then enterSlack s1 p w.cause
      else
        let token := (Config.slackToken s1.freeCtr).toNat % 65535 + 1
        slackTx ((updPw s1.draw p fun x => { x with token, sent := 1 }).bump 0x1610 p 1) p 1 token
    else slackTx ((updPw s1 p fun x => { x with sent := 1 }).bump 0x1610 p 3) p 2 w.token

/-- A Slack frame is due: the MAC deasserts low-power idle, and it goes as soon as it can (R337, R344). -/
def slackDue (s : State) (p : Nat) (f : Power → Power) : State := slackGo (updPw (macWake s p) p f) p

/-- A request to enter Slack reaches a port: 1 by `PORT_SLACK`, 3 by Parked entry (table of R340). -/
def slackRequest (s : State) (p cause : Nat) : State :=
  match (s.port p).st with
  | .up | .lpi =>
    if (s.port p).power.handshake ≠ 0 then s
    else slackDue s p fun x => { x with handshake := 1, sent := 0, cause }
  | .down | .negotiating | .training => enterSlack s p cause
  | .slack => slackJobDone s p
  | _ => slackRefused s p 3

/-- A request: an own one that has been sent takes it as an accept; otherwise it is accepted or refused (R345, table of R346). An own
request not yet sent is not outstanding: an accept takes its place, and after a refusal it goes on (DEDUCED, log entry 140). -/
def slackRequestIn (s : State) (p token : Nat) : State :=
  let w := (s.port p).power
  if w.handshake = 1 ∧ w.sent ≠ 0 then enterSlack s p w.cause
  else if w.handshake = 2 then
    if w.sent = 0 then s else slackTx ((updPw s p fun x => { x with token }).bump 0x1610 p 3) p 2 token
  else if (s.pcfg p).power.flags.testBit 1 then slackDue s p fun x => { x with handshake := 2, sent := 0, token, cause := 2 }
  else slackDue s p fun x => { x with refuse := some token }

/-- An accept: it answers the request that carries its token (R344). -/
def slackAcceptIn (s : State) (p token : Nat) : State :=
  let w := (s.port p).power
  if w.handshake = 1 ∧ w.sent ≠ 0 ∧ w.token = token then enterSlack s p w.cause else s

/-- A refuse: the port stays at Up and raises `SLACK_REFUSED` with cause 2 (R344). -/
def slackRefuseIn (s : State) (p token : Nat) : State :=
  let w := (s.port p).power
  if w.handshake = 1 ∧ w.sent ≠ 0 ∧ w.token = token then slackRefused s p 2 else s

/-- A Slack frame of a known subtype and version 1 takes its effect; other subtypes are ignored (R342, R344, R345). -/
def slackIn (s : State) (p sub token : Nat) : State :=
  match sub with
  | 1 => slackRequestIn s p token
  | 2 => slackAcceptIn s p token
  | 3 => slackRefuseIn s p token
  | _ => s

/-- A Slack frame reaches the MAC of a live port whose mode has a handshake: it is counted, and takes its effect (R342). -/
def slackRx (s : State) (p sub token : Nat) : State :=
  if portLive s p ∧ (s.port p).resMode ≠ 2 then slackIn ((s.bump 0x1010 p 0).bumpBy 0x1010 p 1 64) p sub token else s

/-- SLACK_REQUEST_RX. -/
def execSlackRequestRx (p : PortId) (token : BitVec 16) (s : State) : Host.Outcome State Fault Refusal :=
  .next (slackRx s p.val 1 token.toNat)

/-- SLACK_ACCEPT_RX. -/
def execSlackAcceptRx (p : PortId) (token : BitVec 16) (s : State) : Host.Outcome State Fault Refusal :=
  .next (slackRx s p.val 2 token.toNat)

/-- SLACK_REFUSE_RX. -/
def execSlackRefuseRx (p : PortId) (token : BitVec 16) (s : State) : Host.Outcome State Fault Refusal :=
  .next (slackRx s p.val 3 token.toNat)

/-- SLACK_REQUEST_RESEND: 1.0 ms without an answer, at most 10 requests in all (R344). -/
def execSlackRequestResend (p : PortId) (s : State) : Host.Outcome State Fault Refusal :=
  .next (
    let w := (s.port p.val).power
    if w.handshake ≠ 1 ∨ w.sent = 0 then s
    else if w.sent < 10 then
      slackTx ((updPw s p.val fun x => { x with sent := x.sent + 1 }).bump 0x1610 p.val 1) p.val 1 w.token
    else slackRefused s p.val 1)

/-- SLACK_ACCEPT_SILENCE: 100 µs after the accept the driver is silent and the port enters Slack (R345). -/
def execSlackAcceptSilence (p : PortId) (s : State) : Host.Outcome State Fault Refusal :=
  .next (
    let w := (s.port p.val).power
    if w.handshake = 2 ∧ w.sent ≠ 0 then enterSlack s p.val 2 else s)

/-! ### Waking (R347 to R351, R360) -/

/-- LINE_WAKE: a signal, or energy, of `mv` mV peak-to-peak has stood for as long as R348 asks. Above the port's wake threshold it is
the wake, the drive of `WAKE_N`, and the exit from Parked (R347, R348, R357, R360). -/
def execLineWake (p : PortId) (mv : Nat) (s : State) : Host.Outcome State Fault Refusal :=
  .next (
    let w := (s.port p.val).power
    if (s.port p.val).st ≠ .slack ∨ w.waking ≠ 0 ∨ w.held.isSome ∨ mv ≤ (s.pcfg p.val).power.wakeMv then s
    else
      let f := s.cfg.dev.wakeFlags
      let s1 := wakePort s p.val 1
      let s2 := if f.testBit 1 ∨ (f.testBit 0 ∧ s.power.mode = 3) then
        { s1 with elec := { s1.elec with wakeDriven := true } } else s1
      if f.testBit 3 then unparkBegin s2 3 p.val else s2)

/-- LINE_WAKE_QUIET: the received signal has not passed `mv` mV for 100 µs; it has been below the threshold (R349). -/
def execLineWakeQuiet (p : PortId) (mv : Nat) (s : State) : Host.Outcome State Fault Refusal :=
  .next (if (s.port p.val).st = .slack ∧ (s.port p.val).power.waking = 2 ∧ mv < (s.pcfg p.val).power.wakeMv then startNow s p.val
    else s)

/-- WAKE_BURST_END: the wake burst ends and start-up begins (R349). -/
def execWakeBurstEnd (p : PortId) (s : State) : Host.Outcome State Fault Refusal :=
  .next (if (s.port p.val).st = .slack ∧ (s.port p.val).power.waking = 1 then startNow s p.val else s)

/-- A low level of `ns` on `WAKE_N` is accepted: always from 10 µs on, never below 1 µs (R360). -/
def wakeAccepted (s : State) (ns : Nat) : Bool := 10000 ≤ ns || (1000 ≤ ns && Config.wakePulse s.freeCtr)

/-- WAKE_N_ASSERT: a low level of `ns`; ignored while the device drives the pin, and for 10 µs after it has released it (R347, R357,
R360). -/
def execWakeNAssert (ns : Nat) (s : State) : Host.Outcome State Fault Refusal :=
  .next (
    if s.elec.wakeDriven ∨ s.now < s.elec.wakeFrom then s
    else if !wakeAccepted s ns then (if 1000 ≤ ns then s.draw else s)
    else
      let s1 := eachN (if ns < 10000 then s.draw else s) (List.range 128) fun s p => if (s.pcfg p).power.flags.testBit 2 then wakePort s p 3 else s
      if s.cfg.dev.wakeFlags.testBit 2 then unparkBegin s1 2 0xFF else s1)

/-- WAKE_N_PULSE_END: the pin is released (R360). -/
def execWakeNPulseEnd (s : State) : Host.Outcome State Fault Refusal :=
  .next { s with elec := { s.elec with
    wakeDriven := false, wakeFrom := if s.elec.wakeDriven then s.now + 40000 else s.elec.wakeFrom } }

/-! ### Device power modes (R352 to R363) -/

/-- The request asks for the present mode and ceiling (R363). -/
def samePower (s : State) (mode ceil : Nat) : Bool := s.power.mode == mode && (mode != 2 || s.power.ceiling == ceil)

/-- DEVICE_POWER_SET (0x1604): Parked is refused while a lane is neither in Ebb nor quiet, or under `SAFE_STATE` (R355). -/
def devicePowerSetCheck (s : State) (r : Req) : Option Status :=
  let mode := p8 r 0
  let ceil := p8 r 1
  firstFail [inv (within mode 1 4), inv (if mode = 2 then within ceil 2 3 else ceil == 0), inv (p16 r 2 ≠ 0), inv (rz r 4 4),
    rng (p16 r 2 ≤ 10000),
    (mode ≠ 3 || s.power.mode == 3 || (!s.ctl.safeState &&
      (List.range 64).all fun m => (s.lane m).st == .ebb || (s.lane m).st == .quiet), .notPermitted)]

/-- The request begins: Parked brings every port to Slack; from Parked the device first returns to its earlier mode. -/
def devicePowerSetRun (s : State) (r : Req) : State :=
  let mode := p8 r 0
  let ceil := if mode = 2 then p8 r 1 else if mode = 1 then 1 else s.power.ceiling
  let job : PowerJob := { waiter := waiterOf 0x1604 r, mode, ceiling := ceil }
  let s1 := updPower s fun p => { p with job := some job }
  if samePower s mode ceil then powerJobEnd s1 .ok
  else if s.power.mode = 3 then unparkBegin s1 1 0xFF
  else if mode = 3 then
    eachN (updPower s1 fun p => { p with transition := 2, parkStage := 0, refused := false }) (List.range 128)
      fun s p => slackRequest s p 3
  else powerBegin s job

/-- Any self-test of a slice, engine, cove or quay runs, which Parked would change (R616). -/
def blockTestRuns (s : State) : Bool := s.stest.running.any fun e => e.2.isSome

/-- DEVICE_POWER_SET. -/
def devicePowerSetCmd : Cmd where
  op := 0x1604
  target := onDevice
  len := len 8
  check := devicePowerSetCheck
  writes := true
  take := fun s r _ =>
    if s.power.job.isSome ∨ s.power.transition ≠ 0 then some (.busy, [])
    else if p8 r 0 = 3 ∧ s.power.mode ≠ 3 then
      if 2 ≤ s.epoch.state ∨ !s.modeJobs.isEmpty then some (.busy, [])
      else if blockTestRuns s then some (.busySelftest, be 4 (Config.testRemaining s.freeCtr).toNat)
      else none
    else none
  run := doAccepted devicePowerSetRun

/-- DEVICE_POWER_SET. -/
def execDevicePowerSet (r : Req) (s : State) : Host.Outcome State Fault Refusal := .next (serve devicePowerSetCmd r s)

/-- PARKED_HANDSHAKE_END: entry stops when a port is still live, a handshake was refused or a slice cannot be gated; else the
slices and the Tide Table drain (R355 steps 2 and 3, R28). -/
def execParkedHandshakeEnd (s : State) : Host.Outcome State Fault Refusal :=
  .next (
    if s.power.transition ≠ 2 ∨ s.power.parkStage ≠ 0 then s
    else if s.power.refused || (List.range 128).any (fun p => portLive s p || (s.port p).power.handshake != 0) ||
        !(List.range 4).all (sliceIdle s) then
      powerJobEnd (updPower s fun p => { p with transition := 0, refused := false }) .notPermitted
    else
      let s1 := eachN s (List.range 4) fun s i => s.updSlice i fun x => { x with stopped := true }
      updPower s1 fun p => { p with parkStage := 1 })

/-- DEVICE_POWER_TIMEOUT: the load has not let the point fit the ceiling in time (R354). -/
def execDevicePowerTimeout (s : State) : Host.Outcome State Fault Refusal :=
  .next (if s.power.transition = 1 then powerJobEnd s .range else s)

/-- Result of DEVICE_POWER_STATUS. -/
def devicePowerStatusData (s : State) (_ : Req) : List Byte :=
  let p := s.power
  let ports := fun (f : Port → Bool) => ((List.range 128).filter fun q => f (s.port q)).length
  be 1 p.mode ++ be 1 p.ceiling ++ be 1 s.clk.point ++ be 1 p.transition ++ be 1 (bits s.clk.gated 28 24) ++
    be 1 (ports (·.st == .slack)) ++ be 1 (ports (·.st == .lpi)) ++
    be 1 ((List.range 64).filter fun m => (s.lane m).st == .ebb).length ++ be 4 (sat 32 (s.secsSince p.since)) ++
    be 4 p.parked ++ be 1 p.lastExit ++ be 1 p.lastPort ++ zeros 14

/-- DEVICE_POWER_STATUS (0x1605). -/
def devicePowerStatusCmd : Cmd := readCmd 0x1605 onDevice 0 devicePowerStatusData

/-- DEVICE_POWER_STATUS. -/
def execDevicePowerStatus (r : Req) (s : State) : Host.Outcome State Fault Refusal := .next (serve devicePowerStatusCmd r s)

/-- WAKE_CONFIG (0x1606). -/
def wakeConfigCmd : Cmd := confCmd 0x1606 onDevice 8
  (fun _ r => firstFail [inv (p8 r 0 < 16), inv (rz r 1 1), inv (p16 r 2 ≠ 0), inv (rz r 4 4), rng (p16 r 2 ≤ 100)])
  fun s r => { s with cfg := { s.cfg with dev := { s.cfg.dev with wakeFlags := p8 r 0, wakePulse := p16 r 2 } } }

/-- WAKE_CONFIG. -/
def execWakeConfig (r : Req) (s : State) : Host.Outcome State Fault Refusal := .next (serve wakeConfigCmd r s)

/-! ### Port power commands -/

/-- A port's new power record applies: low-power idle that it no longer allows ends (R336, R361). -/
def applyPower (s : State) (p : Nat) (c : PowerCfg) : State :=
  let s1 := s.updPcfg p fun x => { x with power := c }
  if (s.port p).power.macLpi ∧ !lpiUsable s1 p then macWake s1 p else s1

/-- PORT_POWER_CONFIG (0x1601). -/
def portPowerConfigCmd : Cmd := confCmd 0x1601 onPort 8
  (fun _ r => firstFail [inv (p8 r 0 < 32), inv (rz r 1 1), inv (p16 r 2 ≠ 0), inv (p16 r 4 ≠ 0), inv (rz r 6 2),
    rng (p16 r 2 ≤ 10000), rng (within (p16 r 4) 50 400)])
  fun s r => applyPower s (ti r) { flags := p8 r 0, delay := p16 r 2, wakeMv := p16 r 4 }

/-- PORT_POWER_CONFIG. -/
def execPortPowerConfig (r : Req) (s : State) : Host.Outcome State Fault Refusal := .next (serve portPowerConfigCmd r s)

/-- The effect of PORT_SLACK on the ports of its mask (R362). -/
def portSlackRun (s : State) (r : Req) : State × Option (Status × List Byte) :=
  let ps := portMask r 4
  let enter : Bool := p8 r 0 == 1
  let left := ps.filter fun p => ((s.port p).st == .slack) != enter
  let w := waiterOf 0x1602 r
  if ps.isEmpty then (s, some (.ok, []))
  else if left.isEmpty then (closeWaiter s w 0 .ok, some (.accepted, []))
  else
    let s1 := updPower s fun p => { p with slackJobs := p.slackJobs ++ [{ waiter := w, left }] }
    (eachN s1 left fun s p => if enter then slackRequest s p 1 else wakePort s p 2, some (.accepted, []))

/-- PORT_SLACK (0x1602): it reports an outcome per port (R672). -/
def portSlackCmd : Cmd where
  op := 0x1602
  target := onDevice
  len := len 20
  check := fun _ r => firstFail [inv (within (p8 r 0) 1 2), inv (rz r 1 3)]
  writes := true
  inTest := true
  names := fun _ r => (portMask r 4).map portT
  run := portSlackRun

/-- PORT_SLACK. -/
def execPortSlack (r : Req) (s : State) : Host.Outcome State Fault Refusal := .next (serve portSlackCmd r s)

/-- Result of PORT_POWER_STATUS. -/
def portPowerStatusData (s : State) (r : Req) : List Byte :=
  let x := s.port (ti r)
  let w := x.power
  let slack : Bool := x.st == .slack
  be 1 x.st.code ++ be 1 (b2n w.lpiTx + 2 * b2n w.lpiRx) ++ be 1 (if slack then w.cause else 0) ++
    be 1 (if w.sent = 0 then 0 else w.handshake) ++
    be 4 (if slack then sat 32 (s.secsSince w.since) else 0) ++ be 1 w.lastRefusal ++ be 1 w.lastWake ++ zeros 6

/-- PORT_POWER_STATUS (0x1603). -/
def portPowerStatusCmd : Cmd := readCmd 0x1603 onPort 0 portPowerStatusData

/-- PORT_POWER_STATUS. -/
def execPortPowerStatus (r : Req) (s : State) : Host.Outcome State Fault Refusal := .next (serve portPowerStatusCmd r s)

/-- Whole milliseconds of the present stay in low-power idle on transmit and receive, and in Slack (R365). -/
def powerMs (s : State) (p : Nat) : List Nat :=
  let x := s.port p
  [if x.power.lpiTx then msSince s x.power.txSince else 0, if x.power.lpiRx then msSince s x.power.rxSince else 0,
   if x.st = .slack then msSince s x.power.since else 0]

/-- POWER_COUNTERS_READ (0x1610). -/
def powerCountersReadCmd : Cmd := readCmd 0x1610 onPort 0 fun s r =>
  let p := ti r
  s.block 0x1610 (tw r) p 0 ((List.range 10).map fun i =>
    (s.cnt 0x1610 p i + if i < 7 then 0 else (powerMs s p).getD (i - 7) 0) % 2 ^ 64)

/-- POWER_COUNTERS_READ. -/
def execPowerCountersRead (r : Req) (s : State) : Host.Outcome State Fault Refusal := .next (serve powerCountersReadCmd r s)

/-- Clear the power counters of a port: what its present stays have run for is taken out too. -/
def clearPowerCounters (s : State) (p : Nat) : State :=
  let ms := powerMs s p
  let back := fun (s : State) (i : Nat) => s.bumpBy 0x1610 p (7 + i) ((2 ^ 64 - ms.getD i 0) % 2 ^ 64)
  eachN (s.clearCnt 0x1610 p) (List.range 3) back

/-- POWER_COUNTERS_CLEAR (0x1611). -/
def powerCountersClearCmd : Cmd :=
  clearCmd 0x1611 onDevice 16 (fun _ r => (portMask r 0).map portT) fun s r => eachN s (portMask r 0) clearPowerCounters

/-- POWER_COUNTERS_CLEAR. -/
def execPowerCountersClear (r : Req) (s : State) : Host.Outcome State Fault Refusal := .next (serve powerCountersClearCmd r s)

end Sys2Proof.Machine
end

