-- ==== Sys2Proof/Machine/Ports.lean ====
section
/-! DEFINITION. Line ports and their modes: opcodes 0x10xx, cove clock plans, restarts, start-up's beginning, losses of the
link (R91 to R124). -/

namespace Sys2Proof.Machine

/-! ### Cove clock plans (R93, R94) -/

/-- Modes configured or advertised in cove `c`. -/
def coveModes (cfg : Cfg) (c : Nat) : Nat :=
  (portsOf (coveT c)).foldl (fun m p => m ||| modesOf (cfg.ports.get {} p).mode) 0

/-- A cove takes the plan that a configuration needs; a change is counted and reported. -/
def planCove (cfg : Cfg) (s : State) (c : Nat) : State :=
  let full : Bool := coveModes cfg c &&& 0x300 != 0
  let x := s.cove c
  if full = x.full then s
  else
    let s1 := { s with coves := s.coves.set {} c { full, changes := (x.changes + 1) % 2 ^ 32 } }
    raise s1 0x1003 0 (coveT c) (be 1 (1 + b2n x.full) ++ be 1 (1 + b2n full))

/-! ### Mode changes (R109 to R113) -/

/-- A change that restarts the link (R109). -/
def restarting (a b : ModeCfg) : Bool := a.mode != b.mode || a.neg != b.neg || a.role != b.role || a.adv != b.adv

/-- What a restarting change ends beside the link: failures and exclusions (R240, R242), an eye to the anchor (R207). -/
def endDownshift (s : State) (p : Nat) : State :=
  s.updPort p fun x => { x with
    start := { x.start with fails := 0, excluded := 0, floorRaised := false }, dsp := { x.dsp with anchor := none } }

/-- Port `p` takes a configuration at its commit boundary (R104, R110, R111). -/
def applyMode (s : State) (p : Nat) (m : ModeCfg) : State :=
  let old := (s.pcfg p).mode
  let s1 := s.updPcfg p fun x => { x with mode := { m with set := true } }
  if !old.set then leaveQuiet s1 p
  else if !restarting old m then s1
  else
    let s2 := endDownshift s1 p
    match (s.port p).st with
    | .up | .lpi =>
      restartLink (if (s.port p).restart = some true then s2.bump 0x1010 p 17 else s2) p true
    | .down | .negotiating | .training => abandon (s2.bump 0x1010 p 17) p
    | _ => s2.bump 0x1010 p 17

/-- The record of a `PORT_MODE_SET`. -/
def modeOf (r : Req) : ModeCfg :=
  { set := true, mode := p8 r 0, neg := p8 r 1, role := p8 r 2, adv := p16 r 4, maxFrame := p16 r 6, flush := p16 r 8 }

/-- R120. -/
def portModeCheck (_ : State) (r : Req) : Option Status :=
  let m := modeOf r
  let forced : Bool := m.neg == 0
  firstFail [inv (rz r 3 1 && rz r 10 2), inv (m.neg ≤ 1), inv (m.role ≤ 2),
    inv (!forced || within m.mode 1 9),
    inv (!(forced && within m.mode 3 9 && m.role == 0)),
    inv (!(within m.mode 1 2 && m.role != 0)),
    inv (forced || m.mode == 0),
    inv (forced || (m.adv != 0 && m.adv &&& 0xFC05 == 0)),
    inv (!forced || m.adv == 0),
    inv (m.maxFrame ≠ 0 && m.flush ≠ 0),
    rng (within m.maxFrame 1518 10240), rng (m.flush ≤ 10000)]

/-- A port takes a commit at once: its link is not up and no Slack handshake runs (R61, R65, R346). -/
def atBoundary (s : State) (p : Nat) : Bool := !portLive s p || (s.port p).quietHold || s.ctl.safeState

/-- Apply a `PORT_MODE_SET` at port `p`, its cove's plan first (R94). -/
def modeNow (s : State) (p : Nat) (r : Req) : State :=
  let cfg := (s.updPcfg p fun x => { x with mode := modeOf r }).cfg
  applyMode (planCove cfg s (p / 8)) p (modeOf r)

/-- PORT_MODE_SET (0x1001): immediate, it is a commit of its own (R113). -/
def portModeSetCmd : Cmd where
  op := 0x1001
  stageable := true
  target := onPort
  len := len 12
  check := portModeCheck
  writes := true
  take := fun s _ _ => if s.epoch.state = 3 then some (.busy, []) else none
  run := fun s r =>
    let p := ti r
    if staged r then (applyMode s p (modeOf r), some (.ok, []))
    else if atBoundary s p then (closeWaiter (modeNow s p r) (waiterOf 0x1001 r) (tw r) .ok, some (.accepted, []))
    else ({ s with modeJobs := s.modeJobs ++ [{ req := r }] }, some (.accepted, []))

/-- PORT_MODE_SET. -/
def execPortModeSet (r : Req) (s : State) : Host.Outcome State Fault Refusal := .next (serve portModeSetCmd r s)

/-- Result of PORT_MODE_GET. -/
def portModeData (s : State) (r : Req) : List Byte :=
  let p := ti r
  let m := (s.pcfg p).mode
  be 1 m.mode ++ be 1 m.neg ++ be 1 m.role ++ zeros 1 ++ be 2 m.adv ++ be 2 m.maxFrame ++ be 2 m.flush ++ zeros 2 ++
    be 1 (resolvedMode (s.port p)) ++ be 1 (resolvedRole (s.port p)) ++ be 1 (s.port p).st.code ++ be 1 (holdsByte s p)

/-- PORT_MODE_GET (0x1002): a gated cove's port answers, since its holds byte shows the gating (R535). -/
def portModeGetCmd : Cmd := { readCmd 0x1002 onPort 0 portModeData with gate := false }

/-- PORT_MODE_GET. -/
def execPortModeGet (r : Req) (s : State) : Host.Outcome State Fault Refusal := .next (serve portModeGetCmd r s)

/-- Reason of a link-down by the administrative hold: the lower one when a restarting change falls at the same boundary (R124). -/
def adminReason (s : State) (p : Nat) : Nat :=
  match stagedNow s 0x1001 (portT p) with
  | some r => if (s.pcfg p).mode.set ∧ restarting (s.pcfg p).mode (modeOf r) then 3 else 4
  | none => 4

/-- Set or clear the administrative hold of a port (R121, R101). -/
def setAdmin (s : State) (p : Nat) (on : Bool) : State :=
  let s1 := s.updPcfg p fun x => { x with admin := on }
  if on then quietPort s1 p (adminReason s p) else leaveQuiet s1 p

/-- A request whose 16-byte port mask at `off` names port `p` alone. -/
def narrowMask (off : Nat) (r : Req) (p : Nat) : Req := { r with params := patch r.params off (be 16 (2 ^ p)) }

/-- PORT_ADMIN (0x1003). -/
def portAdminCmd : Cmd where
  op := 0x1003
  stageable := true
  target := onDevice
  len := len 20
  check := fun _ r => firstFail [inv (rz r 1 3), inv (within (p8 r 0) 1 2)]
  writes := true
  gate := false
  names := fun _ r => (portMask r 4).map portT
  narrow := fun r b => narrowMask 4 r (tgtNum b)
  run := doOk fun s r => eachN s (portMask r 4) fun s p => setAdmin s p (p8 r 0 == 2)

/-- PORT_ADMIN. -/
def execPortAdmin (r : Req) (s : State) : Host.Outcome State Fault Refusal := .next (serve portAdminCmd r s)

/-- A margin as reported: 0x8000 when there is none. -/
def margin16 (m : Option Int) : List Byte := match m with | some v => beI 2 v | none => be 2 0x8000

/-- One entry of PORT_STATUS_READ. -/
def portStatusEntry (s : State) (p : Nat) : List Byte :=
  be 1 p ++ be 1 (s.port p).st.code ++ be 1 (resolvedMode (s.port p)) ++ be 1 (holdsByte s p) ++
    margin16 (s.port p).health.margin ++ be 2 (sat 16 (s.secsSince (s.port p).since))

/-- PORT_STATUS_READ (0x1005). -/
def portStatusReadCmd : Cmd :=
  { readCmd 0x1005 onDevice 16 (fun s r => ((portMask r 0).map (portStatusEntry s)).flatten) with
    gate := false, names := fun _ r => (portMask r 0).map portT }

/-- PORT_STATUS_READ. -/
def execPortStatusRead (r : Req) (s : State) : Host.Outcome State Fault Refusal := .next (serve portStatusReadCmd r s)

/-- Whole milliseconds of the present stay at Up or LPI. -/
def upMs (s : State) (p : Nat) : Nat := if portLive s p then msSince s (s.port p).liveSince else 0

/-- PORT_COUNTERS_READ (0x1010). -/
def portCountersReadCmd : Cmd := readCmd 0x1010 onPort 0 fun s r =>
  s.block 0x1010 (tw r) (ti r) 0 ((List.range 18).map fun i =>
    (s.cnt 0x1010 (ti r) i + if i = 16 then upMs s (ti r) else 0) % 2 ^ 64)

/-- PORT_COUNTERS_READ. -/
def execPortCountersRead (r : Req) (s : State) : Host.Outcome State Fault Refusal := .next (serve portCountersReadCmd r s)

/-- Clear the counters of a port: what its present stay has run for is taken out too. -/
def clearPortCounters (s : State) (p : Nat) : State :=
  (s.clearCnt 0x1010 p).bumpBy 0x1010 p 16 ((2 ^ 64 - upMs s p) % 2 ^ 64)

/-- PORT_COUNTERS_CLEAR (0x1011). -/
def portCountersClearCmd : Cmd :=
  clearCmd 0x1011 onDevice 16 (fun _ r => (portMask r 0).map portT) fun s r => eachN s (portMask r 0) clearPortCounters

/-- PORT_COUNTERS_CLEAR. -/
def execPortCountersClear (r : Req) (s : State) : Host.Outcome State Fault Refusal := .next (serve portCountersClearCmd r s)

/-- Result of COVE_STATUS. -/
def coveStatusData (s : State) (r : Req) : List Byte :=
  let c := ti r
  let mask := fun (f : Nat → Bool) => maskOf ((List.range 8).filter fun i => f (8 * c + i))
  be 1 (1 + b2n (s.cove c).full) ++ be 1 (mask (portLive s)) ++ be 1 (mask fun p => (s.port p).st == .quiet) ++
    be 1 (highest (coveModes s.cfg c)) ++ be 4 (s.cove c).changes

/-- COVE_STATUS (0x1020). -/
def coveStatusCmd : Cmd := readCmd 0x1020 onCove 0 coveStatusData

/-- COVE_STATUS. -/
def execCoveStatus (r : Req) (s : State) : Host.Outcome State Fault Refusal := .next (serve coveStatusCmd r s)

/-! ### Start-up begins (R108, R110, R238) -/

/-- PORT_STARTUP_BEGIN: a port in state 1 begins start-up, unless a break or a silence runs or its cove's clock fails. -/
def execPortStartupBegin (p : PortId) (s : State) : Host.Outcome State Fault Refusal :=
  .next (
    let x := s.port p.val
    if x.st = .down ∧ !x.breaking ∧ !x.silence ∧ (s.pcfg p.val).mode.set then startNow s p.val else s)

/-- BREAK_INTERVAL_EXPIRY: the break of 4 ms ends and start-up begins in the new configuration (R110). -/
def execBreakIntervalExpiry (p : PortId) (s : State) : Host.Outcome State Fault Refusal :=
  .next (
    if (s.port p.val).st = .down ∧ (s.port p.val).breaking then
      startNow (s.updPort p.val fun x => { x with breaking := false }) p.val
    else s)

/-- STARTUP_RETRY: after 4 ms of silence start-up begins again (R238). -/
def execStartupRetry (p : PortId) (s : State) : Host.Outcome State Fault Refusal :=
  .next (
    if (s.port p.val).st = .down ∧ (s.port p.val).silence then
      startNow (s.updPort p.val fun x => { x with silence := false }) p.val
    else s)

/-! ### Losses of the link (R112, R124, R346) -/

/-- The port has sent an accept, so it ignores what the partner's silence shows (R346). -/
def expectsSilence (s : State) (p : Nat) : Bool := (s.port p).power.handshake == 2 && (s.port p).power.sent != 0

/-- A live port loses its link: a restart at its boundary takes it over with reason 3 and no break (R112). -/
def loseLink (s : State) (p reason : Nat) : State :=
  if !portLive s p ∨ expectsSilence s p then s
  else match (s.port p).restart with
    | some _ => linkDown s p 3 4
    | none => linkDown s p reason 4

/-- LOSS_OF_SIGNAL: reason 1. A segment is silent between frames, so multidrop has none. -/
def execLossOfSignal (p : PortId) (s : State) : Host.Outcome State Fault Refusal :=
  .next (if (s.port p.val).resMode = 2 then s else loseLink s p.val 1)

/-- PCS_LOCK_LOST: a standard mode's lock is lost, or its link-fail condition is met: reason 2. -/
def execPcsLockLost (p : PortId) (s : State) : Host.Outcome State Fault Refusal :=
  .next (if (s.port p.val).resMode = 9 ∨ (s.port p.val).resMode = 2 then s else loseLink s p.val 2)

end Sys2Proof.Machine
end

