-- ==== Sys2Proof/Machine/Vs50.lean ====
section
/-! DEFINITION. VS50: its commands, the OAM channel, low-power idle, and losses of the link (R145, R146, R155 to R170,
opcodes 0x11xx). -/

namespace Sys2Proof.Machine

/-- Change the VS50 record of a port. -/
def updVs (s : State) (p : Nat) (f : Vs50 → Vs50) : State := s.updPort p fun x => { x with vs := f x.vs }

/-- VS50 low-power idle is in use at the transmitter of a port (R161). -/
def lpiInUse (s : State) (p : Nat) : Bool := (s.port p).vs.lpiNeg && (s.pcfg p).vs.lpi == 1

/-- The port holds its partner's link in a far-end loopback (R626). -/
def farEnd (x : Port) : Bool := x.st == .test && x.test.action == 4

/-- The port sends PHY frames of scrambled idle: VS50 test modes 6 and 7 (R630). -/
def idleTest (x : Port) : Bool := x.st == .test && x.test.action == 5 && x.test.mode == 9 && 6 ≤ x.test.testMode

/-- The port is at Up or LPI in VS50. -/
def vs50Live (s : State) (p : Nat) : Bool := portLive s p && (s.port p).resMode == 9

/-! ### Transmit low-power idle (R161, R164) -/

/-- Move the transmit direction to a low-power idle state. -/
def setTxLpi (s : State) (p n : Nat) : State :=
  setLpi (updVs s p fun v => { v with txLpi := n, txCount := 0, lpiFrames := 0 }) p (n != 0) (s.port p).power.lpiRx

/-- LPI_SLEEP_ENTRY: the PCS has carried 2 whole frames of only low-power idle blocks, and low-power idle is in use. -/
def execLpiSleepEntry (p : PortId) (s : State) : Host.Outcome State Fault Refusal :=
  .next (
    let x := s.port p.val
    if vs50Live s p.val ∧ lpiInUse s p.val ∧ 2 ≤ x.vs.lpiFrames ∧ x.vs.txLpi = 0 then
      setTxLpi (s.bump 0x1103 p.val 8) p.val 1
    else s)

/-- LPI_SLEEP_END: 16 sleep frames have been sent. -/
def execLpiSleepEnd (p : PortId) (s : State) : Host.Outcome State Fault Refusal :=
  .next (if vs50Live s p.val ∧ (s.port p.val).vs.txLpi = 1 ∧ 16 ≤ (s.port p.val).vs.txCount then setTxLpi s p.val 2 else s)

/-- LPI_QUIET_END: 512 virtual frames have passed. -/
def execLpiQuietEnd (p : PortId) (s : State) : Host.Outcome State Fault Refusal :=
  .next (if vs50Live s p.val ∧ (s.port p.val).vs.txLpi = 2 ∧ 512 ≤ (s.port p.val).vs.txCount then setTxLpi s p.val 3 else s)

/-- LPI_REFRESH_END: 24 refresh frames have been sent. -/
def execLpiRefreshEnd (p : PortId) (s : State) : Host.Outcome State Fault Refusal :=
  .next (if vs50Live s p.val ∧ (s.port p.val).vs.txLpi = 3 ∧ 24 ≤ (s.port p.val).vs.txCount then setTxLpi s p.val 2 else s)

/-- The transmitter goes to Wake from Sleep, Quiet or Refresh. -/
def wakeTx (s : State) (p : Nat) : State :=
  let n := (s.port p).vs.txLpi
  if n = 1 ∨ n = 2 ∨ n = 3 then setTxLpi (if n = 1 then s.bump 0x1103 p 11 else s) p 4 else s

/-- LPI_WAKE_START: a block that is not idle has reached the PCS, and a frame boundary comes. -/
def execLpiWakeStart (p : PortId) (s : State) : Host.Outcome State Fault Refusal :=
  .next (if vs50Live s p.val ∧ !(s.port p.val).power.macLpi then wakeTx s p.val else s)

/-- LPI_WAKE_END: 24 wake frames have been sent; a Slack frame that has waited for the wake goes (R344). -/
def execLpiWakeEnd (p : PortId) (s : State) : Host.Outcome State Fault Refusal :=
  .next (if vs50Live s p.val ∧ (s.port p.val).vs.txLpi = 4 ∧ 24 ≤ (s.port p.val).vs.txCount then
      slackGo (setTxLpi s p.val 0) p.val
    else s)

/-- REFRESH_MISSED: the window of R162 has passed without a refresh; the second in a row drops the link. The next refresh is
expected after 536 more frame periods (R143). -/
def execRefreshMissed (p : PortId) (s : State) : Host.Outcome State Fault Refusal :=
  .next (
    let v := (s.port p.val).vs
    if vs50Live s p.val ∧ v.rxLpi = 2 ∧ v.rxExpect + 2 < v.rxCount then
      let s1 := s.bump 0x1103 p.val 10
      if v.missed = 0 then updVs s1 p.val fun v => { v with missed := 1, rxExpect := v.rxExpect + 536 }
      else loseLink s1 p.val 2
    else s)

/-- PARTNER_RF_TIMEOUT: 2 ms of valid headers with RF = 1 while this receiver is in Locked (R146). -/
def execPartnerRfTimeout (p : PortId) (s : State) : Host.Outcome State Fault Refusal :=
  .next (if vs50Live s p.val ∧ (s.port p.val).vs.lock = 2 ∧ (s.port p.val).vs.rf then loseLink s p.val 2 else s)

/-! ### OAM transmit (R155 to R159, R168) -/

/-- OAM_STATUS_SEND: a STATUS message is due (table of OAM message types). -/
def execOamStatusSend (p : PortId) (s : State) : Host.Outcome State Fault Refusal :=
  .next (if vs50Live s p.val then updVs s p.val fun v => { v with statusDue := true } else s)

/-- The STATUS message of a port. -/
def statusMsg (s : State) (p : Nat) : OamMsg :=
  { type := 1, handle := none
    payload := padTo 12 (margin16 (s.port p).health.margin ++
      be 1 ((s.pcfg p).vs.lpi + 2 * b2n ((s.pcfg p).vs.flags.testBit 1))) }

/-- Put the next message into the channel when none is under way: STATUS, the reply to an adjustment, an adjustment, then user
messages (R168). -/
def nextOam (s : State) (p : Nat) : State :=
  let v := (s.port p).vs
  let start := fun (m : OamMsg) (f : Vs50 → Vs50) => updVs s p fun v => f { v with oamCur := some m, txTgl := !v.txTgl }
  if v.oamCur.isSome then s
  else if v.statusDue then start (statusMsg s p) fun v => { v with statusDue := false }
  else match v.replyDue, v.adjustDue, v.oamQueue with
    | some (res, tap, n), adj, q =>
      if !v.replyHeld then
        start { type := 3, handle := none, payload := padTo 12 (be 1 res ++ be 1 tap ++ be 1 n) }
          fun v => { v with replyDue := none }
      else match adj, q with
        | some (tap, st), _ =>
          start { type := 2, handle := none, payload := padTo 12 (be 1 tap ++ be 1 st) }
            fun v => { v with adjustDue := none, adjustOut := some (tap, st) }
        | none, m :: rest => start m fun v => { v with oamQueue := rest }
        | none, [] => s
    | none, some (tap, st), _ =>
      start { type := 2, handle := none, payload := padTo 12 (be 1 tap ++ be 1 st) }
        fun v => { v with adjustDue := none, adjustOut := some (tap, st) }
    | none, none, m :: rest => start m fun v => { v with oamQueue := rest }
    | none, none, [] => s

/-- The word of the message under way, or of type 0x00, with TGL and ACK (R157, R158). The TGL of a word of type 0x00, which is no
message and of which the spec does not speak, is that of the last message (DESIGN CHOICE, log entry 127). -/
def oamWordOf (v : Vs50) : List Byte :=
  let m := v.oamCur.getD { type := 0, payload := zeros 12, handle := none }
  let b := be 1 m.type ++ be 1 (128 * b2n v.txTgl + 64 * b2n v.rxTgl) ++ padTo 12 m.payload
  b ++ be 2 (crc16 b)

/-- The OAM bits of a frame with count `fcnt`: `carries` when its kind carries OAM, `starts` when a word may start in it. A word of
which a frame carries no OAM, and the data frames of phase 0x08, are zeros and NULL words (DESIGN CHOICE, log entry 128). -/
def oamField (s : State) (p fcnt : Nat) (carries starts : Bool) : State × Nat :=
  let k := fcnt % 8
  if !carries then (updVs s p fun v => { v with oamTx := none }, 0)
  else if k = 0 then
    if starts then
      let s1 := nextOam s p
      let w := oamWordOf (s1.port p).vs
      (updVs s1 p fun v => { v with oamTx := some w }, fld w 0 2)
    else (updVs s p fun v => { v with oamTx := none }, 0)
  else (s, match (s.port p).vs.oamTx with | some w => fld w (2 * k) 2 | none => 0)

/-! ### OAM receive (R156 to R159, R169) -/

/-- The partner's request to move a transmit tap (R159): 2 refused, 1 at limit, else it waits for BF (R147). A tap or step of
another value is refused. -/
def oamAdjust (s : State) (p tap st : Nat) : State :=
  let v := (s.port p).vs
  let pre := (v.newTx.map (·.2.1)).getD v.pre
  let post := (v.newTx.map (·.2.2)).getD v.post
  let cur := if tap = 0 then pre else post
  let top := if tap = 0 then 6 else 12
  if !(s.pcfg p).vs.flags.testBit 1 ∨ 1 < tap ∨ (st ≠ 1 ∧ st ≠ 0xFF) then
    updVs s p fun v => { v with replyDue := some (2, tap, cur), replyHeld := false }
  else if (st = 1 ∧ top ≤ cur) ∨ (st = 0xFF ∧ cur = 0) then
    updVs s p fun v => { v with replyDue := some (1, tap, cur), replyHeld := false }
  else
    let n := if st = 1 then cur + 1 else cur - 1
    let amp := (v.newTx.map (·.1)).getD v.amp
    updVs s p fun v => { v with
      newTx := some (if tap = 0 then (amp, n, post) else (amp, pre, n)), replyDue := some (0, tap, n), replyHeld := true }

/-- Rule of R210 that a tap and step belong to. -/
def ruleOf (tap st : Nat) : Nat := 2 * tap + (if st = 1 then 0 else 1)

/-- The partner's answer: its step index, and no further request of that kind after a refusal (R210). -/
def oamReply (s : State) (p res tap n : Nat) : State :=
  let out := (s.port p).vs.adjustOut
  let s1 := updVs s p fun v => { v with adjustOut := none }
  s1.updPort p fun x => { x with dsp := { x.dsp with
    repPre := if tap = 0 then some n else x.dsp.repPre
    repPost := if tap = 1 then some n else x.dsp.repPost
    adjustFrom := s.now + 400000000
    suppressed := match out with
      | some (t, st) => if res = 0 then x.dsp.suppressed else setBit x.dsp.suppressed (ruleOf t st)
      | none => x.dsp.suppressed } }

/-- A user message is queued for the host, or discarded when 16 wait (R169). -/
def oamUser (s : State) (p type : Nat) (payload : List Byte) : State :=
  let n := (s.port p).vs.oamRxQueue.length
  if 16 ≤ n then s.bump 0x1103 p 7
  else
    let s1 := updVs s p fun v => { v with oamRxQueue := v.oamRxQueue ++ [{ type, tidemark := s.tidemark, payload }] }
    raise s1 0x1101 0 (portT p) (be 1 type ++ be 1 (n + 1))

/-- A message is accepted (R158). -/
def oamAccept (s : State) (p type : Nat) (payload : List Byte) : State :=
  let s1 := s.bump 0x1103 p 4
  if type = 1 then updVs s1 p fun v => { v with
    partnerMargin := some (signed 16 (fld payload 0 2)), partnerFlags := byteAt payload 2 }
  else if type = 2 then oamAdjust s1 p (byteAt payload 0) (byteAt payload 1)
  else if type = 3 then oamReply s1 p (byteAt payload 0) (byteAt payload 1) (byteAt payload 2)
  else if 0x10 ≤ type ∧ type ≤ 0x7F then oamUser s1 p type payload
  else s1.bump 0x1103 p 6

/-- The partner has acknowledged the message under way (R157, event 0x1102). -/
def oamAcked (s : State) (p : Nat) : State :=
  let s1 := updVs s p fun v => { v with oamCur := none }
  match (s.port p).vs.oamCur.bind (·.handle) with
  | some h => raise s1 0x1102 0 (portT p) (be 1 h ++ be 1 0)
  | none => s1

/-- OAM_WORD_RX: a complete word is checked and taken (R156 to R158). -/
def execOamWordRx (p : PortId) (s : State) : Host.Outcome State Fault Refusal :=
  .next (match (s.port p.val).vs.oamWord with
    | none => s
    | some (w, lost) =>
      let s1 := updVs s p.val fun v => { v with oamWord := none }
      if lost ∨ fld w 14 2 ≠ crc16 (w.take 14) then s1.bump 0x1103 p.val 5
      else
        let c := byteAt w 1
        let v := (s.port p.val).vs
        let s2 := if v.oamCur.isSome ∧ c.testBit 6 = v.txTgl then oamAcked s1 p.val else s1
        if byteAt w 0 ≠ 0 ∧ c.testBit 7 ≠ v.rxTgl then
          oamAccept (updVs s2 p.val fun v => { v with rxTgl := !v.rxTgl }) p.val (byteAt w 0) ((w.drop 2).take 12)
        else s2)

/-! ### Opcodes 0x11xx -/

/-- A port's new VS50 record applies: a port that disables low-power idle while in it wakes at once; a new amplitude goes out
with BF at the next frame boundary (R167). -/
def applyVs50 (s : State) (p : Nat) (c : Vs50Cfg) : State :=
  let s1 := s.updPcfg p fun x => { x with vs := c }
  if vs50Live s p ∧ c.lpi = 0 then
    wakeTx (s1.updPort p fun x => { x with power := { x.power with macLpi := false } }) p
  else s1

/-- VS50_CONFIG (0x1101). -/
def vs50ConfigCmd : Cmd := confCmd 0x1101 onPort 8
  (fun _ r => firstFail [inv (p8 r 0 ≤ 1), inv (p8 r 1 ≤ 3), inv (p8 r 2 < 8), inv (rz r 3 1), inv (rz r 6 2),
    rng (withinI (i16 r 4) (-100) 200)])
  fun s r => applyVs50 s (ti r) { lpi := p8 r 0, amp := p8 r 1, flags := p8 r 2, degrade := i16 r 4 }

/-- VS50_CONFIG. -/
def execVs50Config (r : Req) (s : State) : Host.Outcome State Fault Refusal := .next (serve vs50ConfigCmd r s)

/-- The port's resolved mode is VS50 (R165). -/
def vs50Mode (s : State) (r : Req) : Bool := resolvedMode (s.port (ti r)) == 9

/-- User messages in the send queue's 8 places: the one being sent keeps its place until it is acknowledged, which R168 leaves open
(DESIGN CHOICE, log entry 129). -/
def oamUsed (v : Vs50) : Nat := v.oamQueue.length + b2n ((v.oamCur.bind (·.handle)).isSome)

/-- Result of VS50_STATUS. -/
def vs50StatusData (s : State) (r : Req) : List Byte :=
  let p := ti r
  let x := s.port p
  let v := x.vs
  be 1 v.lock ++ be 1 v.rxFcnt ++ be 1 v.txLpi ++ be 1 v.rxLpi ++
    be 1 (b2n v.rf + 2 * b2n v.ld + 4 * b2n v.lr + 8 * b2n (lpiInUse s p)) ++ be 1 v.amp ++ be 1 v.pre ++ be 1 v.post ++
    margin16 (if v.lock = 2 then x.health.margin else none) ++ margin16 v.partnerMargin ++ be 1 (oamUsed v) ++
    be 1 v.oamRxQueue.length ++ zeros 10

/-- VS50_STATUS (0x1102). -/
def vs50StatusCmd : Cmd := { readCmd 0x1102 onPort 0 vs50StatusData with
  check := fun s r => firstFail [(vs50Mode s r, .notPermitted)] }

/-- VS50_STATUS. -/
def execVs50Status (r : Req) (s : State) : Host.Outcome State Fault Refusal := .next (serve vs50StatusCmd r s)

/-- VS50_COUNTERS_READ (0x1103). -/
def vs50CountersReadCmd : Cmd := readCmd 0x1103 onPort 0 fun s r => s.cblock 0x1103 (tw r) (ti r) 0 14

/-- VS50_COUNTERS_READ. -/
def execVs50CountersRead (r : Req) (s : State) : Host.Outcome State Fault Refusal := .next (serve vs50CountersReadCmd r s)

/-- VS50_COUNTERS_CLEAR (0x1104). -/
def vs50CountersClearCmd : Cmd := portClear 0x1104 0x1103

/-- VS50_COUNTERS_CLEAR. -/
def execVs50CountersClear (r : Req) (s : State) : Host.Outcome State Fault Refusal := .next (serve vs50CountersClearCmd r s)

/-- VS50_OAM_SEND (0x1110): at Up or LPI in VS50; eight messages wait at most (R165, R168). -/
def vs50OamSendCmd : Cmd where
  op := 0x1110
  target := onPort
  len := len 16
  check := fun s r => firstFail [inv (within (p8 r 0) 0x10 0x7F), inv (rz r 2 2), (vs50Live s (ti r), .notPermitted)]
  take := fun s r _ => if 8 ≤ oamUsed (s.port (ti r)).vs then some (.busy, []) else none
  run := doOk fun s r => updVs s (ti r) fun v => { v with
    oamQueue := v.oamQueue ++ [{ type := p8 r 0, payload := r.params.drop 4, handle := some (p8 r 1) }] }

/-- VS50_OAM_SEND. -/
def execVs50OamSend (r : Req) (s : State) : Host.Outcome State Fault Refusal := .next (serve vs50OamSendCmd r s)

/-- VS50_OAM_READ (0x1111): the oldest messages, up to the count given, are returned and removed (R169). -/
def vs50OamReadCmd : Cmd where
  op := 0x1111
  target := onPort
  len := len 4
  check := fun s r => firstFail [inv (rz r 2 2), rng (p16 r 0 ≤ 16), (vs50Mode s r, .notPermitted)]
  run := fun s r =>
    let n := p16 r 0
    let ms := (s.port (ti r)).vs.oamRxQueue.take n
    (updVs s (ti r) fun v => { v with oamRxQueue := v.oamRxQueue.drop n },
      some (.ok, (ms.map fun m => be 1 m.type ++ zeros 3 ++ be 8 m.tidemark ++ padTo 12 m.payload).flatten))

/-- VS50_OAM_READ. -/
def execVs50OamRead (r : Req) (s : State) : Host.Outcome State Fault Refusal := .next (serve vs50OamReadCmd r s)

end Sys2Proof.Machine
end

