-- ==== Sys2Proof/Machine/Training.lean ====
section
/-! DEFINITION. Negotiation, VS50 training and fast relink: the control block, the phases, failures and the commands of
opcodes 0x13xx (R218 to R254). -/

namespace Sys2Proof.Machine

/-- Change the start-up record of a port. -/
def updStart (s : State) (p : Nat) (f : Start → Start) : State := s.updPort p fun x => { x with start := f x.start }

/-- Change the taps of a port. -/
def updTaps (s : State) (p : Nat) (f : Taps → Taps) : State :=
  s.updPort p fun x => { x with dsp := { x.dsp with taps := f x.dsp.taps } }

/-! ### The training control block (R226 to R228) -/

/-- Bytes of the bits of PAM2 symbols, as the slicer decides them: an upper level is a 1. -/
def pam2Bytes : Nat → List Nat → List Byte
  | 0, _ => []
  | n + 1, ys => BitVec.ofNat 8 (ofBits ((ys.take 8).map (2 ≤ ·))) :: pam2Bytes n (ys.drop 8)

/-- A valid block in the first 144 symbols of a codeword region. -/
def parseBlk (ys : List Nat) : Option CtlBlock :=
  let b := pam2Bytes 18 ys
  if fld b 16 2 = crc16 (b.take 16) ∧ within (byteAt b 0) 1 8 ∧ byteAt b 1 % 8 = 0 ∧ byteAt b 3 % 32 = 0 ∧ byteAt b 5 = 0 then
    some { phase := byteAt b 0, flags := byteAt b 1, request := byteAt b 2, status := byteAt b 3, steps := byteAt b 4,
           ident := fld b 6 6, tag := fld b 12 2, countdown := fld b 14 2 }
  else none

/-- Phases whose block carries a countdown. -/
def counted (phase : Nat) : Bool := within phase 1 4 || phase == 8

/-- The relink record that a port may use (R247). -/
def heldRecord (s : State) (p : Nat) : Option Relink :=
  if (s.port p).start.use.flags.testBit 1 then s.relinks.get none p else none

/-- The block that a port sends in its next training frame. -/
def ctlBytes (s : State) (p : Nat) : List Byte :=
  let x := s.port p
  let t := x.start
  let req := match t.reqOut with | some (tap, act, n) => tap * 32 + act * 8 + n | none => 0
  let tag := if t.phase ≤ 2 then t.heldTag else if t.phase = 8 then
    (if x.resRole = 1 then t.newTag else (t.blk.map (·.tag)).getD 0) else 0
  let b := be 1 t.phase ++
    be 1 (128 * b2n t.rxReady + 64 * b2n (t.use.flags.testBit 1) + 32 * b2n (t.use.flags.testBit 0) +
      16 * b2n ((s.pcfg p).vs.flags.testBit 1) + 8 * b2n (t.relink && t.phase == 2)) ++
    be 1 (128 * b2n t.reqTgl + req) ++ be 1 (128 * b2n t.ackTgl + 32 * t.ackResult) ++ be 1 (16 * x.vs.post + x.vs.pre) ++
    zeros 1 ++ be 6 (linkIdent p) ++ be 2 tag ++ be 2 (if counted t.phase then t.left - 1 else 0)
  b ++ be 2 (crc16 b)

/-! ### The training pattern (R226, R227) -/

/-- The pattern symbols 144 to 5,439 of a phase from a scrambler state, and the state after them. The precoder starts the
pattern at 0, since the block before it is not precoded. Idle in phase 0x08 is taken as the scrambler's output. -/
def pattern (phase st : Nat) : List Nat × Nat :=
  if phase ≤ 5 then
    let r := scramble st (List.replicate 5296 false)
    (r.1.map fun b => if b then 3 else 0, r.2)
  else
    let r := scramble st (List.replicate 10592 false)
    let pairs := fun (bs : List Bool) => (msgSymbols 1060 (bs ++ List.replicate 8 false)).flatMap symGray
    (precode 0 ((pairs r.1).take 5296), r.2)

/-- Scrambler positions of a training frame of a phase. -/
def patternBits (phase : Nat) : Nat := if phase ≤ 5 then 5296 else 10592

/-- The scrambler at the start of a training frame, as the receiver predicts it from its FCNT (R227): the frames since the reseeding
at FCNT 0 are taken as of the same phase. -/
def patternStart (phase fcnt : Nat) : Nat := scrRun (fcnt * patternBits phase) scrSeed

/-- Pattern symbols without a decision error at the end of a frame, after `before` such symbols ended the frame before. -/
def cleanRun (expect got : List Nat) (before : Nat) : Nat :=
  let ok := (List.zipWith (fun a b => a == b) expect got).reverse.takeWhile id
  if ok.length = 5296 then before + 5296 else ok.length

/-! ### Eligible aggressors, and window candidates (R184, R190, R192) -/

/-- A port that is at Training, Up or LPI in a mode. -/
def runsMode (s : State) (p m : Nat) : Bool :=
  let x := s.port p
  x.resMode == m && (x.st == .training || x.st == .up || x.st == .lpi)

/-- Port `a` is eligible as an aggressor of victim `p` under a group (R189, R190). -/
def aggrEligible (s : State) (p a group : Nat) : Bool :=
  a / 8 == p / 8 && a != p && group.testBit (a % 8) && group.testBit (p % 8) && hasNext (s.port p).resMode &&
    runsMode s p (s.port p).resMode && runsMode s a (s.port p).resMode

/-- The lag of largest magnitude, from the first lag on. -/
def peakLag (first : Nat) (taps : List Int) : Nat :=
  first + ((taps.foldl (fun (a : Nat × Nat × Nat) v =>
    if a.2.2 < v.natAbs then (a.1 + 1, a.1, v.natAbs) else (a.1 + 1, a.2)) (0, 0, 0)).2).1

/-- A window's candidate start (R184, R181). -/
def windowStart (m lag : Nat) : Nat := min (max ((lag - 24) / 8 * 8) 512) ((echoSpan m - 64) / 8 * 8)

/-- A canceller's offset (R192). -/
def nextOffset (lag : Nat) : Nat := min ((lag - 16) / 8 * 8) 464

/-- Estimates of `n` lags from `a` on; a lag that no segment gives is 0. -/
def estimates (segs : List ScoutSeg) (a n : Nat) : List Int :=
  (List.range n).map fun i => match segs.find? fun g => g.seg == (a + i) / 64 with
    | some g => g.taps.getD ((a + i) % 64) 0
    | none => 0

/-- A window at `a` overlaps none of the starts in use. -/
def apart (starts : List Nat) (a : Nat) : Bool := starts.all fun b => a + 64 ≤ b || b + 64 ≤ a

/-- Starts of the windows in use. -/
def usedStarts (t : Taps) : List Nat := t.wins.filterMap (·.start)

/-- Insert a segment by falling energy. -/
def insertSeg (g : ScoutSeg) : List ScoutSeg → List ScoutSeg
  | [] => [g]
  | h :: l => if h.energy < g.energy then g :: h :: l else h :: insertSeg g l

/-- Segments by falling energy. -/
def byEnergy (l : List ScoutSeg) : List ScoutSeg := l.foldl (fun a g => insertSeg g a) []

/-- Place the first free window that is not pinned. -/
def placeFree (pins : Nat) (wins : List EchoWin) (a : Nat) (taps : List Int) : List EchoWin :=
  match (List.range 8).find? fun w => !pins.testBit w && (wins.getD w {}).start.isNone with
  | some w => wins.mapIdx fun i x => if i = w then { start := some a, taps } else x
  | none => wins

/-- The windows that training places on the echo it has measured (R231): segments at or above −55 dB, greatest first, with every
window that is not pinned free at first. -/
def initialWindows (m : Nat) (c : PortCfg) (segs : List ScoutSeg) (t : Taps) : Taps :=
  if !hasWindows m ∨ !c.dsp.flags.testBit 1 then t
  else
    let pinned := t.wins.mapIdx fun w x => if c.pins.testBit w then x else {}
    { t with wins := ((byEnergy segs).filter fun g => -550 ≤ g.energy).foldl (fun wins g =>
        let a := windowStart m (peakLag (64 * g.seg) g.taps)
        if apart (wins.filterMap (·.start)) a then placeFree c.pins wins a (estimates segs a 64) else wins) pinned }

/-- Windows under the pins: pinned ones at their starts, and no other may overlap them (R181, R186, R214). -/
def pinWins (m : Nat) (c : PortCfg) (wins : List EchoWin) : List EchoWin :=
  let starts := (List.range 8).filterMap (pinStart m c)
  wins.mapIdx fun w x =>
    if c.pins.testBit w then match pinStart m c w with
      | some a => if x.start = some a then x else { start := some a, taps := List.replicate 64 0 }
      | none => {}
    else match x.start with
      | some b => if apart starts b then x else {}
      | none => x

/-- Insert a candidate aggressor by falling coupling energy. -/
def insertAggr (g : Coupling) : List Coupling → List Coupling
  | [] => [g]
  | h :: l => if h.energy < g.energy then g :: h :: l else h :: insertAggr g l

/-- Candidate aggressors by falling coupling energy. -/
def byCoupling (l : List Coupling) : List Coupling := l.foldl (fun a g => insertAggr g a) []

/-- Taps of a canceller seeded from the scout's estimates. -/
def seedTaps (g : Coupling) : List Int :=
  let a := nextOffset (peakLag 0 g.taps)
  (List.range 48).map fun i => g.taps.getD (a + i) 0

/-- Seed free cancellers of a victim with eligible aggressors that have none, greatest coupling first (R189, R191, R192). -/
def seedNexts (s : State) (p group : Nat) (cs : List Coupling) : State :=
  (byCoupling cs).foldl (fun s g =>
    let a := g.aggr.val
    let ns := (s.port p).dsp.taps.nexts
    if aggrEligible s p a group ∧ !(ns.any fun n => n.aggr == some a) then
      match (List.range 3).find? fun k => (ns.getD k {}).aggr.isNone with
      | some k =>
        raise (updNext s p k fun _ => { aggr := some a, st := 3, offset := nextOffset (peakLag 0 g.taps), taps := seedTaps g })
          0x1203 0 (portT p) (be 1 k ++ be 1 0xFF ++ be 1 a)
      | none => s
    else s) s

/-! ### Phases (R229 to R234, R245 to R250) -/

/-- The tag for a new record: nonzero, and other than the one before (R245). -/
def chooseTag (s : State) (p : Nat) : Nat :=
  let t := (Config.relinkTag s.freeCtr).toNat % 65535 + 1
  if (s.relinks.get none p).map (·.tag) = some t then t % 65535 + 1 else t

/-- Restore a relink record on entering phase 0x07 (R249): a canceller whose aggressor is not eligible is left free, the others
adapt from the stored taps whatever state they were recorded in; pinned windows stay where they are pinned (R186). -/
def restoreRecord (s : State) (p : Nat) : State :=
  match s.relinks.get none p with
  | none => s
  | some r =>
    let nexts := r.taps.nexts.map fun n =>
      if (n.aggr.map fun a => aggrEligible s p a (committedGroup s p)).getD false then { n with st := 1 } else {}
    s.updPort p fun x => { x with
      vs := { x.vs with pre := r.pre, post := r.post }
      dsp := { x.dsp with timing := {}, taps := { r.taps with nexts, wins := pinWins 9 (s.pcfg p) r.taps.wins } } }

/-- Frames that a port has to send in a phase. -/
def phaseFrames (role phase : Nat) : Nat :=
  match phase, role with
  | 1, 1 => 7680
  | 2, 2 => 7680
  | 3, 1 => 30720
  | 4, 2 => 30720
  | 8, _ => 16
  | _, _ => 0

/-- A fallback from phase 0x07 to full training is counted and reported (R250). -/
def relinkFallback (s : State) (p : Nat) : State :=
  raise (s.bump 0x1303 p 9) 0x1303 0 (portT p) (margin16 (s.port p).start.reached)

/-- The port enters a training phase. Full training starts at preset 1 (R237). -/
def enterPhase (s : State) (p n : Nat) : State :=
  let x := s.port p
  let back : Bool := x.start.phase == 7 && n == 3
  let s1 := if back then relinkFallback s p else s
  let s2 := updStart s1 p fun t => { t with
    phase := n, left := phaseFrames x.resRole n, clean := 0, good := 0, rxReady := false, reached := none
    decision := if back then 3 else if n = 3 then 2 else if n = 7 then 1 else t.decision
    presetAsked := t.presetAsked && n != 3, patErrs := 0 }
  if n = 3 then updVs s2 p fun v => { v with pre := 1, post := 4, newTx := none, bfSent := false }
  else if n = 7 then restoreRecord (s2.bump 0x1303 p 7) p
  else if n = 8 ∧ x.resRole = 1 then
    if x.start.decision = 1 then updStart s2 p fun t => { t with newTag := t.heldTag }
    else updStart s2.draw p fun t => { t with newTag := chooseTag s2 p }
  else s2

/-- The held tag when the partner is known (R247): the record's, when its identity is the partner's. -/
def heldTagFor (s : State) (p ident : Nat) : Nat :=
  match heldRecord s p with
  | some r => if r.ident = ident then r.tag else 0
  | none => 0

/-- The partner's identity: that of its VS50 pages with negotiation on, else that of its HELLO block (R247). -/
def partnerIdent (s : State) (p : Nat) (b : CtlBlock) : Nat :=
  if (s.pcfg p).mode.neg = 1 then (s.port p).start.partnerId else b.ident

/-- The slave's decision at the end of phase 0x01 (R248). -/
def slaveRelink (s : State) (p : Nat) (b : CtlBlock) : State :=
  let held := heldTagFor s p (partnerIdent s p b)
  let role := ((s.relinks.get none p).map (·.role)).getD 0
  updStart s p fun t => { t with
    heldTag := held, relink := t.use.flags.testBit 1 && b.flags.testBit 6 && held != 0 && b.tag == held && role == 2 }

/-- The master relinks after phase 0x02 (R248). -/
def masterRelinks (s : State) (p : Nat) (b : CtlBlock) : Bool :=
  let held := heldTagFor s p (partnerIdent s p b)
  b.flags.testBit 3 && held != 0 && held == b.tag && ((s.relinks.get none p).map (·.role)) == some 1

/-- The port is in VS50 training in a phase. -/
def inPhase (s : State) (p n : Nat) : Bool :=
  (s.port p).st == .training && (s.port p).resMode == 9 && (s.port p).start.phase == n

/-- HALF_DUPLEX_PHASE_END: this side has sent its last frame, or has received the sender's countdown 0 (R229 to R231). `echo` is
what this side has measured of its own echo, `next` of its cove's aggressors. -/
def execHalfDuplexPhaseEnd (p : PortId) (echo : List ScoutSeg) (next : List Coupling) (s : State) :
    Host.Outcome State Fault Refusal :=
  .next (
    let q := p.val
    let x := s.port q
    let t := x.start
    let sent : Bool := t.left == 0
    let heard := fun n => (t.blk.map fun b => b.phase == n && b.countdown == 0).getD false
    let windows := fun (s : State) => updTaps s q (initialWindows 9 (s.pcfg q) echo)
    let full := fun (s : State) => seedNexts (enterPhase s q 5) q (committedGroup s q) next
    if inPhase s q 1 then
      if x.resRole = 1 then (if sent then enterPhase s q 2 else s)
      else match t.blk with
        | some b => if heard 1 then enterPhase (slaveRelink s q b) q 2 else s
        | none => s
    else if inPhase s q 2 ∧ x.resRole = 1 then
      match t.blk with
      | some b =>
        if heard 2 then
          enterPhase (updStart s q fun t => { t with heldTag := heldTagFor s q (partnerIdent s q b) }) q (if masterRelinks s q b then 7 else 3)
        else s
      | none => s
    else if inPhase s q 3 then
      if x.resRole = 1 then (if sent then enterPhase (windows s) q 4 else s)
      else if heard 3 then enterPhase s q 4 else s
    else if inPhase s q 4 then
      if x.resRole = 2 then (if sent then full (windows s) else s)
      else if heard 4 then full s else s
    else s)

/-- The phase that the master goes to when both sides are ready. -/
def phaseAfter (n : Nat) : Nat := match n with | 5 => 6 | 6 => 8 | 7 => 8 | _ => n

/-- TRAINING_PHASE_CHANGE: the master moves on when both sides are ready; the slave follows the master's phase code (R230, R233). -/
def execTrainingPhaseChange (p : PortId) (s : State) : Host.Outcome State Fault Refusal :=
  .next (
    let q := p.val
    let t := (s.port q).start
    match t.blk with
    | none => s
    | some b =>
      if !inPhase s q t.phase then s
      else if (s.port q).resRole = 1 then
        if within t.phase 5 7 ∧ t.rxReady ∧ b.phase = t.phase ∧ b.flags.testBit 7 then enterPhase s q (phaseAfter t.phase) else s
      else
        let follows : Bool := (t.phase == 2 && t.left == 0 && (b.phase == 3 || b.phase == 7)) ||
          (t.phase == 5 && b.phase == 6) || (t.phase == 6 && b.phase == 8) || (t.phase == 7 && (b.phase == 8 || b.phase == 3))
        if follows then enterPhase s q b.phase else s)

/-! ### Failures (R228, R236, R238, R239) -/

/-- The port hears its partner in its present phase, so losing it is a failure: not a sender of a half-duplex phase, and as a
listener not before frame lock or the first block (R228, R229, R238, R239). -/
def hears (s : State) (p : Nat) : Bool :=
  let t := (s.port p).start
  let role := (s.port p).resRole
  let locked : Bool := (s.port p).vs.lock == 2
  match t.phase with
  | 1 => role == 2 && (locked || t.blk.isSome)
  | 2 => if role = 1 then locked || (t.blk.map fun b => b.phase == 2).getD false else t.left == 0
  | 3 => role == 2
  | 4 => role == 1
  | _ => true

/-- A failure whose cause arises: the reason when it is one in the port's present state. -/
def failWhen (c : Bool) (reason : Nat) : Option Nat := if c then some reason else none

/-- Expiry of a phase timer: reason 1 in VS50, reason 7 under a standard mode's clause. -/
def phaseReason (s : State) (p : Nat) : Option Nat :=
  let x := s.port p
  if x.st ≠ .training ∨ x.resMode = 2 then none
  else if x.resMode ≠ 9 then some 7
  else failWhen (x.start.phase == 5 || x.start.phase == 6 || x.start.phase == 8) 1

/-- No valid block in a half-duplex phase: reason 3. A slave of a forced start listens without a timer (R239). -/
def answerReason (s : State) (p : Nat) : Option Nat :=
  let x := s.port p
  let slave : Bool := inPhase s p 1 && x.resRole == 2 && (s.pcfg p).mode.neg == 1 && x.start.blk.isNone
  let master : Bool := inPhase s p 2 && x.resRole == 1 && !(x.start.blk.map fun b => b.phase == 2).getD false
  failWhen (slave || master) 3

/-- The partner is lost: reason 2. -/
def lostReason (s : State) (p : Nat) : Option Nat :=
  let x := s.port p
  failWhen (x.st == .training && x.resMode != 2 && (x.resMode != 9 || hears s p)) 2

/-- A coefficient request has gone unanswered for 1 ms: reason 4 (R236). -/
def coeffReason (s : State) (p : Nat) : Option Nat :=
  failWhen ((s.port p).st == .training && (s.port p).start.reqOut.isSome) 4

/-- The reason that a waiting event gives for a failure of port `p`. -/
def causeOf (s : State) (p : Nat) (i : Instr) : Option Nat :=
  match i with
  | .trainingPhaseTimeout q => if q.val = p then phaseReason s p else none
  | .noAnswerTimeout q => if q.val = p then answerReason s p else none
  | .partnerLostTimeout q => if q.val = p then lostReason s p else none
  | .coeffRequestTimeout q => if q.val = p then coeffReason s p else none
  | _ => none

/-- A start-up failure, with the lowest reason among the causes of the same keeper cycle: those that wait behind it, as no time passes
before they are taken (R238, log entries 1 and 136). -/
def failNow (s : State) (p reason : Nat) : State :=
  startFail s p ((s.pending.filterMap (causeOf s p)).foldl min reason)

/-- A port fails when there is a reason. -/
def failOn (s : State) (p : Nat) (reason : Option Nat) : State := match reason with
  | some r => failNow s p r
  | none => s

/-- TRAINING_PHASE_TIMEOUT. -/
def execTrainingPhaseTimeout (p : PortId) (s : State) : Host.Outcome State Fault Refusal :=
  .next (failOn s p.val (phaseReason s p.val))

/-- NO_ANSWER_TIMEOUT. -/
def execNoAnswerTimeout (p : PortId) (s : State) : Host.Outcome State Fault Refusal :=
  .next (failOn s p.val (answerReason s p.val))

/-- PARTNER_LOST_TIMEOUT. -/
def execPartnerLostTimeout (p : PortId) (s : State) : Host.Outcome State Fault Refusal :=
  .next (failOn s p.val (lostReason s p.val))

/-- COEFF_REQUEST_TIMEOUT. -/
def execCoeffRequestTimeout (p : PortId) (s : State) : Host.Outcome State Fault Refusal :=
  .next (failOn s p.val (coeffReason s p.val))

/-- RELINK_TIMEOUT: the master's 4 ms in phase 0x07 have passed, and full training follows (R250); a partner lost in the same keeper
cycle is a failure instead, without a fallback. -/
def execRelinkTimeout (p : PortId) (s : State) : Host.Outcome State Fault Refusal :=
  .next (
    if inPhase s p.val 7 ∧ (s.port p.val).resRole = 1 ∧ !(s.pending.any fun i => causeOf s p.val i == some 2) then enterPhase s p.val 3 else s)

/-! ### Negotiation (R218 to R224) -/

/-- A page payload P[42:0] as an unformatted page: P42 in D10, P31 in D47 (R219). -/
def unformatted (n : Nat) : NextPage :=
  { message := false, head := BitVec.ofNat 11 (n / 2 ^ 32), body := BitVec.ofNat 32 n }

/-- The payload of an unformatted page. -/
def payload43 (g : NextPage) : Nat := g.head.toNat * 2 ^ 32 + g.body.toNat

/-- The OUI-tagged message page of VS50. -/
def vs50Message : NextPage := { message := true, head := 5, body := 0x6AD71951 }

/-- A null message page (PRESUMED: message code 1 of IEEE 802.3 Annex 98C, log entry 135). -/
def nullPage : NextPage := { message := true, head := 1, body := 0 }

/-- The three VS50 pages of a port (R219, R220): its abilities, its link identity, and the tag of its relink record, since its
partner's identity is known only from these pages (log entry 135). -/
def vs50Pages (s : State) (p : Nat) : List NextPage :=
  let c := (s.port p).start.use
  let id := linkIdent p
  [vs50Message,
   unformatted (2 ^ 42 + b2n (c.flags.testBit 0) * 2 ^ 41 + b2n (c.flags.testBit 1) * 2 ^ 40 +
     b2n ((s.pcfg p).vs.flags.testBit 1) * 2 ^ 39 + id / 2 ^ 16),
   unformatted (id % 2 ^ 16 * 2 ^ 27 + ((heldRecord s p).map (·.tag)).getD 0 * 2 ^ 11)]

/-- What the partner's VS50 pages say: abilities, link identity and held tag. -/
structure Vs50Adv where
  lpi : Bool
  relink : Bool
  adjust : Bool
  ident : Nat
  tag : Nat
  deriving DecidableEq, Repr

/-- VS50 in the partner's next pages: the message page, then two unformatted pages, with the ability bit set (R219, R221). -/
def findVs50 : List NextPage → Option Vs50Adv
  | m :: a :: b :: l =>
    if m = vs50Message ∧ !a.message ∧ !b.message then
      let x := payload43 a
      let y := payload43 b
      if x.testBit 42 then
        some { lpi := x.testBit 41, relink := x.testBit 40, adjust := x.testBit 39
               ident := x % 2 ^ 32 * 2 ^ 16 + y / 2 ^ 27 % 2 ^ 16, tag := y / 2 ^ 11 % 2 ^ 16 }
      else none
    else findVs50 (a :: b :: l)
  | _ => none

/-- Clause 98's master and slave resolution: master, slave, or a configuration fault (R223, R224; PRESUMED, log entry 135): a forced
role stands against a preference, two different ones agree, the nonce decides between two equal preferences, and two equal forced
roles are the fault. -/
def resolveRole (own other : BasePage) (nonce : Bool) : Option Bool :=
  if own.forced && other.forced then (if own.master = other.master then none else some own.master)
  else if own.forced then some own.master
  else if other.forced then some !other.master
  else if own.master = other.master then some nonce
  else some own.master

/-- What a port learns of its partner in negotiation: both sides send next pages only when both base pages say so (R219), and the
null pages that this side adds match the partner's further ones. -/
def learn (s : State) (q : Nat) (x : Negotiated) : State × Option Vs50Adv :=
  let own := (s.port q).start.base.getD (basePage s q (s.port q).start.use)
  let paged : Bool := own.np && x.base.np
  let vs := if paged then findVs50 x.pages else none
  (updStart s q fun t => { t with
    partnerAdv := (x.base.tech.toNat &&& 0x1FA) + (if vs.isSome then 512 else 0)
    partnerFlags := (vs.map fun v => b2n v.lpi + 2 * b2n v.relink + 4 * b2n v.adjust).getD 0
    partnerId := (vs.map (·.ident)).getD 0, partnerTag := (vs.map (·.tag)).getD 0, partnerEee := x.base.eee.toNat &&& eeeModes
    pages := if paged then vs50Pages s q ++ List.replicate (x.pages.length - 3) nullPage else [] }, vs)

/-- A port trains in a resolved mode and role. -/
def resolved (s : State) (q mode role : Nat) : State :=
  let old := s.port q
  let s1 := s.updPort q fun y => { y with
    resMode := mode, resRole := role
    start := { y.start with
      phase := if mode = 9 then 1 else 0, left := if mode = 9 then phaseFrames role 1 else 0
      fails := if old.resMode = mode then y.start.fails else 0
      heldTag := if mode = 9 then heldTagFor s q y.start.partnerId else y.start.heldTag }
    dsp := { y.dsp with st := 1, taps := freshTaps mode (s.pcfg q) y.dsp.taps, scout := [], residual := none
                        uncovered := false, timing := {} } }
  trainingSends (setSt s1 q .training) q old.resMode

/-- NEGOTIATION_COMPLETE: mode and role are resolved, or the start-up fails with reason 5 or 6. -/
def execNegotiationComplete (p : PortId) (x : Negotiated) (s : State) : Host.Outcome State Fault Refusal :=
  .next (
    let q := p.val
    if (s.port q).st ≠ .negotiating then s
    else
      let (s1, _) := learn s q x
      let own := (s.port q).start.base.getD (basePage s q (s.port q).start.use)
      let mode := highest (offered s q &&& (s1.port q).start.partnerAdv)
      match resolveRole own x.base x.nonce with
      | none => startFail s1 q 5
      | some master =>
        if mode = 0 then startFail s1 q 6
        else resolved s1 q mode (if mode = 1 then 0 else if master then 1 else 2))

/-- LINK_UP: the link is established (R108, R234). The EEE of a standard mode is agreed when both base pages advertise it, or, without
negotiation, when the training of the mode's clause says so of the partner (`eee`). -/
def execLinkUp (p : PortId) (eee : Bool) (s : State) : Host.Outcome State Fault Refusal :=
  .next (
    let x := s.port p.val
    if x.st = .training ∧ x.resMode ≠ 2 ∧ (x.resMode ≠ 9 ∨ (x.start.phase = 8 ∧ x.start.dataSent ∧ x.start.dataSeen)) then
      let theirs : Bool := if (s.pcfg p.val).mode.neg = 1 then x.start.partnerEee.testBit x.resMode else eee
      let agreed : Bool := theirs && x.start.use.flags.testBit 0
      updPw (goUp s p.val) p.val fun w => { w with eee := agreed }
    else s)

/-! ### Coefficient requests (R210, R235, R237) -/

/-- Preset for an insertion loss in 0.1 dB (R237). -/
def presetFor (loss : Nat) : Nat := if loss < 200 then 0 else if loss < 300 then 1 else if loss < 350 then 2 else 3

/-- The single step that the rules of R210 ask for, from taps averaged over `n` windows: tap (0 precursor, 1 postcursor) and step
(1 more negative, 0xFF less negative). Magnitudes are in units of 2⁻¹⁴. -/
def stepRule (recent : List (Int × Int)) (n : Nat) (pre post : Option Nat) (barred : Nat) : Option (Nat × Nat) :=
  let l := recent.take n
  let k : Int := l.length
  if l.length < n then none
  else
    let a : Int := ((l.map Prod.fst).sum).natAbs
    let d : Int := (l.map Prod.snd).sum
    if 12 * 16384 * k < a * 100 ∧ !barred.testBit 0 then some (0, 1)
    else if a * 100 < 3 * 16384 * k ∧ (pre.map fun v => decide (0 < v)).getD false ∧ !barred.testBit 1 then some (0, 0xFF)
    else if 45 * 16384 * k < d * 100 ∧ !barred.testBit 2 then some (1, 1)
    else if d * 100 < 15 * 16384 * k ∧ (post.map fun v => decide (0 < v)).getD false ∧ !barred.testBit 3 then some (1, 0xFF)
    else none

/-- COEFF_REQUEST_SEND, 50 µs or more after the last one: in phase 0x05 the preset for the channel's loss, in 0.1 dB; in phases 0x06 and 0x07 a single step. -/
def execCoeffRequestSend (p : PortId) (loss : Nat) (s : State) : Host.Outcome State Fault Refusal :=
  .next (
    let q := p.val
    let x := s.port q
    let t := x.start
    let send : Nat × Nat × Nat → State := fun r =>
      (updStart s q fun t => { t with
        reqTgl := !t.reqTgl, reqOut := some r, presetAsked := t.presetAsked || r.2.1 == 3, reqAt := some s.now }).bump 0x1303 q 10
    let soon : Bool := (t.reqAt.map fun a => decide (s.now < a + 200000)).getD false
    if t.reqOut.isSome ∨ soon then s
    else if inPhase s q 5 ∧ !t.presetAsked then updStart (send (0, 3, presetFor loss)) q fun t => { t with loss := some loss }
    else if inPhase s q 6 ∨ inPhase s q 7 then
      let steps := (t.blk.map (·.steps)).getD 0
      match stepRule x.dsp.recent 4 (some (steps % 16)) (some (steps / 16)) x.dsp.suppressed with
      | some (tap, st) => send (tap + 1, if st = 1 then 1 else 2, 0)
      | none => s
    else s)

/-- The partner's request, when its block carries a new one (R235): answered at once, or after its change applies. -/
def answerRequest (s : State) (p : Nat) (b : CtlBlock) : State :=
  let x := s.port p
  let v := x.vs
  if b.request.testBit 7 = x.start.ackTgl ∨ x.start.ackDue then s
  else
    let tap := bits b.request 6 5
    let act := bits b.request 4 3
    let n := bits b.request 2 0
    let now := fun (res : Nat) => updStart s p fun t => { t with ackTgl := !t.ackTgl, ackResult := res }
    let later := fun (pre post : Nat) =>
      updStart (updVs s p fun v => { v with newTx := some ((v.newTx.map (·.1)).getD v.amp, pre, post) }) p fun t =>
        { t with ackDue := true }
    if act = 3 then (if n ≤ 3 then later n (4 * n) else now 2)
    else if act = 0 ∨ tap = 0 then now 0
    else if tap = 3 then now 2
    else
      let cur := if tap = 1 then v.pre else v.post
      let top := if tap = 1 then 6 else 12
      if (act = 1 ∧ top ≤ cur) ∨ (act = 2 ∧ cur = 0) then now 1
      else
        let c := if act = 1 then cur + 1 else cur - 1
        if tap = 1 then later c v.post else later v.pre c

/-- The partner's answer to a request outstanding: at the limit or refused, the same step is not asked for again (R210). -/
def takeAnswer (s : State) (p : Nat) (b : CtlBlock) : State :=
  let t := (s.port p).start
  match t.reqOut with
  | some (tap, act, _) =>
    if b.status.testBit 7 = t.reqTgl then
      let s1 := updStart s p fun t => { t with reqOut := none }
      if bits b.status 6 5 = 0 ∨ act = 3 ∨ tap = 0 then s1
      else s1.updPort p fun x => { x with dsp := { x.dsp with
        suppressed := setBit x.dsp.suppressed (2 * (tap - 1) + if act = 1 then 0 else 1) } }
    else s
  | none => s

/-- A valid block arrives: a forced start learns its partner from it, and two forced masters fail (R227, R234, R239). -/
def takeBlock (s : State) (p : Nat) (b : CtlBlock) : State :=
  let forced : Bool := (s.pcfg p).mode.neg == 0
  let s1 := updStart s p fun t => { t with
    blk := some b
    partnerFlags := if forced then b2n (b.flags.testBit 5) + 2 * b2n (b.flags.testBit 6) + 4 * b2n (b.flags.testBit 4)
      else t.partnerFlags
    partnerId := if forced then b.ident else t.partnerId
    partnerTag := if b.phase ≤ 2 then b.tag else t.partnerTag }
  if forced ∧ (s.port p).resRole = 1 ∧ b.phase = 1 then failNow s1 p 5
  else answerRequest (takeAnswer s1 p b) p b

/-! ### Opcodes 0x13xx -/

/-- START_CONFIG (0x1301): it applies from the port's next start-up (R252). -/
def startConfigCmd : Cmd := confCmd 0x1301 onPort 8
  (fun _ r => firstFail [inv (p8 r 0 < 8), inv (p8 r 1 ≠ 0), inv (rz r 4 4), rng (p8 r 1 ≤ 15), rng (withinI (i16 r 2) 0 100)])
  fun s r => s.updPcfg (ti r) fun c => { c with start := { flags := p8 r 0, downshift := p8 r 1, margin := i16 r 2 } }

/-- START_CONFIG. -/
def execStartConfig (r : Req) (s : State) : Host.Outcome State Fault Refusal := .next (serve startConfigCmd r s)

/-- Result of START_STATUS. -/
def startStatusData (s : State) (r : Req) : List Byte :=
  let p := ti r
  let x := s.port p
  let t := x.start
  be 1 (if x.st = .negotiating then 0xFE else if x.st = .training then t.phase else 0) ++ be 1 t.lastFail ++
    be 1 (sat 8 t.fails) ++ be 1 t.decision ++ be 2 t.excluded ++ be 2 t.partnerAdv ++ be 1 t.partnerFlags ++
    be 1 (16 * x.vs.post + x.vs.pre) ++ be 6 t.partnerId ++ be 6 (linkIdent p) ++ zeros 2 ++ be 4 t.lastTime ++ zeros 4

/-- START_STATUS (0x1302). -/
def startStatusCmd : Cmd := readCmd 0x1302 onPort 0 startStatusData

/-- START_STATUS. -/
def execStartStatus (r : Req) (s : State) : Host.Outcome State Fault Refusal := .next (serve startStatusCmd r s)

/-- START_COUNTERS_READ (0x1303). -/
def startCountersReadCmd : Cmd := readCmd 0x1303 onPort 0 fun s r => s.cblock 0x1303 (tw r) (ti r) 0 12

/-- START_COUNTERS_READ. -/
def execStartCountersRead (r : Req) (s : State) : Host.Outcome State Fault Refusal := .next (serve startCountersReadCmd r s)

/-- START_COUNTERS_CLEAR (0x1304). -/
def startCountersClearCmd : Cmd := portClear 0x1304 0x1303

/-- START_COUNTERS_CLEAR. -/
def execStartCountersClear (r : Req) (s : State) : Host.Outcome State Fault Refusal := .next (serve startCountersClearCmd r s)

/-- Result of RELINK_STORE_READ. -/
def relinkReadData (s : State) (r : Req) : List Byte :=
  match s.relinks.get none (ti r) with
  | none => zeros 24
  | some k =>
    be 1 1 ++ be 1 k.role ++ be 2 k.tag ++ be 6 k.ident ++ margin16 k.margin ++ be 1 (16 * k.post + k.pre) ++ zeros 1 ++
      be 4 (sat 32 (s.secsSince k.time)) ++ be 4 k.updates ++ zeros 2

/-- RELINK_STORE_READ (0x1305). -/
def relinkStoreReadCmd : Cmd := readCmd 0x1305 onPort 0 relinkReadData

/-- RELINK_STORE_READ. -/
def execRelinkStoreRead (r : Req) (s : State) : Host.Outcome State Fault Refusal := .next (serve relinkStoreReadCmd r s)

/-- The relink record of a port is cleared. -/
def clearRelink (s : State) (p : Nat) : State := { s with relinks := s.relinks.set none p none }

/-- RELINK_STORE_CLEAR (0x1306). -/
def relinkStoreClearCmd : Cmd :=
  clearCmd 0x1306 onDevice 16 (fun _ r => (portMask r 0).map portT) fun s r => eachN s (portMask r 0) clearRelink

/-- RELINK_STORE_CLEAR. -/
def execRelinkStoreClear (r : Req) (s : State) : Host.Outcome State Fault Refusal := .next (serve relinkStoreClearCmd r s)

/-- The effect of START_RESTART on a port (R253). In Quiet and in Slack only the action bits take effect. -/
def startRestartRun (s : State) (r : Req) : State :=
  let p := ti r
  let s1 := updStart s p fun t => { t with
    fails := 0, excluded := if (p8 r 0).testBit 0 then 0 else t.excluded
    floorRaised := t.floorRaised && !(p8 r 0).testBit 0 }
  let s2 := if (p8 r 0).testBit 1 then clearRelink s1 p else s1
  match (s.port p).st with
  | .up | .lpi => if (s.port p).restart.isSome then s2 else restartLink s2 p false
  | .down | .negotiating | .training => abandon s2 p
  | _ => s2

/-- START_RESTART (0x1307). -/
def startRestartCmd : Cmd where
  op := 0x1307
  target := onPort
  len := len 4
  check := fun _ r => firstFail [inv (p8 r 0 < 4), inv (rz r 1 3)]
  writes := true
  run := doOk startRestartRun

/-- START_RESTART. -/
def execStartRestart (r : Req) (s : State) : Host.Outcome State Fault Refusal := .next (serve startRestartCmd r s)

end Sys2Proof.Machine
end

