-- ==== Sys2Proof/Machine/Sound.lean ====
section
/-! DEFINITION. Sounding runs: their start, their snapshots, and the analysis of a profile into reflections (R307 to R319). -/

namespace Sys2Proof.Machine

/-- Change the health record of a port. -/
def updHealth (s : State) (p : Nat) (f : Health → Health) : State := s.updPort p fun x => { x with health := f x.health }

/-! ### Runs (R307, R312, R313, R315) -/

/-- The port can be sounded: Up or LPI in a mode with an echo canceller (R307). -/
def soundable (s : State) (p : Nat) : Bool := portLive s p && 4 ≤ (s.port p).resMode

/-- A run begins (R312, R313). -/
def startSound (s : State) (p : Nat) (asBase : Bool) (w : Option Waiter) : State :=
  let c := (s.pcfg p).sound
  let run : SoundRun := { cfg := c, mode := (s.port p).resMode, base := s.baselines.get none p, left := c.snaps,
                          spoiled := false, asBase, waiter := w }
  updHealth s p fun h => { h with run := some run, runs := (h.runs + 1) % 2 ^ 32, runAt := s.now }

/-- Headland can start a run of its own at the port. -/
def soundFree (s : State) (p : Nat) : Bool :=
  s.rst.headland == 2 && soundable s p && (s.port p).health.run.isNone

/-- A trigger of `SOUNDING_CONFIG` flag `bit` starts a run, at most once per 10 s (R313). -/
def soundTrigger (s : State) (p bit : Nat) : State :=
  let due : Bool := match (s.port p).health.triggerAt with
    | some t => decide (t + 40000000000 ≤ s.now)
    | none => true
  if (s.pcfg p).sound.flags.testBit bit ∧ soundFree s p ∧ due then
    updHealth (startSound s p false none) p fun h => { h with triggerAt := some s.now }
  else s

/-- Echo tap `k` as a snapshot takes it: from the dense section, else from a window that covers it, else the scout's estimate of the
cycle just ended. A window in shadow training is none of the windows (R309). -/
def snapTap (m : Nat) (t : Taps) (segs : List ScoutSeg) (k : Nat) : Int :=
  if k < denseTaps m then t.dense.getD k 0
  else match t.wins.find? fun w => (w.start.map fun a => decide (a ≤ k ∧ k < a + 64)).getD false with
    | some w => w.taps.getD (k - w.start.getD 0) 0
    | none => (estimates segs k 1).headD 0

/-- The snapshot of a port over the echo span of a mode. -/
def snapshot (m : Nat) (t : Taps) (segs : List ScoutSeg) : List Int := (List.range (echoSpan m)).map (snapTap m t segs)

/-- A run takes its snapshot at the end of a scout cycle, unless a reversion fell into the cycle (R312, R315). -/
def takeSnap (t : Taps) (segs : List ScoutSeg) (r : SoundRun) : SoundRun :=
  if r.spoiled then { r with spoiled := false }
  else if r.left = 0 then r
  else
    let new := snapshot r.mode t segs
    { r with left := r.left - 1, taken := r.taken + 1, starts := usedStarts t
             sums := if r.taken = 0 then new else List.zipWith (· + ·) r.sums new }

/-- The end of a scout cycle that has estimated `segs`. -/
def soundSnapshot (s : State) (p : Nat) (segs : List ScoutSeg) : State :=
  let t := (s.port p).dsp.taps
  updHealth s p fun h => { h with run := h.run.map (takeSnap t segs) }

/-- The profile of a run: ρ by tap in 2⁻¹⁵, from the average of its snapshots and the loss that training has measured (R310). -/
def rhoProfile (r : SoundRun) (loss : Option Nat) : List Int :=
  let avg := r.sums.map fun x => (x : Rat) / (r.taken : Rat)
  (List.range (echoSpan r.mode)).map fun k => (Config.reflect avg loss k).toInt

/-- A reversion discards the snapshot of the present scout cycle (R315). -/
def soundSpoil (s : State) (p : Nat) : State :=
  updHealth s p fun h => { h with run := h.run.map fun r => { r with spoiled := true } }

/-! ### Distance and return loss (R308, R311) -/

/-- Symbol rate of a mode in Bd; the cable test's stimulus runs at that of VS50 (R322). -/
def symbolRate (m : Nat) : Nat :=
  match m with
  | 4 => 750000000 | 5 => 1406250000 | 6 => 2812500000 | 7 => 5625000000 | 8 => 14062500000 | _ => 28125000000

/-- Millimetres from the pins to `n`/`d` of a tap, to the nearest, at a velocity factor in thousandths: k·T·v/2 (R308). -/
def tapMm (rate velocity n d : Nat) : Nat := (n * 299792458 * velocity * 2 + 2 * rate * d) / (4 * rate * d)

/-- Return loss of |ρ| in 2⁻¹⁵, in 0.1 dB to the nearest: the least t with 10^(2t + 1)·ρ⁴⁰⁰ at or above 32768⁴⁰⁰. -/
def returnLoss (rho : Nat) : Nat :=
  ((List.range 910).find? fun t => 32768 ^ 400 ≤ 10 ^ (2 * t + 1) * rho ^ 400).getD 910

/-- The return loss of |ρ| lies at or below a threshold in dB. -/
def detected (rho thr : Nat) : Bool := rho != 0 && 32768 ^ 20 ≤ 10 ^ thr * rho ^ 20

/-- Magnitude of a profile at a tap, 0 outside it. -/
def magAt (prof : List Int) (k : Nat) : Nat := (prof.getD k 0).natAbs

/-- Local maxima of |ρ| at tap 8 and beyond that pass the detection threshold (R311). -/
def peaks (prof : List Int) (thr : Nat) : List Nat :=
  (List.range prof.length).filter fun k =>
    8 ≤ k && magAt prof (k - 1) < magAt prof k && magAt prof (k + 1) ≤ magAt prof k && detected (magAt prof k) thr

/-- Position of the peak at tap `k` by a parabola over three taps, to 1 mm (R311). -/
def peakMm (prof : List Int) (rate velocity k : Nat) : Nat :=
  let a : Int := magAt prof (k - 1)
  let b : Int := magAt prof k
  let c : Int := magAt prof (k + 1)
  let m := 2 * (2 * b - a - c)
  if m ≤ 0 then tapMm rate velocity k 1 else tapMm rate velocity ((k : Int) * m + (c - a)).toNat m.toNat

/-- Taps on one side of a peak with |ρ| at or above half of it. -/
def halfRun (prof : List Int) (half : Nat) : List Nat → Nat
  | [] => 0
  | k :: l => if half ≤ 2 * magAt prof k then 1 + halfRun prof half l else 0

/-- Width of the peak at tap `k` (R311). -/
def peakWidth (prof : List Int) (k : Nat) : Nat :=
  let h := magAt prof k
  1 + halfRun prof h (List.range k).reverse + halfRun prof h ((List.range (prof.length - k - 1)).map (k + 1 + ·))

/-- A reflection without its flags. -/
def reflOf (prof : List Int) (rate velocity k : Nat) : Refl :=
  { pos := peakMm prof rate velocity k, tap := k, rho := prof.getD k 0, rl := returnLoss (magAt prof k)
    width := sat 8 (peakWidth prof k), flags := 0, delta := none }

/-- `r` lies at 2b − a, within the match window, of two stronger reflections a < b (R311). -/
def possibleMultiple (all : List Refl) (window : Nat) (r : Refl) : Bool :=
  let strong := all.filter fun x => r.rho.natAbs < x.rho.natAbs
  strong.any fun a => strong.any fun b => a.pos < b.pos &&
    r.pos + a.pos ≤ 2 * b.pos + window && 2 * b.pos ≤ r.pos + a.pos + window

/-- Insert a reflection by falling |ρ|. -/
def insertRefl (r : Refl) : List Refl → List Refl
  | [] => [r]
  | x :: l => if x.rho.natAbs < r.rho.natAbs then r :: x :: l else x :: insertRefl r l

/-- The 16 reflections of lowest return loss, in position order (R311). -/
def strongest16 (l : List Refl) : List Refl :=
  let keep := ((l.foldl (fun a r => insertRefl r a) []).take 16).map (·.tap)
  l.filter fun r => keep.contains r.tap

/-! ### Comparison with a baseline (R317 to R319) -/

/-- Distance of two positions. -/
def gap (a b : Nat) : Nat := (a - b) + (b - a)

/-- The nearest baseline reflection within the window that is not taken: its number. -/
def nearestBase (base : List BaseRefl) (taken : List Nat) (window pos : Nat) : Option Nat :=
  ((List.range base.length).filter fun i => !taken.contains i &&
    gap ((base.getD i ⟨0, 0, 0, 0⟩).pos) pos ≤ window).foldl (fun best i => match best with
      | none => some i
      | some j => if gap (base.getD i ⟨0, 0, 0, 0⟩).pos pos < gap (base.getD j ⟨0, 0, 0, 0⟩).pos pos then some i else some j) none

/-- Match run reflections in position order: with each its baseline reflection. -/
def matchRefls (base : List BaseRefl) (window : Nat) : List Nat → List Refl → List (Refl × Option Nat)
  | _, [] => []
  | taken, r :: l => match nearestBase base taken window r.pos with
    | some i => (r, some i) :: matchRefls base window (i :: taken) l
    | none => (r, none) :: matchRefls base window taken l

/-- Return loss of a run reflection minus that of its baseline reflection, 0.1 dB. -/
def deltaOf (base : List BaseRefl) (r : Refl) (i : Nat) : Int :=
  (r.rl : Int) - returnLoss (base.getD i ⟨0, 0, 0, 0⟩).rho.natAbs

/-- Differences of a run: (kind, key, position) with kind 0 new, 1 changed, 2 lost (R318). -/
def differences (base : List BaseRefl) (change : Nat) (ms : List (Refl × Option Nat)) : List (Nat × Nat) :=
  ms.filterMap (fun m => match m.2 with
    | none => some (0, m.1.pos)
    | some i => if change ≤ (deltaOf base m.1 i).natAbs then some (1, i) else none) ++
    ((List.range base.length).filter fun i => !(ms.any fun m => m.2 == some i)).map fun i => (2, i)

/-- A followed difference is the one of this run. -/
def sameDiff (window : Nat) (d : Diff) (x : Nat × Nat) : Bool :=
  d.kind == x.1 && (if d.kind = 0 then gap d.key x.2 ≤ window else d.key == x.2)

/-- The differences followed after a run, each with whether this run has first confirmed it (R319). -/
def follow (window confirm : Nat) (old : List Diff) (now : List (Nat × Nat)) : List (Diff × Bool) :=
  let kept := old.filterMap fun d =>
    if now.any (sameDiff window d) then
      let c : Bool := d.confirmed || confirm ≤ d.runs + 1
      some ({ d with runs := d.runs + 1, absent := 0, confirmed := c }, c && !d.confirmed)
    else if d.confirmed ∧ d.absent + 1 < confirm then some ({ d with absent := d.absent + 1 }, false)
    else none
  let fresh := (now.filter fun x => !(old.any fun d => sameDiff window d x)).map fun x =>
    (({ kind := x.1, key := x.2, runs := 1, absent := 0, confirmed := confirm ≤ 1 } : Diff), decide (confirm ≤ 1))
  kept ++ fresh

/-- Insert an entry by rising position. -/
def insertPos (r : Refl) : List Refl → List Refl
  | [] => [r]
  | x :: l => if r.pos < x.pos then r :: x :: l else x :: insertPos r l

end Sys2Proof.Machine
end

