-- ==== Sys2Proof/Machine/Dsp.lean ====
section
/-! DEFINITION. The receive DSP: gauge windows, adaptation, anchors and reversion, the scout, windows and cancellers, and the
commands of opcodes 0x12xx (R171 to R217). -/

namespace Sys2Proof.Machine

/-- Change the adaptation record of a port. -/
def updDsp (s : State) (p : Nat) (f : Dsp → Dsp) : State := s.updPort p fun x => { x with dsp := f x.dsp }

/-- Anchors are enabled at a port. -/
def anchorsOn (s : State) (p : Nat) : Bool := (s.pcfg p).dsp.flags.testBit 0

/-! ### The excitation gauge (R176 to R178) -/

/-- Levels of the code that a port's transmitter uses: PAM2 in training, but for the PAM4 patterns of VS50 from phase 0x06 on; the
two levels of 10BASE-T1S, else those of its mode (R171, R176, R226). -/
def codeLevels (x : Port) : Nat :=
  if x.resMode ≤ 2 ∨ (x.st = .training ∧ (x.resMode ≠ 9 ∨ x.start.phase ≤ 5)) then 2 else if x.resMode ≤ 4 then 3 else 4

/-- Least and greatest share of a level, in %. -/
def levelShare (levels : Nat) : Nat × Nat := if levels = 2 then (35, 65) else if levels = 3 then (20, 45) else (15, 35)

/-- A window is excited (R176). -/
def excited (levels : Nat) (g : StreamGauge) : Bool :=
  g.counts.length == levels && g.lags.length == 8 && g.lags.all (fun v => v.natAbs ≤ 100) &&
    g.counts.all fun n => (levelShare levels).1 * 4096 ≤ n * 100 && n * 100 ≤ (levelShare levels).2 * 4096

/-- A low-power idle state in which the transmitter sends bursts: Sleep, Refresh or Wake. -/
def burstState (n : Nat) : Bool := n == 1 || n == 3 || n == 4

/-- What the gauge finds of one stream: present, excited, guarded (R176 to R178). -/
structure Gauged where
  present : Bool
  excited : Bool
  guarded : Bool
  deriving DecidableEq, Repr

/-- Gauge one stream: `silent` when the model knows its transmitter absent, `burst` when in Sleep, Refresh or Wake. -/
def gaugeStream (c : DspCfg) (levels : Nat) (g : StreamGauge) (silent burst : Bool) : Gauged :=
  let present := g.present && !silent
  let ex := present && excited levels g
  { present, excited := ex, guarded := !ex || (c.flags.testBit 2 && decide (c.idleRun < g.idle)) || burst }

/-- The received stream of a port. -/
def gaugeRx (s : State) (p : Nat) (g : StreamGauge) : Gauged :=
  let x := s.port p
  let vs := x.resMode == 9
  gaugeStream (s.pcfg p).dsp (codeLevels x) g (vs && (x.vs.lock != 2 || x.vs.rxLpi == 2)) (if vs then burstState x.vs.rxLpi else g.burst)

/-- A port's own transmit stream. -/
def gaugeTx (s : State) (p : Nat) (g : StreamGauge) : Gauged :=
  let x := s.port p
  let vs := x.resMode == 9
  gaugeStream (s.pcfg p).dsp (codeLevels x) g (vs && x.vs.txLpi == 2) (if vs then burstState x.vs.txLpi else g.burst)

/-- An empty stream. -/
def noStream : StreamGauge := { present := false, counts := [], lags := [], idle := 0, burst := false }

/-- The stream of canceller `k`'s aggressor, under the PAM2 gauge while that trains (R195); none for a canceller that takes no part:
unused, frozen, or without input. -/
def gaugeNext (s : State) (p k : Nat) (g : StreamGauge) : Option Gauged :=
  let n := (s.port p).dsp.taps.nexts.getD k {}
  match n.aggr with
  | none => none
  | some a =>
    let y := s.port a
    let r := gaugeStream (s.pcfg p).dsp (if y.st = .training then 2 else codeLevels y) g (y.resMode == 9 && y.vs.txLpi == 2)
      (if y.resMode = 9 then burstState y.vs.txLpi else g.burst)
    if n.st = 2 ∨ !runsMode s a (s.port p).resMode ∨ !r.present then none else some r

/-! ### Tap updates (R175, R178, R179) -/

/-- Gear exponent of a block: acquisition, tracking with the step offset, or guarded (R179). -/
def gear (s : State) (p acq : Nat) (guarded : Bool) : Nat :=
  if (s.port p).dsp.st = 1 then acq
  else if guarded then acq + 6
  else ((acq : Int) + 4 + (s.pcfg p).dsp.stepOff).toNat

/-- The receiver holds its adaptation for the frame after one with BF (R147). -/
def bfHold (s : State) (p : Nat) : Bool := (s.port p).resMode == 9 && (s.port p).vs.hold

/-- A block of a stream adapts in this window: present, not held for BF, not frozen, and not a guarded block without an anchor
(R147, R178, R200). -/
def adapts (s : State) (p : Nat) (g : Gauged) : Bool :=
  g.present && !bfHold s p && (s.port p).dsp.st < 4 && (s.port p).dsp.st != 0 &&
    (!g.guarded || !anchorsOn s p || (s.port p).dsp.anchor.isSome)

/-- Exponent of a canceller: acquisition while it is seeded, guarded while its aggressor trains (R179, R195). -/
def nextGear (s : State) (p : Nat) (n : Next) (g : Gauged) : Nat :=
  if n.st = 3 then 11
  else if ((n.aggr.map fun a => (s.port a).st == .training).getD false) ∧ (s.port p).dsp.st ≠ 1 then 17
  else gear s p 11 g.guarded

/-- The taps of a port after a window. The FFE main tap is held. -/
def adaptWindow (s : State) (p : Nat) (w : GaugeWin) (rx tx : Gauged) (nx : List (Option Gauged)) : Taps :=
  let t := (s.port p).dsp.taps
  let c := s.freeCtr
  let main := (ffeTaps (s.port p).resMode).1
  let t1 := if adapts s p rx then
      { t with ffe := (adaptTaps c 0 (gear s p 10 rx.guarded) t.ffe w.ffe).mapIdx fun i v => if i = main then t.ffe.getD i 0 else v
               dfe := adaptTaps c 100 (gear s p 9 rx.guarded) t.dfe w.dfe }
    else t
  let k := gear s p 11 tx.guarded
  let t2 := if adapts s p tx then
      { t1 with dense := adaptTaps c 200 k t.dense w.dense
                wins := t.wins.mapIdx fun i x =>
                  if x.start.isSome then { x with taps := adaptTaps c (1000 + 64 * i) k x.taps (w.wins.getD i []) } else x }
    else t1
  { t2 with nexts := t.nexts.mapIdx fun i n => match nx.getD i none with
      | some g => if adapts s p g then { n with taps := adaptTaps c (2000 + 48 * i) (nextGear s p n g) n.taps (w.nexts.getD i []) } else n
      | none => n }

/-- A window in shadow training after a gauge window in which its stream trains it, in acquisition gear (R185). -/
def trainShadow (s : State) (p : Nat) (w : GaugeWin) (tx : Gauged) (x : Shadow) : Shadow :=
  if adapts s p tx then { x with taps := adaptTaps s.freeCtr 3000 11 x.taps w.shadow, left := x.left - 1 } else x

/-- Timing recovery after a window: held while no received signal is present, and from then, or from a reversion, to the next
header in VS50 or PCS block in other modes; the master tracks only phase (R129, R174). -/
def timingAfter (x : Port) (w : GaugeWin) (present : Bool) : Timing :=
  let t := x.dsp.timing
  if !present then { t with held := true }
  else if x.resMode = 9 ∧ t.held then t
  else { freq := if x.resRole = 1 then 0 else w.freq, phase := w.phase, held := false }

/-! ### Drift (R201, R202) -/

/-- Σ(w − a)² and Σa². -/
def driftSums (ws as : List Int) : Nat × Nat :=
  (((List.zipWith (fun w a => ((w - a) * (w - a)).natAbs) ws as)).sum, (as.map fun a => (a * a).natAbs).sum)

/-- 10^(t/100) is at most n/d. -/
def tenthsLe (n d : Nat) (t : Int) : Bool :=
  if 0 ≤ t then 10 ^ t.toNat * d ^ 100 ≤ n ^ 100 else d ^ 100 ≤ n ^ 100 * 10 ^ (-t).toNat

/-- The greatest t from `lo` on that holds, in steps of falling powers of two. -/
def tenthsFrom (n d : Nat) : Nat → Int → Int
  | 0, lo => lo
  | k + 1, lo => if tenthsLe n d (lo + 2 ^ k) then tenthsFrom n d k (lo + 2 ^ k) else tenthsFrom n d k lo

/-- 10·log10(n/d) in 0.1 dB, rounded down; no drift at all, and a drift from taps of zero, are the ends of the range. -/
def driftTenths (n d : Nat) : Int := if n = 0 then -32767 else if d = 0 then 32767 else tenthsFrom n d 12 (-2048)

/-- 10·log10(n/d) exceeds −`limit` dB. -/
def driftExceeds (limit n d : Nat) : Bool := d ^ 10 < n ^ 10 * 10 ^ limit

/-- A block's drift: its code in `DSP_STATUS`, D in 0.1 dB, and whether it exceeds the limit. -/
abbrev Drift := Nat × Int × Bool

/-- Drift of a section. -/
def sectionDrift (s : State) (p code : Nat) (ws as : List Int) : Drift :=
  let (n, d) := driftSums ws as
  (code, driftTenths n d, driftExceeds (s.pcfg p).dsp.limit n d)

/-- Drifts of the CTLE, FFE and DFE, when guarded, adapted and with valid entries. The CTLE's difference in settings ranks among the
others, and is reported, as 0.5 dB a step, which R201 does not say (DESIGN CHOICE, log entry 132). -/
def rxDrifts (s : State) (p : Nat) (a : Anchor) (rx : Gauged) : List Drift :=
  let t := (s.port p).dsp.taps
  if rx.guarded && adapts s p rx && !a.staleRx then
    [(1, 5 * (((t.ctle : Int) - a.taps.ctle).natAbs : Int), t.ctle != a.taps.ctle), sectionDrift s p 2 t.ffe a.taps.ffe,
     sectionDrift s p 3 t.dfe a.taps.dfe]
  else []

/-- Drift of window `i`; a moved one only exceeds, by a value that is open. -/
def winDrift (s : State) (p : Nat) (a : Anchor) (i : Nat) : List Drift :=
  let x := (s.port p).dsp.taps.wins.getD i {}
  let y := a.taps.wins.getD i {}
  if a.staleWin.testBit i ∨ y.start.isNone then []
  else if x.start = y.start then [sectionDrift s p 5 x.taps y.taps]
  else [(5, (Config.movedDrift s.freeCtr).toInt, true)]

/-- Drifts of the echo canceller. -/
def txDrifts (s : State) (p : Nat) (a : Anchor) (tx : Gauged) : List Drift :=
  if tx.guarded && adapts s p tx then
    sectionDrift s p 4 (s.port p).dsp.taps.dense a.taps.dense :: (List.range 8).flatMap (winDrift s p a)
  else []

/-- Drifts of the NEXT cancellers. -/
def nextDrifts (s : State) (p : Nat) (a : Anchor) (nx : List (Option Gauged)) : List Drift :=
  (List.range 3).filterMap fun k => match nx.getD k none with
    | some g =>
      if g.guarded && adapts s p g && !a.staleNext.testBit k then
        some (sectionDrift s p (6 + k) ((s.port p).dsp.taps.nexts.getD k {}).taps (a.taps.nexts.getD k {}).taps)
      else none
    | none => none

/-- The block of largest drift. -/
def worstDrift (l : List Drift) : Option Drift := l.foldl (fun b x => match b with
  | some y => if y.2.1 < x.2.1 then some x else b
  | none => some x) none

/-- The margin excuses no drift: not available, or below the anchor's plus the credit (R202). -/
def noExcuse (s : State) (p : Nat) (a : Anchor) : Bool := match (s.port p).health.margin with
  | some m => decide (m < a.margin + (s.pcfg p).dsp.credit)
  | none => true

/-- The drift check of a window (R201, R202): the new state, and whether it found a violation. -/
def driftCheck (s : State) (p : Nat) (rx tx : Gauged) (nx : List (Option Gauged)) : State × Bool :=
  match (s.port p).dsp.anchor with
  | none => (s, false)
  | some a =>
    if !anchorsOn s p ∨ (s.port p).dsp.suspend ≠ 0 then (s, false)
    else
      let ds := rxDrifts s p a rx ++ txDrifts s p a tx ++ nextDrifts s p a nx
      match worstDrift ds with
      | none => (s, false)
      | some (code, v, _) =>
        let s1 := updDsp s p fun d => { d with worst := some v, worstBlock := code }
        if ds.any (fun x => x.2.2) ∧ noExcuse s p a then
          (updDsp (s1.bump 0x1210 p 2) p fun d => { d with st := 4, revert := some (code, v, (s.port p).health.margin) }, true)
        else (s1, false)

/-! ### Capture (R199, R215) -/

/-- Capture an anchor; a VS50 port updates its relink record with it (R198, R199, R244). -/
def captureAnchor (s : State) (p : Nat) (m : Int) : State :=
  let x := s.port p
  let s1 := (updDsp s p fun d => { d with
    anchor := some { taps := d.taps, margin := m, time := s.now }, lastCapture := some s.now }).bump 0x1210 p 0
  match s.relinks.get none p with
  | some r =>
    if x.resMode = 9 then
      { s1 with relinks := s1.relinks.set none p (some { r with
          pre := x.vs.pre, post := x.vs.post, taps := x.dsp.taps, margin := some m, time := s.now
          updates := (r.updates + 1) % 2 ^ 32 }) }
    else s1
  | none => s1

/-- Margins in force within the last `ms` milliseconds: those reported in them and the one before. -/
def marginsWithin (from_ : Nat) : List (Nat × Int) → List Int
  | [] => []
  | (t, m) :: l => if from_ ≤ t then m :: marginsWithin from_ l else [m]

/-- The margins lie within 0.5 dB. -/
def steady (l : List Int) : Bool := match l with
  | [] => false
  | m :: l => decide (l.foldl max m - l.foldl min m ≤ 5)

/-- The conditions of R199. -/
def captureDue (s : State) (p : Nat) (m : Int) : Bool :=
  let c := (s.pcfg p).dsp
  let d := (s.port p).dsp
  let settle := c.settle * 4000000
  anchorsOn s p && (s.port p).st == .up && decide (d.trackSince + settle ≤ s.now) && decide (c.floor ≤ m) &&
    steady (marginsWithin (s.now - settle) d.hist) &&
    (d.anchor.isNone || (d.lastCapture.map fun t => decide (t + c.interval * 4000000000 ≤ s.now)).getD true)

/-! ### A gauge window ends -/

/-- Next adaptation state after a window without a violation (table of adaptation states, R205). -/
def nextAdapt (st : Nat) (guarded : Bool) : Nat :=
  match st with
  | 2 => if guarded then 3 else 2
  | 3 => if guarded then 3 else 2
  | 5 => if guarded then 5 else 2
  | n => n

/-- Counts of consecutive excited windows past the thresholds of R180, and windows since the last step. -/
def ctleWindow (m : Nat) (d : Dsp) (ex : Bool) : Dsp :=
  let v := d.taps.ffe.getD ((ffeTaps m).1 + 1) 0
  { d with
    ctleUp := if ex ∧ v * 100 < -35 * 16384 then d.ctleUp + 1 else 0
    ctleDown := if ex ∧ -10 * 16384 < v * 100 then d.ctleDown + 1 else 0
    ctleWait := min 256 (d.ctleWait + 1) }

/-- Reversions counted in the last second. -/
def recentReverts (s : State) (d : Dsp) : Nat := (d.reverts.filter fun t => s.now < t + 4000000000).length

/-- A window of a port in Test. A VS50 pattern of test modes 1 to 4 sends as many symbols as the window has received, and the receive
checker compares those of modes 3 and 4, the precoder undone for mode 4; the checker of a standard mode reports its counts. A
far-end loopback's elastic buffer, of 256 PCS blocks or 40 at VS50, recentres when it has run over or empty (R628, R630, R631). -/
def testWindow (s : State) (p : Nat) (w : TestWin) : State :=
  let x := s.port p
  let t := x.test
  if t.action = 4 then
    let r := elastic (if x.resMode = 9 then 20 else 128) t.fill w.drift
    (s.updPort p fun y => { y with test := { y.test with fill := r.1 } }).bumpBy 0x8022 p 7 r.2
  else if t.action ≠ 5 then s
  else if t.mode ≠ 9 then
    if t.checker then ((s.bumpBy 0x8022 p 4 w.bits).bumpBy 0x8022 p 5 w.errs).bumpBy 0x8022 p 6 w.losses else s
  else if 5 ≤ t.testMode then s
  else
    let rx := w.symbols.map (·.toNat)
    let pre : Bool := t.testMode == 4
    let checks : Bool := t.checker && 3 ≤ t.testMode
    let chk := if checks then checkSyms (t.testMode - 2) t.chk (unprecoded pre t.chkPrev rx) else { t.chk with bits := 0, errs := 0 }
    let lost : Bool := chk.locked && Config.lockLost chk.bits chk.errs
    let (gs, gen) := vs50Syms t.testMode rx.length t.gen
    let ys := if pre then precode t.genPrev gs else gs
    let s1 := s.updPort p fun y => { y with test := { y.test with
      chk := if lost then {} else chk, chkPrev := rx.getLast?.getD t.chkPrev, gen
      genPrev := ys.getLast?.getD t.genPrev, symbols := ys } }
    ((s1.bumpBy 0x8022 p 4 chk.bits).bumpBy 0x8022 p 5 chk.errs).bumpBy 0x8022 p 6 (b2n lost)

/-- A gauge window of an adapting port: excitation, guarding, adaptation, drift check, anchor capture and the end of Held. -/
def gaugeWindow (s : State) (q : Nat) (w : GaugeWin) : State :=
  let m := (s.port q).resMode
  let eee : Bool := 5 ≤ m && m ≤ 8 && (s.port q).power.eee
  let partnerLpi : Bool := w.partnerLpi && eee
  let rx := gaugeRx s q w.rx
  let tx := gaugeTx s q w.tx
  let nx := (List.range 3).map fun k => gaugeNext s q k (w.aggr.getD k noStream)
  let guarded := rx.guarded || (echoSpan m != 0 && tx.guarded) || nx.any fun g => (g.map (·.guarded)).getD false
  let live := portLive s q
  let s0 := if live && eee then setLpi s q (s.port q).power.lpiTx partnerLpi else s
  let s1 := if guarded then s0.bump 0x1210 q 3 else s0
  let s2 := if rx.present && !rx.excited then s1.bump 0x1210 q 4 else s1
  let taps := adaptWindow s q w rx tx nx
  let partner := if m = 9 then (s.port q).vs.rxLpi != 0 else partnerLpi
  let own := if m = 9 then (s.port q).vs.txLpi != 0 else (s.port q).power.lpiTx
  let pre := (ffeTaps m).1
  let idle := (s.pcfg q).dsp.idleRun < w.rx.idle ∨ (s.pcfg q).dsp.idleRun < w.tx.idle
  let s3 := updDsp s2.draw q fun d =>
    let d1 := ctleWindow m { d with taps } rx.excited
    { d1 with
      gauge := b2n rx.excited + 2 * b2n tx.excited + (if idle then 4 else 0) + 8 * b2n partner + 16 * b2n own
      recent := if rx.excited then ((taps.ffe.getD (pre - 1) 0, taps.dfe.getD 0 0) :: d.recent).take 16 else d.recent
      moving := d.moving.map (trainShadow s q w tx), timing := timingAfter (s.port q) w rx.present
      scoutWins := if d.st = 2 ∧ !guarded then d.scoutWins + 1 else d.scoutWins
      anchor := if w.txChanged ∧ m ≠ 9 then d.anchor.map fun a => { a with staleRx := true } else d.anchor
      unstable := d.unstable && !(recentReverts s d < (s.pcfg q).dsp.unstable) }
  let s4 := updHealth s3 q fun h => { h with absent := live && 3 ≤ m && !rx.present }
  let (s5, bad) := if (s.port q).dsp.st = 2 ∨ (s.port q).dsp.st = 3 then driftCheck s4 q rx tx nx else (s4, false)
  let s6 := updDsp s5 q fun d => { d with suspend := d.suspend - 1 }
  if bad then s6
  else
    let n := nextAdapt (s.port q).dsp.st guarded
    let s7 := updDsp s6 q fun d => { d with st := n, trackSince := if n = 2 ∧ d.st ≠ 2 then s.now else d.trackSince }
    match (s.port q).health.margin with
    | some v => if n = 2 ∧ (s.port q).dsp.st = 2 ∧ captureDue s7 q v then captureAnchor s7 q v else s7
    | none => s7

/-- GAUGE_WINDOW_END: what a port in Test has sent and received, and what an adapting port does. -/
def execGaugeWindowEnd (p : PortId) (w : GaugeWin) (s : State) : Host.Outcome State Fault Refusal :=
  let s1 := if (s.port p.val).st = .test then testWindow s p.val w.test else s
  .next (if (s1.port p.val).dsp.st = 0 then s1 else gaugeWindow s1 p.val w)

/-! ### Reversion (R204, R206, R208, R209) -/

/-- Windows after a reversion: valid entries restored, others kept; a restored one may not overlap a kept one. -/
def revertWins (a : Anchor) (cur : List EchoWin) : List EchoWin :=
  let kept := ((List.range 8).filter a.staleWin.testBit).filterMap fun i => (cur.getD i {}).start
  cur.mapIdx fun i x =>
    if a.staleWin.testBit i then x
    else
      let y := a.taps.wins.getD i {}
      match y.start with
      | some b => if apart kept b then y else {}
      | none => y

/-- Taps after a reversion. -/
def revertTaps (a : Anchor) (t : Taps) : Taps :=
  { ctle := if a.staleRx then t.ctle else a.taps.ctle
    ffe := if a.staleRx then t.ffe else a.taps.ffe
    dfe := if a.staleRx then t.dfe else a.taps.dfe
    dense := a.taps.dense
    wins := revertWins a t.wins
    nexts := t.nexts.mapIdx fun k n =>
      let y := a.taps.nexts.getD k {}
      if a.staleNext.testBit k then n else { y with st := if n.aggr = y.aggr then n.st else y.st } }

/-- More reversions within one second than the threshold: `ANCHOR_UNSTABLE`, which may start a Sounding run (R208, R313). -/
def unstableNote (s : State) (p : Nat) : State :=
  let d := (s.port p).dsp
  let n := recentReverts s d
  if (s.pcfg p).dsp.unstable < n ∧ !d.unstable then
    soundTrigger (raise (updDsp s p fun d => { d with unstable := true }) 0x1202 1 (portT p) (be 1 (sat 8 n))) p 1
  else s

/-- The reversion: valid entries restored, what is under way abandoned, the port in Held, timing recovery held, and the commands
that asked for it answered (R174, R204, R215). Block, drift and margin of one by command alone, of which the spec does not speak, are
the last check's worst and the present margin (DESIGN CHOICE, log entry 133). -/
def revertNow (s : State) (p : Nat) : State :=
  let d := (s.port p).dsp
  let (code, drift, margin, cause) : Nat × Option Int × Option Int × Nat := match d.revert with
    | some (c, v, m) => (c, some v, m, 0)
    | none => (d.worstBlock, d.worst, (s.port p).health.margin, 1)
  let s1 := updDsp (s.bump 0x1210 p 1) p fun d => { d with
    st := 5, revert := none, moving := none, replacing := none, revertBy := [], timing := { d.timing with held := true }
    taps := match d.anchor with
      | some a => revertTaps a d.taps
      | none => d.taps
    reverts := s.now :: d.reverts.filter fun t => s.now < t + 4000000000 }
  let s2 := raise s1 0x1201 1 (portT p) (be 1 code ++ margin16 drift ++ margin16 margin ++ be 1 cause)
  unstableNote (soundSpoil (d.revertBy.foldl (fun s r => reply s 0x1207 r .ok []) s2) p) p

/-- A reversion is due: after a violation, or by command (R204, R215). -/
def revertDue (s : State) (p : Nat) : Bool := (s.port p).dsp.st == 4 || !(s.port p).dsp.revertBy.isEmpty

/-- The received stream of a port is absent, so that its receive boundary is immediate (R203). -/
def streamAbsent (s : State) (p : Nat) : Bool :=
  if (s.port p).resMode = 9 then (s.port p).vs.lock != 2 || (s.port p).vs.rxLpi == 2 else (s.port p).health.absent

/-! ### CTLE (R172, R180) -/

/-- CTLE_STEP: sixteen consecutive excited windows past a threshold, and the gear's spacing since the last step. -/
def execCtleStep (p : PortId) (s : State) : Host.Outcome State Fault Refusal :=
  .next (
    let q := p.val
    let d := (s.port q).dsp
    let space := if d.st = 1 then 16 else 256
    let step := fun (n : Nat) =>
      let s1 := updDsp s q fun d => { d with taps := { d.taps with ctle := n }, ctleUp := 0, ctleDown := 0, ctleWait := 0 }
      if portLive s q then s1.bump 0x1210 q 9 else s1
    if (d.st ≠ 1 ∧ d.st ≠ 2) ∨ d.ctleWait < space ∨ bfHold s q then s
    else if 16 ≤ d.ctleUp ∧ d.taps.ctle < ctleTop (s.port q).resMode then step (d.taps.ctle + 1)
    else if 16 ≤ d.ctleDown ∧ 0 < d.taps.ctle then step (d.taps.ctle - 1)
    else s)

/-! ### The scout (R182 to R187, R190 to R192) -/

/-- A cycle visits a segment: in the echo span, beyond the dense section, and not covered by windows (R183). -/
def visits (s : State) (p seg : Nat) : Bool :=
  let m := (s.port p).resMode
  let starts := usedStarts (s.port p).dsp.taps
  denseTaps m ≤ 64 * seg && 64 * seg < echoSpan m &&
    !((List.range 8).all fun j => starts.any fun a => a ≤ 64 * seg + 8 * j && 64 * seg + 8 * j < a + 64)

/-- Segments that a cycle visits. -/
def scouted (s : State) (p : Nat) (segs : List ScoutSeg) : List ScoutSeg := segs.filter fun g => visits s p g.seg

/-- Gauge windows of a whole cycle: 2²⁰ symbols for each segment that it visits and for eight of each eligible aggressor (R182,
R183). -/
def cycleWins (s : State) (p : Nat) : Nat :=
  let aggr := (List.range 8).filter fun i => aggrEligible s p (p / 8 * 8 + i) (s.port p).dsp.group
  256 * (((List.range 68).filter (visits s p)).length + 8 * aggr.length)

/-- A candidate's start. -/
def candidate (m : Nat) (g : ScoutSeg) : Nat := windowStart m (peakLag (64 * g.seg) g.taps)

/-- Fold its scout estimates, once, into each window that one of the candidates at `as` would overlap (R184). -/
def foldInto (segs : List ScoutSeg) (as : List Nat) (wins : List EchoWin) : List EchoWin :=
  wins.map fun x => match x.start with
    | some b => if apart as b then x
      else { x with taps := List.zipWith (fun w e => clampTap (w + e)) x.taps (estimates segs b 64) }
    | none => x

/-- Windows that automatic placement may use. -/
def freeWin (s : State) (p : Nat) : Option Nat :=
  (List.range 8).find? fun w => !(s.pcfg p).pins.testBit w && ((s.port p).dsp.taps.wins.getD w {}).start.isNone

/-- The window of lowest cancelled energy that is not pinned. -/
def weakestWin (s : State) (p : Nat) (cancelled : List Int) : Option Nat :=
  ((List.range 8).filter fun w => !(s.pcfg p).pins.testBit w).foldl (fun b w => match b with
    | some v => if cancelled.getD w 0 < cancelled.getD v 0 then some w else b
    | none => some w) none

/-- The window that begins to train in shadow, from the scout's estimates, for 2¹⁶ symbols (R185). -/
def shadowAt (segs : List ScoutSeg) (w a : Nat) : Shadow := { win := w, start := a, taps := estimates segs a 64, left := 16 }

/-- Placement at the end of a cycle: at most one window begins shadow training (R184, R185). -/
def placeWindow (s : State) (p : Nat) (segs : List ScoutSeg) (cancelled : List Int) : State :=
  let m := (s.port p).resMode
  if !hasWindows m ∨ !(s.pcfg p).dsp.flags.testBit 1 then s
  else
    let used := usedStarts (s.port p).dsp.taps
    let cs := (byEnergy segs).filter fun g => !g.taps.isEmpty
    let s1 := updTaps s p fun t => { t with wins := foldInto segs (cs.map (candidate m)) t.wins }
    match cs.filter fun g => apart used (candidate m g) with
    | [] => s1
    | g :: _ =>
      if (s.port p).dsp.moving.isSome then s1
      else match freeWin s p, used.length, weakestWin s p cancelled with
        | some w, _, _ => if -400 ≤ g.energy then updDsp s1 p fun d => { d with moving := some (shadowAt segs w (candidate m g)) } else s1
        | none, 8, some w =>
          if cancelled.getD w 0 + 30 ≤ g.energy then updDsp s1 p fun d => { d with moving := some (shadowAt segs w (candidate m g)) } else s1
        | _, _, _ => s1

/-- The coupling that the scout has measured of an aggressor. -/
def couplingOf (cs : List Coupling) (a : Nat) : Option Int := (cs.find? fun c => c.aggr.val == a).map (·.energy)

/-- Coupling of canceller `k`'s aggressor; one that is not eligible counts as the least. -/
def heldCoupling (s : State) (p : Nat) (cs : List Coupling) (k : Nat) : Option Int :=
  match ((s.port p).dsp.taps.nexts.getD k {}).aggr with
  | some a => if aggrEligible s p a (s.port p).dsp.group then couplingOf cs a else none
  | none => none

/-- `x` is less than `y`, with none as the least. -/
def optLt (x y : Option Int) : Bool := match x, y with
  | some a, some b => decide (a < b)
  | none, some _ => true
  | _, none => false

/-- The canceller of least coupling. -/
def leastNext (s : State) (p : Nat) (cs : List Coupling) : Nat :=
  [1, 2].foldl (fun b k => if optLt (heldCoupling s p cs k) (heldCoupling s p cs b) then k else b) 0

/-- The replacement at the end of a cycle, when all three cancellers are held: the strongest eligible aggressor without one, at
3 dB above the least (R191). -/
def planReplace (s : State) (p : Nat) (cs : List Coupling) : State :=
  let d := (s.port p).dsp
  let out := (byCoupling cs).filter fun c => aggrEligible s p c.aggr.val d.group &&
    !(d.taps.nexts.any fun n => n.aggr == some c.aggr.val)
  match out with
  | [] => s
  | c :: _ =>
    let k := leastNext s p cs
    let beats : Bool := match heldCoupling s p cs k with
      | some e => decide (e + 30 ≤ c.energy)
      | none => true
    if beats ∧ (d.taps.nexts.all fun n => n.aggr.isSome) = true then
      updDsp s p fun d => { d with replacing := some (k, c.aggr.val, nextOffset (peakLag 0 c.taps), seedTaps c) }
    else s

/-- The segment of greatest energy that neither a window nor the one in shadow training covers at its peak (R187). -/
def uncoveredSeg (s : State) (p : Nat) (segs : List ScoutSeg) : Option ScoutSeg :=
  let d := (s.port p).dsp
  let starts := usedStarts d.taps ++ (d.moving.map (·.start)).toList
  ((byEnergy segs).filter fun g =>
    let k := peakLag (64 * g.seg) g.taps
    starts.all fun a => k < a || a + 64 ≤ k).head?

/-- The residual uncovered echo after placement; `ECHO_UNCOVERED` once per crossing of −25 dB (R187, R313). -/
def residualEcho (s : State) (p : Nat) (segs : List ScoutSeg) : State :=
  match uncoveredSeg s p segs with
  | none => updDsp s p fun d => { d with residual := none, uncovered := false }
  | some g =>
    let crossed : Bool := decide (-250 < g.energy)
    let s1 := updDsp s p fun d => { d with residual := some g.energy, uncovered := crossed }
    if crossed ∧ !(s.port p).dsp.uncovered then
      soundTrigger (raise s1 0x1205 1 (portT p) (beI 2 g.energy ++ be 2 (64 * g.seg))) p 2
    else s1

/-- SCOUT_CYCLE_END: `segs` the echo segments, `cancelled` the energy that each window cancels, `next` the coupling of each
candidate aggressor, `removed` what each canceller removes in dB. -/
def execScoutCycleEnd (p : PortId) (segs : List ScoutSeg) (cancelled : List Int) (next : List Coupling) (removed : List Nat)
    (s : State) : Host.Outcome State Fault Refusal :=
  .next (
    let q := p.val
    let d := (s.port q).dsp
    if d.st ≠ 2 ∨ !portLive s q ∨ d.scoutWins < cycleWins s q then s
    else
      let es := scouted s q segs
      let cs := next.filter fun c => aggrEligible s q c.aggr.val d.group
      let last := match cs.getLast?, es.getLast? with
        | some c, _ => (c.taps.drop 448).take 64
        | none, some g => g.taps.take 64
        | none, none => d.scout
      let s1 := updDsp s q fun d => { d with
        scout := last, scoutWins := 0, taps := { d.taps with nexts := d.taps.nexts.mapIdx fun k n => { n with removed := min 60 (removed.getD k 0) } } }
      let s2 := planReplace (seedNexts (placeWindow (soundSnapshot s1 q es) q es cancelled) q d.group cs) q cs
      residualEcho s2 q es)

/-- ECHO_WINDOW_TAKEOVER: the window that has trained in shadow takes over with the taps it has reached (R185). -/
def execEchoWindowTakeover (p : PortId) (s : State) : Host.Outcome State Fault Refusal :=
  .next (
    let q := p.val
    match (s.port q).dsp.moving with
    | none => s
    | some ⟨w, a, taps, left⟩ =>
      if ((s.port q).dsp.st ≠ 2 ∧ (s.port q).dsp.st ≠ 3) ∨ left ≠ 0 then s
      else
        let old := ((s.port q).dsp.taps.wins.getD w {}).start.getD 0xFFFF
        let new : EchoWin := { start := some a, taps }
        let s1 := updDsp (s.bump 0x1210 q 5) q fun d => { d with
          moving := none, taps := { d.taps with wins := d.taps.wins.mapIdx fun i x => if i = w then new else x } }
        raise s1 0x1204 0 (portT q) (be 1 w ++ zeros 1 ++ be 2 old ++ be 2 a))

/-- AGGRESSOR_REPLACE: the replacement applies at the victim's receive boundary (R191). -/
def execAggressorReplace (p : PortId) (s : State) : Host.Outcome State Fault Refusal :=
  .next (
    let q := p.val
    match (s.port q).dsp.replacing with
    | none => s
    | some (k, a, off, taps) =>
      let s1 := updDsp s q fun d => { d with replacing := none }
      if !aggrEligible s q a (s.port q).dsp.group ∨ 4 ≤ (s.port q).dsp.st then s1
      else
        let old := ((s.port q).dsp.taps.nexts.getD k {}).aggr
        let s2 := staleNext (updNext s1 q k fun _ => { aggr := some a, st := 3, offset := off, taps }) q k
        raise (s2.bump 0x1210 q 6) 0x1203 0 (portT q) (be 1 k ++ be 1 (old.getD 0xFF) ++ be 1 a))

/-- NEXT_SEED_END: a seeded canceller has had its 2 ms in acquisition gear (R179). -/
def execNextSeedEnd (p : PortId) (k : Fin 3) (s : State) : Host.Outcome State Fault Refusal :=
  .next (updNext s p.val k.val fun n => if n.st = 3 then { n with st := 1 } else n)

/-- BUNDLE_GROUP_APPLY: the victim's receive boundary after the commit boundary (R196). -/
def execBundleGroupApply (p : PortId) (s : State) : Host.Outcome State Fault Refusal :=
  .next (if committedGroup s p.val = (s.port p.val).dsp.group then s else applyGroup s p.val)

/-- TX_ADJUST_REQUEST: the rules of R210 on the averages of the last 16 excited windows. -/
def execTxAdjustRequest (p : PortId) (s : State) : Host.Outcome State Fault Refusal :=
  .next (
    let q := p.val
    let x := s.port q
    if vs50Live s q ∧ (s.pcfg q).vs.flags.testBit 2 ∧ x.dsp.st = 2 ∧ x.dsp.adjustFrom ≤ s.now ∧ x.vs.adjustDue.isNone ∧
        x.vs.adjustOut.isNone then
      match stepRule x.dsp.recent 16 x.dsp.repPre x.dsp.repPost x.dsp.suppressed with
      | some r => updVs (s.bump 0x1210 q 8) q fun v => { v with adjustDue := some r }
      | none => s
    else s)

/-! ### Opcodes 0x12xx -/

/-- Settings of a DSP_CONFIG. -/
def dspOf (r : Req) : DspCfg :=
  { flags := p8 r 0, stepOff := i8 r 1, floor := i16 r 2, credit := p16 r 4, limit := p8 r 6, interval := p16 r 8, settle := p16 r 10
    idleRun := p16 r 12, unstable := p16 r 14 }

/-- A port takes adaptation settings: no tap changes; disabling anchors discards the anchor, and disabling automatic placement ends a
placement in shadow training (R207, R212). -/
def applyDsp (s : State) (p : Nat) (c : DspCfg) : State :=
  updDsp (s.updPcfg p fun x => { x with dsp := c }) p fun d => { d with
    anchor := if c.flags.testBit 0 then d.anchor else none, moving := if c.flags.testBit 1 then d.moving else none }

/-- DSP_CONFIG (0x1201). -/
def dspConfigCmd : Cmd := confCmd 0x1201 onPort 16
  (fun _ r => firstFail [inv (p8 r 0 < 8), inv (rz r 7 1), inv (p16 r 8 ≠ 0), inv (p16 r 10 ≠ 0), inv (p16 r 12 ≠ 0),
    inv (p16 r 14 ≠ 0), rng (withinI (i8 r 1) (-2) 2), rng (withinI (i16 r 2) (-100) 200), rng (p16 r 4 ≤ 50),
    rng (within (p8 r 6) 6 40), rng (p16 r 8 ≤ 3600), rng (within (p16 r 10) 10 10000), rng (p16 r 12 ≤ 10000), rng (p16 r 14 ≤ 64)])
  fun s r => applyDsp s (ti r) (dspOf r)

/-- DSP_CONFIG. -/
def execDspConfig (r : Req) (s : State) : Host.Outcome State Fault Refusal := .next (serve dspConfigCmd r s)

/-- Result of DSP_STATUS. -/
def dspStatusData (s : State) (r : Req) : List Byte :=
  let d := (s.port (ti r)).dsp
  let flags := match d.anchor with
    | some a => 1 + 2 * b2n a.staleRx + 4 * b2n (a.staleNext != 0) + 8 * b2n (a.staleWin != 0)
    | none => 0
  let age := match d.anchor with
    | some a => sat 32 (s.secsSince a.time)
    | none => 0
  let starts := (List.range 8).map fun w => (d.taps.wins.getD w {}).start
  be 1 d.st ++ be 1 flags ++ margin16 (d.anchor.map (·.margin)) ++ be 4 age ++ be 1 d.taps.ctle ++ be 1 d.gauge ++
    margin16 d.worst ++ be 1 d.worstBlock ++ be 1 (maskOf ((List.range 8).filter fun w => (starts.getD w none).isSome)) ++
    margin16 d.residual ++ (starts.map fun o => be 2 (o.getD 0xFFFF)).flatten

/-- DSP_STATUS (0x1202). -/
def dspStatusCmd : Cmd := readCmd 0x1202 onPort 0 dspStatusData

/-- DSP_STATUS. -/
def execDspStatus (r : Req) (s : State) : Host.Outcome State Fault Refusal := .next (serve dspStatusCmd r s)

/-- Members of a group byte. -/
def groupBits (r : Req) (i : Nat) : List Nat := maskList 8 (p8 r i)

/-- BUNDLE_GROUP_SET (0x1203): victims in Quiet or Down apply it at once (R196, R213). -/
def bundleGroupSetCmd : Cmd := confCmd 0x1203 onCove 4
  (fun _ r => firstFail [inv ((List.range 4).all fun i => (groupBits r i).length != 1),
    inv ((List.range 8).all fun b => ((List.range 4).filter fun i => (p8 r i).testBit b).length ≤ 1)])
  fun s r =>
    let s1 := { s with cfg := { s.cfg with bundles := s.cfg.bundles.set 0 (ti r) (p32 r 0) } }
    eachN s1 (portsOf (coveT (ti r))) fun s p =>
      if (s.port p).st = .quiet ∨ (s.port p).st = .down then applyGroup s p else s

/-- BUNDLE_GROUP_SET. -/
def execBundleGroupSet (r : Req) (s : State) : Host.Outcome State Fault Refusal := .next (serve bundleGroupSetCmd r s)

/-- BUNDLE_GROUP_GET (0x1204). -/
def bundleGroupGetCmd : Cmd := readCmd 0x1204 onCove 0 fun s r => be 4 (s.cfg.bundles.get 0 (ti r))

/-- BUNDLE_GROUP_GET. -/
def execBundleGroupGet (r : Req) (s : State) : Host.Outcome State Fault Refusal := .next (serve bundleGroupGetCmd r s)

/-- Result of XTALK_STATUS. -/
def xtalkData (s : State) (r : Req) : List Byte :=
  let p := ti r
  let d := (s.port p).dsp
  let ns := (List.range 3).map fun k => d.taps.nexts.getD k {}
  let members := (maskList 8 d.group).filter fun i => i != p % 8
  let elig := fun (i : Nat) => aggrEligible s p (p / 8 * 8 + i) d.group
  (ns.map fun n => be 1 (n.aggr.getD 0xFF) ++ be 1 n.st ++ be 1 (n.offset / 8) ++ be 1 n.removed).flatten ++
    be 1 (maskOf (members.filter fun i => elig i && !(ns.any fun n => n.aggr == some (p / 8 * 8 + i)))) ++
    be 1 (maskOf (members.filter fun i => !elig i)) ++ zeros 2

/-- XTALK_STATUS (0x1205). -/
def xtalkStatusCmd : Cmd := readCmd 0x1205 onPort 0 xtalkData

/-- XTALK_STATUS. -/
def execXtalkStatus (r : Req) (s : State) : Host.Outcome State Fault Refusal := .next (serve xtalkStatusCmd r s)

/-- The start that an ECHO_WINDOW_SET gives for a window. -/
def pinOf (r : Req) (w : Nat) : Nat := p16 r (4 + 2 * w)

/-- A port takes pins (R186, R206, R214). -/
def applyPins (s : State) (p pins : Nat) (at_ : List Nat) : State :=
  let was := s.pcfg p
  let s1 := s.updPcfg p fun c => { c with pins, pinAt := at_ }
  let changed := (List.range 8).filter fun w =>
    was.pins.testBit w != pins.testBit w || (was.pins.testBit w && was.pinAt.getD w 0 != at_.getD w 0)
  let c := s1.pcfg p
  let starts := (List.range 8).filterMap (pinStart (s.port p).resMode c)
  if resolvedMode (s.port p) = 0 ∨ !hasWindows (s.port p).resMode then s1
  else updDsp s1 p fun d => { d with
    taps := { d.taps with wins := pinWins (s.port p).resMode c d.taps.wins }
    moving := d.moving.filter fun x => !c.pins.testBit x.win && apart starts x.start
    anchor := d.anchor.map fun a => { a with staleWin := changed.foldl setBit a.staleWin } }

/-- ECHO_WINDOW_SET (0x1206). -/
def echoWindowSetCmd : Cmd := confCmd 0x1206 onPort 20
  (fun _ r =>
    let pinned := (List.range 8).filter (p8 r 0).testBit
    firstFail [inv (rz r 1 3), inv ((List.range 8).all fun w => (p8 r 0).testBit w || pinOf r w == 0),
      inv (pinned.all fun w => pinOf r w % 8 == 0 && 512 ≤ pinOf r w),
      inv (pinned.all fun w => pinned.all fun v => v == w || pinOf r w + 64 ≤ pinOf r v || pinOf r v + 64 ≤ pinOf r w),
      rng (pinned.all fun w => pinOf r w ≤ 4288)])
  fun s r => applyPins s (ti r) (p8 r 0) ((List.range 8).map (pinOf r))

/-- ECHO_WINDOW_SET. -/
def execEchoWindowSet (r : Req) (s : State) : Host.Outcome State Fault Refusal := .next (serve echoWindowSetCmd r s)

/-- ANCHOR_CONTROL (0x1207): a reversion comes at the next receive boundary, at once while the received stream is absent, and is
answered when it has taken place (R203, R215, log entry 50). -/
def anchorControlCmd : Cmd where
  op := 0x1207
  target := onPort
  len := len 4
  check := fun s r =>
    let d := (s.port (ti r)).dsp
    let above := match (s.port (ti r)).health.margin with
      | some m => decide ((s.pcfg (ti r)).dsp.floor ≤ m)
      | none => false
    firstFail [inv (within (p8 r 0) 1 3), inv (rz r 1 3), (p8 r 0 ≠ 1 || (d.st == 2 && above), .notPermitted),
      (p8 r 0 ≠ 2 || d.anchor.isSome, .notPermitted)]
  writes := true
  run := fun s r =>
    let p := ti r
    if p8 r 0 = 1 then
      (match (s.port p).health.margin with
        | some m => captureAnchor s p m
        | none => s, some (.ok, []))
    else if p8 r 0 = 2 then
      let s1 := updDsp s p fun d => { d with revertBy := d.revertBy ++ [r] }
      (if streamAbsent s p then revertNow s1 p else s1, none)
    else (updDsp s p fun d => { d with anchor := none }, some (.ok, []))

/-- ANCHOR_CONTROL. -/
def execAnchorControl (r : Req) (s : State) : Host.Outcome State Fault Refusal := .next (serve anchorControlCmd r s)

/-- DSP_COUNTERS_READ (0x1210). -/
def dspCountersReadCmd : Cmd := readCmd 0x1210 onPort 0 fun s r => s.cblock 0x1210 (tw r) (ti r) 0 10

/-- DSP_COUNTERS_READ. -/
def execDspCountersRead (r : Req) (s : State) : Host.Outcome State Fault Refusal := .next (serve dspCountersReadCmd r s)

/-- DSP_COUNTERS_CLEAR (0x1211). -/
def dspCountersClearCmd : Cmd := portClear 0x1211 0x1210

/-- DSP_COUNTERS_CLEAR. -/
def execDspCountersClear (r : Req) (s : State) : Host.Outcome State Fault Refusal := .next (serve dspCountersClearCmd r s)

/-- Length and taps of a section in the resolved mode (R171, R216). -/
def tapSection (s : State) (p sec : Nat) : Nat × List Int :=
  let m := resolvedMode (s.port p)
  let t := (s.port p).dsp.taps
  if sec = 0 then (if m = 0 then 0 else if m ≤ 2 then 8 else (ffeTaps m).1 + 1 + (ffeTaps m).2, t.ffe)
  else if sec = 1 then (dfeTaps m, t.dfe)
  else if sec = 2 then (denseTaps m, t.dense)
  else if sec ≤ 10 then (if hasWindows m then 64 else 0, (t.wins.getD (sec - 3) {}).taps)
  else if sec ≤ 13 then (if hasNext m then 48 else 0, (t.nexts.getD (sec - 11) {}).taps)
  else (if echoSpan m = 0 then 0 else 64, (s.port p).dsp.scout)

/-- TAP_READ (0x1220). -/
def tapReadCmd : Cmd where
  op := 0x1220
  target := onPort
  len := len 8
  check := fun s r => firstFail [inv (p8 r 0 ≤ 14), inv (rz r 1 1), inv (rz r 6 2), rng (p16 r 4 ≤ 512),
    rng (p16 r 4 == 0 || p16 r 2 + p16 r 4 ≤ (tapSection s (ti r) (p8 r 0)).1)]
  run := readOk fun s r =>
    let l := (tapSection s (ti r) (p8 r 0)).2
    ((List.range (p16 r 4)).map fun i => beI 2 (l.getD (p16 r 2 + i) 0)).flatten

/-- TAP_READ. -/
def execTapRead (r : Req) (s : State) : Host.Outcome State Fault Refusal := .next (serve tapReadCmd r s)

end Sys2Proof.Machine
end

