-- ==== Sys2Proof/Machine/SelfTest.lean ====
section
/-! DEFINITION. Self-tests and their preconditions, memory repair and the repair log, the ends of drains, line-port
loopbacks and test patterns, and the commands 0x80xx (R607 to R634). -/

namespace Sys2Proof.Machine

/-! ### Preconditions (R609 to R612) -/

/-- Rails of an island (R609, R641). -/
def islandRails (i : Nat) : List Nat := if i < 16 then [1, 2, 3] else if i < 24 then [4, 5] else if i < 30 then [0] else [6]

/-- Nominal voltage of a rail, mV; rail 0 has its target. -/
def railNominal (k : Nat) : Nat := match k with | 1 => 750 | 2 => 900 | 3 => 1200 | 4 => 900 | 5 => 1200 | _ => 1800

/-- Deviation of a rail from its reference in 0.01 %. -/
def railDeviation (s : State) (k mv : Nat) : Int :=
  if k = 0 then
    let target : Nat := if s.clk.settledOnce then pointTarget s s.clk.point
      else (pointNominal s.clk.point + fuseTrim s.clk.point).toNat * 65536 / 1000
    ((mv * 65536 : Int) - 1000 * target) * 10000 / (1000 * max 1 target)
  else ((mv : Int) - railNominal k) * 10000 / railNominal k

/-- The first precondition of R609 that fails on island `i`: its `BIST_REFUSED` result (R610). -/
def precondFail (s : State) (i : Nat) (pre : Precond) : Option (Nat × List Byte) :=
  if s.clk.lref ≠ 1 then some (1, be 1 1 ++ be 1 i ++ be 2 0x8000)
  else if 200 < pre.clock.natAbs then some (2, be 1 2 ++ be 1 i ++ beI 2 pre.clock)
  else match (islandRails i).find? fun k => 300 < (railDeviation s k (pre.rails.getD k 0)).natAbs with
    | some k => some (3, be 1 3 ++ be 1 k ++ beI 2 (railDeviation s k (pre.rails.getD k 0)))
    | none => if s.clk.trans.isSome then some (4, be 1 4 ++ be 1 0 ++ be 2 0x8000) else none

/-- Island of a test's target. -/
def testIsland (t : Nat) : Nat := (islandOf t).getD 31

/-! ### Targets and their blocks (R607, R614, R615) -/

/-- The kind runs on the target (R607). -/
def kindMatches (t kind : Nat) : Bool :=
  match tgtDom t with
  | 7 => kind == 1 || kind == 2
  | 2 => kind == 2
  | 6 => kind == 2
  | 8 => kind == 2
  | _ => kind == 3

/-- A lane of the target is held, or a port of it cannot enter Test (R105, R320, log entry 35). -/
def testBarred (s : State) (t : Nat) : Bool :=
  match tgtDom t with
  | 4 => laneKept s (tgtNum t) || s.ctl.safeState
  | 6 => (lanesOf s t).any (laneKept s) || s.ctl.safeState
  | _ => (portsOf t).any fun p => !testAllowed s p

/-- Write the test in progress on a target. -/
def setTest (s : State) (t : Nat) (j : Option TestJob) : State :=
  { s with stest := { s.stest with running := s.stest.running.set none t j } }

/-- Lane `m` goes under test: its link drops with reason 7. -/
def laneToTest (s : State) (m : Nat) : State :=
  let s1 := match s.linkOf m with
    | some k => if (s.link k).st = .up then linkRetrain s k 7 else s
    | none => s
  let s2 := startLaneTest s1 m 0 0
  match s2.linkOf m with
  | some k => linkRest s2 k
  | none => s2

/-- The drain has ended and the test step begins (R613 step 3). -/
def testBegins (s : State) (t : Nat) : State :=
  match tgtDom t with
  | 7 => streamSlice (freshRows (sliceDiscard s (tgtNum t)) (tgtNum t)) (tgtNum t)
  | 8 => engineReset s (tgtNum t)
  | 4 => laneToTest s (tgtNum t)
  | 6 => eachN s (lanesOf s t) laneToTest
  | _ => eachN s (portsOf t) fun s p => enterTest s p 6

/-- A port leaves Test for state 1, or for Quiet without a committed mode. -/
def leaveTest (s : State) (p : Nat) : State :=
  if (s.port p).st = .test then
    setSt ((farEnds s p).updPort p fun x => { x with test := {} }) p (if (s.pcfg p).mode.set then .down else .quiet)
  else s

/-- Step 4 of R613: the start-up of a block reset of the target. -/
def testRestart (s : State) (t : Nat) : State :=
  match tgtDom t with
  | 7 => if (s.slice (tgtNum t)).inReset then s else s.updSlice (tgtNum t) fun x => { x with stopped := false }
  | 8 => s
  | 4 => leaveLaneTest s (tgtNum t)
  | 6 => eachN s (lanesOf s t) leaveLaneTest
  | _ => eachN s (portsOf t) leaveTest

/-! ### Repair (R621 to R624) -/

/-- Insert a number into a rising list without repeats. -/
def insertNat (v : Nat) : List Nat → List Nat
  | [] => [v]
  | x :: l => if v < x then v :: x :: l else if v = x then x :: l else x :: insertNat v l

/-- Failing rows of bank `b` in ascending order. -/
def failRows (fs : List TestFail) (b : Nat) : List Nat :=
  (fs.filter fun f => f.item.toNat == b).foldr (fun f l => insertNat f.value.toNat l) []

/-- Spare rows of a bank that failed. -/
def badSpares (rows : List Nat) : List Nat := (rows.filter (8192 ≤ ·)).map (· - 8192)

/-- The soft map of a bank after its failing rows have taken spares, and the rows for which none was left (R623). -/
def repairRows (fused soft : List (Nat × Nat)) (rows : List Nat) : List (Nat × Nat) × List Nat :=
  let bad := badSpares rows
  let good := fused.filter fun e => !bad.contains e.1
  (rows.filter (· < 8192)).foldl (fun acc row =>
    if good.any (·.2 == row) || acc.1.any (·.2 == row) then acc
    else match (List.range 16).find? fun k => !bad.contains k && !fused.any (·.1 == k) && !acc.1.any (·.1 == k) with
      | some k => (acc.1 ++ [(k, row)], acc.2)
      | none => (acc.1, acc.2 ++ [row])) (soft.filter fun e => !bad.contains e.1, [])

/-- Banks of a slice. -/
def sliceBanks (i : Nat) : List Nat := (List.range 32).map (i * 32 + ·)

/-- Soft maps and unrepaired rows of a slice after a memory test with repair. -/
def repairSlice (s : State) (i : Nat) (fs : List TestFail) : List (Nat × List (Nat × Nat) × List Nat) :=
  (sliceBanks i).map fun b =>
    (b, repairRows (s.fuses.repair.get [] b) (s.stest.banks.get {} b).soft (failRows fs b))

/-- Failure entry of a memory test (R619), under the maps after repair. -/
def memoryEntry (s : State) (maps : List (Nat × List (Nat × Nat) × List Nat)) (repaired : Bool) (f : TestFail) : FailEntry :=
  let b := f.item.toNat
  let row := f.value.toNat
  let fused := ((s.fuses.repair.get [] b).find? (·.2 == row)).map (·.1)
  let m := (maps.find? (·.1 == b)).getD (b, [], [])
  let soft := (m.2.1.find? (·.2 == row)).map (·.1)
  let spare := if !repaired then none else match fused with
    | some k => some k
    | none => soft
  let fl := b2n spare.isSome + 2 * b2n (repaired && m.2.2.contains row) + 4 * b2n (8192 ≤ row) + 8 * b2n fused.isSome
  be 1 b ++ be 1 0 ++ be 2 row ++ be 2 f.extra.toNat ++ be 1 fl ++ be 1 (spare.getD 0xFF)

/-- Failure entry of a logic or analog test. -/
def plainEntry (kind : Nat) (f : TestFail) : FailEntry :=
  be 1 f.item.toNat ++ be 1 0 ++ be 2 f.value.toNat ++ (if kind = 3 then be 2 f.extra.toNat else be 2 0) ++ be 1 0 ++
    (if kind = 3 then be 1 f.upper.toNat else be 1 0)

/-- Status of a finished test (R618): a mismatch that a repair has not covered fails; a short count without one is INCOMPLETE. -/
def outcomeStatus (o : TestOutcome) (mismatch : Bool) : Nat :=
  if mismatch then 1
  else if o.completed < o.programmed ∨ o.elapsed * 100 < o.expected * 99 then 2 else 0

/-- The repair step of a memory test on slice `i`: soft maps, then the rows that are to be retired at the start-up. -/
def applyRepair (s : State) (maps : List (Nat × List (Nat × Nat) × List Nat)) (fs : List TestFail) : State :=
  maps.foldl (fun s m =>
    let bad := !(badSpares (failRows fs m.1)).isEmpty
    { s with stest := { s.stest with banks := s.stest.banks.upd {} m.1 fun x => { x with
      soft := m.2.1, spareFailed := x.spareFailed || bad } } }) s

/-- Rows without a spare are retired (R624). -/
def retireRows (s : State) (maps : List (Nat × List (Nat × Nat) × List Nat)) : State :=
  maps.foldl (fun s m => m.2.2.foldl (fun s row => retireRow s m.1 row) s) s

/-- Repair byte of a memory test's result (R619). -/
def repairByte (maps : List (Nat × List (Nat × Nat) × List Nat)) (fs : List TestFail) (update : Bool) : Nat :=
  let took := maps.any fun m => (failRows fs m.1).any fun row => m.2.1.any (·.2 == row)
  let out := maps.any fun m => !m.2.2.isEmpty
  b2n took + 6 * b2n out + 8 * b2n update

/-! ### Results (R613, R617 to R620) -/

/-- Store a result record, count it, report it, and record the fault of R620. -/
def storeResult (s : State) (t : Nat) (x : TestResult) : State :=
  let n := (s.stest.count.get 0 t + 1) % 2 ^ 32
  let d := be 1 x.kind ++ be 1 x.status ++ be 1 x.entries.length ++ be 1 x.repair
  let s1 := { s with stest := { s.stest with
    count := s.stest.count.set 0 t n, results := s.stest.results.set {} (t * 4 + x.kind) { x with seq := n } } }
  let s2 := if x.status = 1 ∧ x.kind ≤ 2 then faultEntry s1 0x8001 2 t d else s1
  raise s2 0x8001 (if x.status = 0 then 0 else if x.status = 1 then 2 else 1) t (d ++ be 4 n)

/-- The result of a test that a happening ended, or of one that ran to its end without repair. -/
def plainResult (kind status : Nat) (o : TestOutcome) (entries : List FailEntry) (repair : Nat) : TestResult :=
  { kind, status, repair, programmed := o.programmed, completed := o.completed, elapsed := o.elapsed, expected := o.expected
    failing := sat 32 o.failing, entries := entries.take 64 }

/-- A memory test of slice `i` ends with repair enabled or not; `update`: the log is written next (R621 to R624). -/
def memoryEnds (s : State) (i : Nat) (o : TestOutcome) (repair update : Bool) : State × TestResult :=
  let maps := if repair then repairSlice s i o.fails else []
  let entries := o.fails.map (memoryEntry s maps repair)
  let uncovered := if repair then maps.any (fun m => !m.2.2.isEmpty) || o.fails.any (fun f => 8192 ≤ f.value.toNat) ||
      (o.fails.isEmpty && o.failing != 0)
    else !(o.fails.isEmpty && o.failing == 0)
  let s1 := if repair then retireRows (applyRepair s maps o.fails) maps else s
  let s2 := if repair && update then { s1 with stest := { s1.stest with logDue := true } } else s1
  (s2, plainResult 1 (outcomeStatus o uncovered) o entries (if repair then repairByte maps o.fails update else 0))

/-- A test ends: repair, the restart of its target, its result, its event and its command (R613, R617). -/
def finishTest (s : State) (t : Nat) (j : TestJob) (o : TestOutcome) : State :=
  let s0 := setTest s t none
  let (s1, x) :=
    match j.ended with
    | some st => (s0, plainResult j.kind st o [] 0)
    | none =>
      if j.kind = 1 then memoryEnds s0 (tgtNum t) o (j.flags.testBit 0) (j.flags.testBit 1)
      else (s0, plainResult j.kind (outcomeStatus o (!(o.fails.isEmpty && o.failing == 0))) o
        (o.fails.map (plainEntry j.kind)) 0)
  let s2 := if x.status = 4 then s1 else testRestart s1 t
  closeWaiter (storeResult s2 t x) j.waiter t
    (if j.forced then .quiesceTimeout else if x.status = 2 then .incomplete else .ok)

/-- SELFTEST_STEP_DONE: the test step has ended, or a happening has ended the test (R613, R617, R618). -/
def execSelftestStepDone (t : BitVec 32) (o : TestOutcome) (s : State) : Host.Outcome State Fault Refusal :=
  .next (match s.stest.running.get none t.toNat with
    | some j => if j.stage = 2 ∨ j.ended.isSome then finishTest s t.toNat j o else s
    | none => s)

/-- SELFTEST_PRECONDITION_CHECK: every 10 µs (R612). -/
def execSelftestPreconditionCheck (t : BitVec 32) (pre : Precond) (s : State) : Host.Outcome State Fault Refusal :=
  .next (match s.stest.running.get none t.toNat with
    | some j => if j.stage = 2 ∧ (precondFail s (testIsland t.toNat) pre).isSome then markTest s t.toNat 5 else s
    | none => s)

/-- The drain before a test has ended (R613). -/
def testDrained (s : State) (t : Nat) (j : TestJob) (forced : Bool) : State :=
  let s1 := setTest s t (some { j with stage := 2, forced := j.forced || forced })
  let s2 := if forced then s1.bump 0x6010 0 5 else s1
  if j.ended.isSome then s2 else testBegins s2 t

/-! ### Ends of drains (R24, R25, R556) -/

/-- The drain of a block ends for what has asked for it: a reset, a slice gate, Parked entry, or a self-test. -/
def drainEnd (s : State) (t : Nat) (forced : Bool) : State :=
  if ((resetJob s t).map (·.phase)) = some 0 then resetDrained s t forced
  else if tgtDom t = 7 ∧ s.rst.gating.any (fun g => g.1 == tgtNum t) then gatingDrained s (tgtNum t) forced
  else if t = fabricT ∧ s.power.transition = 2 ∧ s.power.parkStage = 1 then
    let s1 := updClk (updPower s fun p => { p with parkStage := 2 }) fun c => { c with gateReq := c.gateReq ||| parkedIslands }
    if forced then s1.bump 0x6010 0 5 else s1
  else match s.stest.running.get none t with
    | some j => if j.stage = 1 then testDrained s t j forced else s
    | none => s

/-- No frame that a drain of `t` waits for is in transmission. -/
def drainIdle (s : State) (t : Nat) : Bool :=
  s.fabric.egress.all fun e => !drainStops s t e.1 || tgtDom t == 7 || !((e.2.mac.map (·.started)).getD false)

/-- DRAIN_COMPLETE: the frames in flight into and out of the block have finished. -/
def execDrainComplete (t : BitVec 32) (s : State) : Host.Outcome State Fault Refusal :=
  .next (if drainIdle s t.toNat then drainEnd s t.toNat false else s)

/-- DRAIN_TIMEOUT: the action is forced. -/
def execDrainTimeout (t : BitVec 32) (s : State) : Host.Outcome State Fault Refusal := .next (drainEnd s t.toNat true)

/-! ### The start's memory test and the repair log (R608, R611, R622 to R624) -/

/-- The repair of the newest valid copy of the repair log is in use (R622). -/
def useNewestLog (s : State) : State :=
  match newestLog s with
  | some l => useLog s l
  | none => s

/-- The start's memory test was refused: the repair is the log's, and every slice's test counts as refused. -/
def bistRefused (s : State) : State :=
  tryFirmware (eachN (useNewestLog s) (List.range 4) fun s i => storeResult s (sliceT i) { kind := 1, status := 7 })

/-- Slice `i` ends its start-time test, with repair and log update (log entry 34). -/
def bistSlice (slices : List TestOutcome) (s : State) (i : Nat) : State :=
  match slices[i]? with
  | some o => storeResult (memoryEnds s i o true true).1 (sliceT i) (memoryEnds s i o true true).2
  | none => s

/-- The start's memory test has run: buckets and signal entries that failed leave service (R624). -/
def bistEnds (s : State) (slices : List TestOutcome) (buckets signals : List Nat) : State :=
  let s1 := eachN s (List.range 4) (bistSlice slices)
  let s2 := { s1 with strm := { s1.strm with excluded := buckets.filter (· < 131072) }
                      stest := { s1.stest with sigOut := signals.filter (· < 131072) } }
  tryFirmware (s2.stest.sigOut.foldl (fun s n => sigEcc s 16 n) s2)

/-- MEMORY_BIST_DONE: the start-time memory test has run, or it was refused and skipped. -/
def execMemoryBistDone (pre : Precond) (slices : List TestOutcome) (buckets signals : List Nat) (s : State) :
    Host.Outcome State Fault Refusal :=
  .next (if !s.rst.starting ∨ s.rst.asserted ∨ !s.rst.fwChecked ∨ s.rst.bistDone then s
  else
    let s0 := { s with rst := { s.rst with bistDone := true } }
    if ((List.range 4).findSome? fun i => precondFail s (24 + i) pre).isSome then bistRefused s0
    else bistEnds s0 slices buckets signals)

/-- The soft map of every bank. -/
def softMap (s : State) : Tab (List (Nat × Nat)) :=
  (s.stest.banks.filter fun e => !e.2.soft.isEmpty).map fun e => (e.1, e.2.soft)

/-- Write a copy of the repair log: the older copy, or the one that is not valid; its bytes in the MRAM are free values. -/
def writeLog (s : State) (ok : Bool) : State :=
  let a := s.stest.logA
  let b := s.stest.logB
  let toA := !a.valid || b.valid && decide (a.seq < b.seq)
  let q := max (if a.valid then a.seq else 0) (if b.valid then b.seq else 0) + 1
  let c : LogCopy := if ok then { valid := true, seq := q, map := softMap s } else {}
  let s1 := { s with stest := if toA then { s.stest with logA := c } else { s.stest with logB := c } }
  (s1.regionWrite 7 (if toA then 0 else 0x10000) ((Config.logCopy s.freeCtr).take 0x10000)).draw

/-- REPAIR_LOG_WRITE_DONE: a copy of the repair log has been written, or its write has failed (R359, R622, R623). -/
def execRepairLogWriteDone (ok : Bool) (s : State) : Host.Outcome State Fault Refusal :=
  .next (if !s.stest.logDue then s
  else
    let s1 := { s with stest := { s.stest with logDue := false } }
    if s.nvm.off then s1 else if ok then writeLog s1 true else (writeLog s1 false).bump 0x7016 0 1)

/-! ### Opcodes 0x8001 to 0x8011 -/

/-- SELFTEST_RUN (0x8001). -/
def selftestRunCmd (pre : Precond) : Cmd where
  op := 0x8001
  target := onTest
  len := len 8
  check := fun s r => firstFail [inv (within (p8 r 0) 1 3), inv (p8 r 1 ≤ 7), inv (rz r 2 2),
    inv (p8 r 0 == 1 || p8 r 1 % 4 == 0), inv ((p8 r 1).testBit 2 || p32 r 4 ≠ 0),
    rng ((p8 r 1).testBit 2 || p32 r 4 ≤ 10000), (kindMatches (tw r) (p8 r 0), .invalidTarget),
    (!testBarred s (tw r), .notPermitted)]
  writes := true
  run := fun s r =>
    match precondFail s (testIsland (tw r)) pre with
    | some (cause, d) =>
      ({ s with stest := { s.stest with refusal := s.stest.refusal.set 0 (tw r) cause } }, some (.bistRefused, d))
    | none =>
      let j : TestJob := { kind := p8 r 0, flags := p8 r 1, stage := 1, completed := 0, forced := false
                           waiter := waiterOf 0x8001 r, ended := none }
      let s1 := setTest s (tw r) (some j)
      (if tgtDom (tw r) = 7 then s1.updSlice (ti r) fun x => { x with stopped := true } else s1, some (.accepted, []))

/-- SELFTEST_RUN; `pre`: what the monitors read. -/
def execSelftestRun (r : Req) (pre : Precond) (s : State) : Host.Outcome State Fault Refusal :=
  .next (serve (selftestRunCmd pre) r s)

/-- The last result of a target, of any kind. -/
def lastResult (s : State) (t : Nat) : TestResult :=
  let x := fun k => s.stest.results.get {} (t * 4 + k)
  [x 2, x 3].foldl (fun a b => if a.seq < b.seq then b else a) (x 1)

/-- SELFTEST_STATUS result, 16 bytes. -/
def selftestStatusData (s : State) (r : Req) : List Byte :=
  let last := s.stest.refusal.get 0 (tw r)
  match s.stest.running.get none (tw r) with
  | some j => be 1 (if j.ended.isSome then 4 else j.stage) ++ be 1 j.kind ++ zeros 2 ++
      be 4 (Config.testRemaining s.freeCtr).toNat ++
      be 4 (if j.stage = 2 then (Config.testProgress s.freeCtr).toNat else 0) ++ be 1 last ++ zeros 3
  | none => be 1 0 ++ be 1 (lastResult s (tw r)).kind ++ zeros 6 ++ be 4 (lastResult s (tw r)).completed ++ be 1 last ++ zeros 3

/-- SELFTEST_STATUS (0x8002). -/
def selftestStatusCmd : Cmd := readCmd 0x8002 onTest 0 selftestStatusData

/-- SELFTEST_STATUS. -/
def execSelftestStatus (r : Req) (s : State) : Host.Outcome State Fault Refusal := .next (serve selftestStatusCmd r s)

/-- SELFTEST_ABORT (0x8003): the test ends with status 6; without a test nothing changes. -/
def selftestAbortCmd : Cmd where
  op := 0x8003
  target := onTest
  len := len 0
  writes := true
  inTest := true
  run := doOk fun s r => markTest s (tw r) 6

/-- SELFTEST_ABORT. -/
def execSelftestAbort (r : Req) (s : State) : Host.Outcome State Fault Refusal := .next (serve selftestAbortCmd r s)

/-- The 32 bytes of a result record (R619). -/
def resultBytes (x : TestResult) : List Byte :=
  be 4 x.seq ++ be 1 x.kind ++ be 1 x.status ++ be 1 x.repair ++ be 1 x.entries.length ++ be 4 x.programmed ++
    be 4 x.completed ++ be 8 x.elapsed ++ be 4 x.expected ++ be 4 x.failing

/-- SELFTEST_RESULT_READ (0x8004). -/
def selftestResultReadCmd : Cmd :=
  { readCmd 0x8004 onTest 4 (fun s r =>
      let x := s.stest.results.get {} (tw r * 4 + p8 r 0)
      resultBytes x ++ ((x.entries.drop (p8 r 1)).take (p16 r 2)).flatten) with
    check := fun s r => firstFail [inv (within (p8 r 0) 1 3), rng (p8 r 1 ≤ 63), rng (p16 r 2 ≤ 64),
      rng (p16 r 2 == 0 || p8 r 1 + p16 r 2 ≤ (s.stest.results.get {} (tw r * 4 + p8 r 0)).entries.length)] }

/-- SELFTEST_RESULT_READ. -/
def execSelftestResultRead (r : Req) (s : State) : Host.Outcome State Fault Refusal :=
  .next (serve selftestResultReadCmd r s)

/-- Soft repairs of a bank that are not fused. -/
def unfused (s : State) (b : Nat) : List (Nat × Nat) :=
  (s.stest.banks.get {} b).soft.filter fun e => !(s.fuses.repair.get [] b).contains e

/-- REPAIR_STATUS (0x8010). -/
def repairStatusCmd : Cmd := readCmd 0x8010 onSlice 0 fun s r => ((sliceBanks (ti r)).map fun b =>
  let x := s.stest.banks.get {} b
  be 1 (s.fuses.repair.get [] b).length ++ be 1 x.soft.length ++ be 1 x.retired.length ++
    be 1 (b2n x.spareFailed + 2 * b2n (!(unfused s b).isEmpty))).flatten

/-- REPAIR_STATUS. -/
def execRepairStatus (r : Req) (s : State) : Host.Outcome State Fault Refusal := .next (serve repairStatusCmd r s)

/-- REPAIR_FUSE (0x8011): over SPI only (R625, R633). -/
def repairFuseCmd (pre : Precond) : Cmd where
  op := 0x8011
  spiOnly := true
  target := onSlice
  len := len 8
  check := fun _ r => firstFail [inv (p32 r 4 == 0x46555345)]
  writes := true
  take := fun s _ _ =>
    if s.stest.fuseJob.isSome then some (.busy, []) else (precondFail s 31 pre).map fun x => (.bistRefused, x.2)
  run := fun s r =>
    if p32 r 0 = 0 then (s, some (.ok, []))
    else ({ s with stest := { s.stest with fuseJob := some (ti r, p32 r 0, waiterOf 0x8011 r) } }, some (.accepted, []))

/-- REPAIR_FUSE; `pre`: what the monitors read. -/
def execRepairFuse (r : Req) (pre : Precond) (s : State) : Host.Outcome State Fault Refusal :=
  .next (serve (repairFuseCmd pre) r s)

/-- Fuse the soft repairs of the banks left, of which `good` more read back right; an event per bank (R633). -/
def fuseBanks (s : State) (w : Waiter) (t : Nat) : Nat → List Nat → State
  | _, [] => closeWaiter s w t .ok
  | good, b :: bs =>
    let es := unfused s b
    let n := min good es.length
    let s1 := { s with fuses := { s.fuses with repair := s.fuses.repair.upd [] b (· ++ es.take n) } }
    let s2 := raise s1 0x8002 0 t (be 1 b ++ be 1 n ++ be 1 (b2n (n < es.length)))
    if n < es.length then closeWaiter s2 w t .nvmFail else fuseBanks s2 w t (good - n) bs

/-- `DEVICE_POWER_SET` Off ends once no NVM write is in progress: the session is abandoned and the record copied (R359). -/
def offDone (s : State) : State :=
  let closing := (s.nvm.session.map fun x => x.closing.isSome).getD false
  if s.nvm.store.isSome ∨ closing ∨ s.stest.logDue then s
  else powerJobEnd (setMode (ringFlush (abandonSession s 3)) 4 s.power.ceiling 1 0xFF) .ok

/-- AGENT_SEQUENCE_COMPLETE: an agent ends the sequence of an ACCEPTED command: the fusing of `REPAIR_FUSE`, of which the first
`good` entries read back right, or what `DEVICE_POWER_SET` Off completes (R22, R359, R633). Other sequences end in rows of their
own. -/
def execAgentSequenceComplete (good : Nat) (s : State) : Host.Outcome State Fault Refusal :=
  .next (match s.stest.fuseJob with
    | some (i, mask, w) =>
      fuseBanks { s with stest := { s.stest with fuseJob := none } } w (sliceT i) good ((maskList 32 mask).map (i * 32 + ·))
    | none => if s.power.transition = 0 ∧ (s.power.job.map (·.mode)) = some 4 then offDone s else s)

/-! ### Loopbacks and patterns (R626 to R634) -/

/-- The port's loopback or pattern, or another test, stands in the way (R616). -/
def loopBusy (s : State) (r : Req) (lo hi : Nat) : Option (Status × List Byte) :=
  let p := ti r
  if (p8 r 0 ≠ 0 ∧ underTest s (tw r)) ∨ ((s.port p).st = .test ∧ !within (s.port p).test.action lo hi) ∨
      testRunning s (tw r) ∨ testRunning s (coveT (p / 8)) then
    some (.busySelftest, be 4 (Config.testRemaining s.freeCtr).toNat) else none

/-- What a port keeps when it enters Test for a far-end loopback: the trained link, frame lock and loop timing (R626). -/
def farKeep (old x : Port) : Port :=
  { x with
    vs := { x.vs with
      lock := old.vs.lock, confirm := old.vs.confirm, inverted := old.vs.inverted, rxFcnt := old.vs.rxFcnt
      rxNext := old.vs.rxNext, rxType := old.vs.rxType, rf := old.vs.rf, bf := old.vs.bf, rxScr := old.vs.rxScr
      rxSync := old.vs.rxSync, txFcnt := old.vs.txFcnt, txScr := old.vs.txScr }
    dsp := { x.dsp with st := old.dsp.st } }

/-- The transmit settings of a pattern at VS50: the amplitude step, and the FFE at preset 0 or at the steps given (R630). -/
def patternTx (t : PortTest) (v : Vs50) : Vs50 :=
  if t.action = 5 ∧ t.mode = 9 then { v with amp := t.amp, pre := t.ffe % 16, post := t.ffe / 16 } else v

/-- A port enters a loopback or a test pattern. An AFE loopback starts from the taps with which training in its mode starts, the echo
canceller held at zero; a generator starts anew (R626, R627, R630). -/
def startLoop (s : State) (p : Nat) (t : PortTest) : State :=
  let old := s.port p
  let gen := if t.action = 5 then vs50Seed t.testMode else patternSeed 2
  (enterTest s p t.action).updPort p fun y =>
    let y1 := if t.action = 4 then farKeep old y else y
    { y1 with
      test := { t with gen }
      vs := patternTx t y1.vs
      dsp := if t.action = 1 then { y1.dsp with taps := freshTaps t.mode (s.pcfg p) y1.dsp.taps } else y1.dsp }

/-- PORT_LOOPBACK (0x8020). -/
def portLoopbackCmd : Cmd where
  op := 0x8020
  target := onPort
  len := len 16
  check := fun s r =>
    let a := p8 r 0
    let near := within a 1 3
    firstFail [inv (rz r 3 1), inv (rz r 6 2), inv (rz r 12 4), inv (a ≤ 4), inv (p8 r 1 ≤ 2), inv (a ≠ 4 || p8 r 1 == 0),
      inv (if near then within (p8 r 2) 1 9 else p8 r 2 == 0), inv (if p8 r 1 = 0 then p16 r 4 == 0 else p16 r 4 ≠ 0),
      inv (p8 r 1 == 1 || p32 r 8 == 0), rng (p8 r 1 == 0 || within (p16 r 4) 64 10240),
      (!near || testAllowed s (ti r) || (s.port (ti r)).st == .test, .notPermitted),
      (a ≠ 4 || (s.port (ti r)).st == .test || ((s.port (ti r)).st == .up && 3 ≤ (s.port (ti r)).resMode), .notPermitted)]
  writes := true
  inTest := true
  take := fun s r _ => loopBusy s r 1 4
  run := doOk fun s r =>
    let p := ti r
    if p8 r 0 = 0 then
      if (s.port p).st = .test then
        (leaveTest s p).updPort p fun x => { x with breaking := (s.port p).test.action == 4 && x.st == .down }
      else s
    else startLoop s p { action := p8 r 0, generator := p8 r 1, mode := p8 r 2, length := p16 r 4, count := p32 r 8 }

/-- PORT_LOOPBACK. -/
def execPortLoopback (r : Req) (s : State) : Host.Outcome State Fault Refusal := .next (serve portLoopbackCmd r s)

/-- The test mode is defined for a mode: the VS50 table, or the PMA test modes of the mode's clause (R630; the clauses' numbers
are log entry 40). -/
def testModeDefined (mode n : Nat) : Bool :=
  match mode with
  | 1 => within n 1 3
  | 2 => within n 1 4
  | 3 => [1, 2, 4, 5].contains n
  | 4 => [1, 2, 4, 5, 6, 7].contains n
  | _ => within n 1 7

/-- PORT_TEST_MODE (0x8021). -/
def portTestModeCmd : Cmd where
  op := 0x8021
  target := onPort
  len := len 8
  check := fun s r =>
    let on := p8 r 0 == 1
    firstFail [inv (rz r 6 2), inv (p8 r 0 ≤ 1), inv (if on then within (p8 r 1) 1 9 else p8 r 1 == 0), inv (p8 r 3 ≤ 1),
      inv (if p8 r 1 = 9 then p8 r 4 ≤ 3 else p8 r 4 == 0),
      inv (if p8 r 1 = 9 ∧ p8 r 2 = 7 then p8 r 5 / 16 ≤ 12 && p8 r 5 % 16 ≤ 6 else p8 r 5 == 0),
      inv (!on || testModeDefined (p8 r 1) (p8 r 2)),
      (!on || testAllowed s (ti r) || (s.port (ti r)).st == .test, .notPermitted)]
  writes := true
  inTest := true
  take := fun s r _ => loopBusy s r 5 5
  run := doOk fun s r =>
    let p := ti r
    if p8 r 0 = 0 then (if (s.port p).st = .test then leaveTest s p else s)
    else startLoop s p { action := 5, mode := p8 r 1, testMode := p8 r 2, checker := p8 r 3 == 1, amp := p8 r 4, ffe := p8 r 5 }

/-- PORT_TEST_MODE. -/
def execPortTestMode (r : Req) (s : State) : Host.Outcome State Fault Refusal := .next (serve portTestModeCmd r s)

/-- PORT_TEST_COUNTERS_READ (0x8022). -/
def portTestCountersReadCmd : Cmd := readCmd 0x8022 onPort 0 fun s r => s.cblock 0x8022 (tw r) (ti r) 0 8

/-- PORT_TEST_COUNTERS_READ. -/
def execPortTestCountersRead (r : Req) (s : State) : Host.Outcome State Fault Refusal :=
  .next (serve portTestCountersReadCmd r s)

/-- PORT_TEST_COUNTERS_CLEAR (0x8023). -/
def portTestCountersClearCmd : Cmd := portClear 0x8023 0x8022

/-- PORT_TEST_COUNTERS_CLEAR. -/
def execPortTestCountersClear (r : Req) (s : State) : Host.Outcome State Fault Refusal :=
  .next (serve portTestCountersClearCmd r s)

end Sys2Proof.Machine
end

