-- ==== Sys2Proof/Machine/Health.lean ====
section
/-! DEFINITION. Link health, Sounding and cable tests: margins, FEC windows, drops, results, baselines, and the commands of
opcodes 0x15xx (R296 to R335). -/

namespace Sys2Proof.Machine

/-! ### Margin (R296 to R299, R303) -/

/-- Reference SNR of a mode in 0.1 dB, 0 when it has none (R296). -/
def referenceSnr (m : Nat) : Nat :=
  match m with
  | 3 => 204 | 4 => 158 | 5 => 190 | 6 => 190 | 7 => 190 | 8 => 190 | 9 => 186 | _ => 0

/-- The signal quality index (R299). -/
def sqi (m : Int) : Nat :=
  if m < 0 then 0 else if m < 10 then 1 else if m < 20 then 2 else if m < 30 then 3 else if m < 45 then 4
  else if m < 60 then 5 else if m < 80 then 6 else 7

/-- The margin alarm condition after an interval (R303). -/
def marginAlarm (s : State) (p : Nat) (m : Int) : State :=
  let c := (s.pcfg p).health
  let was := (s.port p).health.alarm
  let now : Bool := c.flags.testBit 0 && (if was then decide (m < c.alarm + c.hyst) else decide (m < c.alarm))
  if now = was then s
  else
    let s1 := updHealth s p fun h => { h with alarm := now }
    let s2 := if now then s1.bump 0x1503 p 22 else s1
    raise s2 0x1501 1 (portT p) (be 1 (b2n now) ++ beI 2 m ++ beI 2 c.alarm)

/-- MARGIN_INTERVAL_END: 2²⁰ present symbols, with the measured SNR in 0.1 dB and the PCS errors of a standard mode (R119, R297). -/
def execMarginIntervalEnd (p : PortId) (snr : Int) (errs : Nat) (s : State) : Host.Outcome State Fault Refusal :=
  .next (
    let q := p.val
    let ref := referenceSnr (s.port q).resMode
    if !portLive s q then s
    else
      let s0 := if (s.port q).resMode = 9 then s else s.bumpBy 0x1010 q 13 errs
      if ref = 0 then s0
      else
        let c := (s.pcfg q).health
        let m := snr - ref
        let s1 := updHealth s0 q fun h => { h with
          margin := some m, snr := some snr, worst := some (min m (h.worst.getD m))
          dropSince := if c.flags.testBit 1 ∧ m < c.drop then some (h.dropSince.getD s.now) else none }
        let keep := 10000 * 4000000
        let s2 := updDsp s1 q fun d => { d with hist := (s.now, m) :: (d.hist.takeWhile fun x => s.now - keep ≤ x.1) ++
          ((d.hist.dropWhile fun x => s.now - keep ≤ x.1).take 1) }
        marginAlarm s2 q m)

/-! ### FEC windows (R300 to R304) -/

/-- Count what a standard mode's decoder has decoded in the window while the port was in state 4 or 5, though the link may have gone
down before its end (R300 to R302). -/
def countReportFec (s : State) (x : FecReport) : State :=
  let p := x.port.val
  if (s.port p).health.winFec then
    let h := x.hist.take 16
    let good := h.sum
    let s1 := (List.range 16).foldl (fun s k => s.bumpBy 0x1503 p (6 + k) (h.getD k 0)) (s.bumpBy 0x1503 p 0 (good + x.unc))
    let s2 := ((s1.bumpBy 0x1503 p 1 (good - h.getD 0 0)).bumpBy 0x1503 p 2 x.unc).bumpBy 0x1503 p 3 x.symbols
    let s3 := (s2.bumpBy 0x1503 p 4 x.bits).bumpBy 0x1503 p 5 x.unc
    updHealth s3 p fun y => { y with
      winCw := y.winCw + good + x.unc, winUnc := y.winUnc + x.unc, winBits := y.winBits + x.bits
      uncAt := if x.unc = 0 then y.uncAt else some s.now }
  else s

/-- The FEC window of a port ends with the counts it holds, whatever the link does (R304); an alarm under which the link has gone
down clears here (R306). -/
def fecEnd (s : State) (p : Nat) : State :=
  let h := (s.port p).health
  let c := (s.pcfg p).health
  let now : Bool := !h.fecDown && c.flags.testBit 2 && decide (c.fec ≤ h.winUnc)
  let fec : Bool := portLive s p && 4 ≤ (s.port p).resMode && (s.port p).resMode ≤ 8
  let s1 := updHealth s p fun h => { h with
    lastUnc := h.winUnc, lastCw := h.winCw, lastBits := h.winBits, winUnc := 0, winCw := 0, winBits := 0, fecAlarm := now
    winFec := fec, fecDown := false
    fecSince := if now ∧ c.flags.testBit 3 ∧ portLive s p then some (h.fecSince.getD s.now) else none }
  if now = h.fecAlarm then s1 else raise s1 0x1502 1 (portT p) (be 1 (b2n now) ++ zeros 3 ++ be 4 (sat 32 h.winUnc))

/-- FEC_WINDOW_END: 100 ms of keeper time, common to all ports. -/
def execFecWindowEnd (ports : List FecReport) (s : State) : Host.Outcome State Fault Refusal :=
  .next (eachN (ports.foldl countReportFec s) (List.range 128) fecEnd)

/-! ### Drops (R305, R306) -/

/-- HEALTH_DROP: the persistence of the margin or of the FEC alarm has run. A restart at its boundary takes the drop over. -/
def execHealthDrop (p : PortId) (fec : Bool) (s : State) : Host.Outcome State Fault Refusal :=
  .next (
    let q := p.val
    let h := (s.port q).health
    let c := (s.pcfg q).health
    let due : Bool := if fec then c.flags.testBit 3 && h.fecSince.isSome else c.flags.testBit 1 && h.dropSince.isSome
    if !portLive s q ∨ !due ∨ expectsSilence s q ∨ h.absent then s
    else if (s.port q).restart.isSome then loseLink s q 9
    else
      let s1 := s.bump 0x1503 q 23
      let s2 := raise s1 0x1503 2 (portT q) (be 1 (b2n fec) ++ margin16 h.margin ++ zeros 1 ++ be 4 (sat 32 h.lastUnc))
      loseLink (faultEntry s2 0x1503 2 (portT q) (be 1 (b2n fec) ++ margin16 h.margin ++ zeros 1)) q 9)

/-! ### Sounding results (R311, R316 to R319, R331) -/

/-- Tap `k` of a run's profile comes from the dense section or a window, not from the scout (R309). -/
def tapCovered (r : SoundRun) (k : Nat) : Bool :=
  k < denseTaps r.mode || r.starts.any fun a => a ≤ k && k < a + 64

/-- The baseline that a run is compared with: change reports on, and the run's mode (R317). -/
def comparedBase (r : SoundRun) : Option Baseline :=
  if r.cfg.flags.testBit 3 then r.base.filter fun b => b.mode == r.mode else none

/-- The reflections of a profile, without comparison. -/
def runRefls (r : SoundRun) (prof : List Int) : List Refl :=
  let all := (peaks prof r.cfg.detect).map (reflOf prof (symbolRate r.mode) r.cfg.velocity)
  (strongest16 all).map fun x => { x with
    flags := b2n (!tapCovered r x.tap) + 16 * b2n (possibleMultiple all r.cfg.window x) }

/-- An entry of a run reflection after comparison. -/
def markedRefl (base : List BaseRefl) (r : SoundCfg) (ds : List Diff) (m : Refl × Option Nat) : Refl :=
  let conf := fun (x : Nat × Nat) => ds.any fun d => d.confirmed && sameDiff r.window d x
  match m.2 with
  | none => { m.1 with flags := m.1.flags + 4 * b2n (conf (0, m.1.pos)) }
  | some i =>
    let d := deltaOf base m.1 i
    { m.1 with flags := m.1.flags + 2 + 8 * b2n (decide (r.change ≤ d.natAbs) && conf (1, i)), delta := some d }

/-- The entry of a confirmed lost baseline reflection. -/
def lostRefl (b : BaseRefl) : Refl := { pos := b.pos, tap := b.tap, rho := 0, rl := 0, width := b.width, flags := 32, delta := none }

/-- What the comparison gives: entries, the differences followed, and those first confirmed. -/
def compareRun (c : SoundCfg) (old : List Diff) (base : List BaseRefl) (refls : List Refl) : List Refl × List Diff × List Diff :=
  let ms := matchRefls base c.window [] refls
  let now := differences base c.change ms
  let fs := follow c.window c.confirm old now
  let ds := fs.map (·.1)
  let lost := (now.filter fun x => x.1 == 2 && ds.any fun d => d.confirmed && sameDiff c.window d x).map fun x =>
    lostRefl (base.getD x.2 ⟨0, 0, 0, 0⟩)
  ((lost.foldl (fun l r => insertPos r l) (ms.map (markedRefl base c ds))), ds, (fs.filter (·.2)).map (·.1))

/-- The entry of a difference in a result. -/
def diffEntry (base : List BaseRefl) (window : Nat) (es : List Refl) (d : Diff) : Nat :=
  let b := base.getD d.key ⟨0, 0, 0, 0⟩
  ((List.range es.length).find? fun i =>
    let e := es.getD i ⟨0, 0, 0, 0, 0, 0, none⟩
    if d.kind = 0 then e.delta.isNone && e.flags.testBit 2 && gap e.pos d.key ≤ window
    else if d.kind = 2 then e.flags.testBit 5 && e.pos == b.pos
    else e.flags.testBit 3 && e.delta == some (deltaOf base e d.key)).getD 0

/-- `SOUNDING_CHANGE`: counts of what is first confirmed, and the entry of the largest change (R319). -/
def soundChange (s : State) (p window : Nat) (base : List BaseRefl) (es : List Refl) (newly : List Diff) : State :=
  if newly.isEmpty then s
  else
    let n := fun (k : Nat) => (newly.filter fun d => d.kind == k).length
    let idx := newly.map (diffEntry base window es)
    let mag := fun (i : Nat) => ((es.getD i ⟨0, 0, 0, 0, 0, 0, none⟩).delta.getD 0).natAbs
    let top := idx.foldl (fun b i => if mag b < mag i then i else b) (idx.headD 0)
    let e := es.getD top ⟨0, 0, 0, 0, 0, 0, none⟩
    raiseReady (s.bump 0x1503 p 25) 0x1505 1 (portT p) 0 0
      (be 1 (n 0) ++ be 1 (n 1) ++ be 1 (n 2) ++ be 1 top ++ be 2 e.pos ++ margin16 e.delta)

/-- The baseline that a result gives: its run reflections (R316). -/
def baselineOf (x : SoundResult) : Baseline :=
  { mode := x.mode, velocity := x.velocity, ident := x.ident
    refls := ((x.entries.filter fun e => !e.flags.testBit 5).take 16).map fun e =>
      { pos := e.pos, tap := e.tap, rho := e.rho, width := e.width } }

/-- Replace or discard the baseline of a port; all confirmation is cleared (R316, R319). -/
def setBaseline (s : State) (p : Nat) (b : Option Baseline) : State :=
  updHealth { s with baselines := s.baselines.set none p b } p fun h => { h with diffs := [] }

/-- What a result's flags say of the baseline: compared, mode mismatch, other partner identity (R317). -/
def baseFlags (r : SoundRun) (ident : Nat) : Nat :=
  match r.base with
  | none => 0
  | some b => b2n (comparedBase r).isSome + 2 * b2n (b.mode != r.mode) + 4 * b2n (b.ident != ident)

/-- Store the result of a completed run. Confirmation belongs to one baseline and to consecutive completed runs (R319): a run under a
baseline since changed is compared alone and leaves nothing to follow, and a run that is not compared ends the count of every
difference not yet confirmed (DESIGN CHOICE, log entry 138). -/
def storeRun (s : State) (p : Nat) (r : SoundRun) (prof : List Int) : State × Nat :=
  let refls := runRefls r prof
  let h := (s.port p).health
  let ident := (s.port p).start.partnerId
  let same : Bool := r.base == s.baselines.get none p
  let mk : List Refl → SoundResult := fun es =>
    { seq := h.runs, mode := r.mode, flags := baseFlags r ident, dist := 0, imp := 0, time := s.now, entries := es
      velocity := r.cfg.velocity, ident, profile := prof }
  match comparedBase r with
  | none => (updHealth s p fun h => { h with
      result := some (mk refls), runStatus := 0, diffs := h.diffs.filter (·.confirmed) }, refls.length)
  | some b =>
    let (es, ds, newly) := compareRun r.cfg (if same then h.diffs else []) b.refls refls
    let s1 := updHealth s p fun h => { h with
      result := some (mk es), runStatus := 0, diffs := if same then ds else h.diffs }
    (soundChange s1 p r.cfg.window b.refls es newly, es.length)

/-- SOUNDING_DONE: the analysis of a run whose snapshots are all taken (R310, R312, R315). -/
def execSoundingDone (p : PortId) (s : State) : Host.Outcome State Fault Refusal :=
  .next (
    let q := p.val
    match (s.port q).health.run with
    | none => s
    | some r =>
      if r.left ≠ 0 ∨ s.rst.headland ≠ 2 then s
      else
        let (s1, n) := storeRun s q r (rhoProfile r (s.port q).start.loss)
        let s2 := (updHealth s1 q fun h => { h with run := none }).bump 0x1503 q 24
        let s3 := match r.asBase, (s2.port q).health.result with
          | true, some x => setBaseline s2 q (some (baselineOf x))
          | _, _ => s2
        let s4 := raise s3 0x1504 0 (portT q) (be 1 0 ++ be 1 n ++ be 4 (s.port q).health.runs)
        match r.waiter with
        | some w => closeWaiter s4 w (portT q) .ok
        | none => s4)

/-- SOUNDING_PERIODIC_START: the interval has passed since the last run began (R313). -/
def execSoundingPeriodicStart (p : PortId) (s : State) : Host.Outcome State Fault Refusal :=
  .next (if (s.pcfg p.val).sound.flags.testBit 0 ∧ soundFree s p.val then startSound s p.val false none else s)

/-- SOUNDING_RUN_TIMEOUT: not all snapshots were taken in time (R312). -/
def execSoundingRunTimeout (p : PortId) (s : State) : Host.Outcome State Fault Refusal :=
  .next (match (s.port p.val).health.run with
    | some r => if r.left ≠ 0 then endSound s p.val 1 else s
    | none => s)

/-! ### Cable test events (R320 to R327) -/

/-- CABLE_TEST_STIMULUS_START: the first millisecond has passed; `partner`: energy above the squelch threshold in it (R323). -/
def execCableTestStimulusStart (p : PortId) (partner : Bool) (s : State) : Host.Outcome State Fault Refusal :=
  .next (match (s.port p.val).health.cable with
    | some c => if c.stage = 0 then updHealth s p.val fun h => { h with cable := some { c with stage := 1, partner } } else s
    | none => s)

/-- CABLE_TEST_STIMULUS_END: at 17 ms the stimulus stops. -/
def execCableTestStimulusEnd (p : PortId) (s : State) : Host.Outcome State Fault Refusal :=
  .next (match (s.port p.val).health.cable with
    | some c => if c.stage = 1 then updHealth s p.val fun h => { h with cable := some { c with stage := 2 } } else s
    | none => s)

/-- The first reflection of |ρ| ≥ 0.6: an open or a short (R325). -/
def faultPeak (prof : List Int) : Option Nat := (peaks prof 60).find? fun k => 19661 ≤ magAt prof k

/-- The tap nearest to 0.5 m. -/
def halfMetreTap (velocity : Nat) : Nat := (500 * 2 * 28125000000 * 2 + 299792458 * velocity) / (2 * 299792458 * velocity)

/-- The impedance in 0.1 Ω, to the nearest, at a tap whose step response from the pins is Γ in 2⁻¹⁵: 100 Ω·(1 + Γ)/(1 − Γ). A value
that the field does not hold reads its end (R325; DESIGN CHOICE, log entry 58). -/
def impedance (g : Int) : Nat :=
  if g ≤ -32768 then 0
  else if 32768 ≤ g then 0xFFFF
  else min 0xFFFF ((2000 * (32768 + g) + (32768 - g)) / (2 * (32768 - g))).toNat

/-- The impedances along a profile, from the step response `g` of what lies before it. -/
def impedances (g : Int) : List Int → List Nat
  | [] => []
  | x :: l => impedance (g + x) :: impedances (g + x) l

/-- The result of a cable test (R325, R331). -/
def cableOutcome (s : State) (p : Nat) (c : CableTest) (rho : List Int) : SoundResult :=
  let cfg := (s.pcfg p).sound
  let prof := (List.range 10800).map fun k => rho.getD k 0
  let fault := faultPeak prof
  let limit := fault.getD 10800
  let prof100 : List Int := (impedances 0 prof).mapIdx fun k z => if limit < k then 0xFFFF else z
  let refls := (peaks prof cfg.detect).map (reflOf prof 28125000000 cfg.velocity)
  { seq := (s.port p).health.cables
    mode := match fault with
      | some k => if prof.getD k 0 < 0 then 2 else 1
      | none => 0
    flags := 8 * b2n c.partner + 16 * b2n (multidrop s p)
    dist := match fault with
      | some k => peakMm prof 28125000000 cfg.velocity k
      | none => 0xFFFF
    imp := (prof100.getD (halfMetreTap cfg.velocity) 0xFFFF).toNat
    time := s.now, entries := strongest16 refls, velocity := cfg.velocity, ident := 0, profile := prof100 }

/-- CABLE_TEST_DONE: the result is stored and the port leaves Test; `rho` is the loss-compensated profile that the correlation gives. -/
def execCableTestDone (p : PortId) (rho : List Int) (s : State) : Host.Outcome State Fault Refusal :=
  .next (
    let q := p.val
    match (s.port q).health.cable with
    | none => s
    | some c =>
      if c.stage ≠ 2 then s
      else
        let x := cableOutcome s q c rho
        let s1 := (updHealth s q fun h => { h with cable := none, cableResult := some x, cableStatus := 0 }).bump 0x1503 q 26
        let s2 := raise s1 0x1506 0 (portT q) (be 1 0 ++ be 1 x.mode ++ be 2 x.dist ++ be 4 x.seq)
        closeWaiter (leaveTest s2 q) c.waiter (portT q) .ok)

/-! ### Opcodes 0x1501 to 0x1504 -/

/-- HEALTH_CONFIG (0x1501): persistence restarts from zero (R328). -/
def healthConfigCmd : Cmd := confCmd 0x1501 onPort 16
  (fun _ r => firstFail [inv (p8 r 0 < 16), inv (rz r 1 1), inv (rz r 14 2), inv (p16 r 4 ≠ 0), inv (p16 r 8 ≠ 0), inv (p32 r 10 ≠ 0),
    rng (withinI (i16 r 2) (-100) 200), rng (p16 r 4 ≤ 100), rng (withinI (i16 r 6) (-100) 200), rng (p16 r 8 ≤ 10000),
    rng (p32 r 10 ≤ 1000000)])
  fun s r =>
    updHealth (s.updPcfg (ti r) fun c => { c with health := {
      flags := p8 r 0, alarm := i16 r 2, hyst := p16 r 4, drop := i16 r 6, persist := p16 r 8, fec := p32 r 10 } }) (ti r)
      fun h => { h with dropSince := none, fecSince := none }

/-- HEALTH_CONFIG. -/
def execHealthConfig (r : Req) (s : State) : Host.Outcome State Fault Refusal := .next (serve healthConfigCmd r s)

/-- Result of HEALTH_STATUS. -/
def healthStatusData (s : State) (r : Req) : List Byte :=
  let h := (s.port (ti r)).health
  margin16 h.margin ++ margin16 h.worst ++ be 1 ((h.margin.map sqi).getD 0xFF) ++
    be 1 (b2n h.alarm + 2 * b2n h.fecAlarm + 4 * b2n h.dropSince.isSome + 8 * b2n h.fecSince.isSome + 16 * b2n h.absent) ++
    be 2 (referenceSnr (resolvedMode (s.port (ti r)))) ++ margin16 h.snr ++ zeros 2 ++ be 4 (sat 32 h.lastUnc) ++
    be 4 (sat 32 h.lastCw) ++ be 4 (sat 32 h.lastBits) ++ be 4 ((h.uncAt.map fun t => sat 32 (s.secsSince t)).getD 0xFFFFFFFF) ++ zeros 4

/-- HEALTH_STATUS (0x1502). -/
def healthStatusCmd : Cmd := readCmd 0x1502 onPort 0 healthStatusData

/-- HEALTH_STATUS. -/
def execHealthStatus (r : Req) (s : State) : Host.Outcome State Fault Refusal := .next (serve healthStatusCmd r s)

/-- HEALTH_COUNTERS_READ (0x1503). -/
def healthCountersReadCmd : Cmd := readCmd 0x1503 onPort 0 fun s r => s.cblock 0x1503 (tw r) (ti r) 0 27

/-- HEALTH_COUNTERS_READ. -/
def execHealthCountersRead (r : Req) (s : State) : Host.Outcome State Fault Refusal := .next (serve healthCountersReadCmd r s)

/-- HEALTH_COUNTERS_CLEAR (0x1504). -/
def healthCountersClearCmd : Cmd := portClear 0x1504 0x1503

/-- HEALTH_COUNTERS_CLEAR. -/
def execHealthCountersClear (r : Req) (s : State) : Host.Outcome State Fault Refusal := .next (serve healthCountersClearCmd r s)

/-! ### Opcodes 0x1510 to 0x1516 -/

/-- SOUNDING_CONFIG (0x1510): it applies from the next run (R329). -/
def soundingConfigCmd : Cmd := confCmd 0x1510 onPort 16
  (fun _ r => firstFail [inv (p8 r 0 < 16), inv (rz r 11 1), inv (rz r 14 2), inv (p8 r 1 ≠ 0), inv (p16 r 2 ≠ 0), inv (p16 r 4 ≠ 0),
    inv (p8 r 7 ≠ 0), inv (p16 r 8 ≠ 0), inv (p8 r 10 ≠ 0), inv (p16 r 12 ≠ 0), rng (p8 r 1 ≤ 16), rng (p16 r 2 ≤ 3600),
    rng (within (p16 r 4) 500 900), rng (within (p8 r 6) 20 60), rng (within (p8 r 7) 5 200), rng (within (p16 r 8) 5 500),
    rng (p8 r 10 ≤ 8), rng (p16 r 12 ≤ 600)])
  fun s r => s.updPcfg (ti r) fun c => { c with sound := {
    flags := p8 r 0, snaps := p8 r 1, interval := p16 r 2, velocity := p16 r 4, detect := p8 r 6, change := p8 r 7, window := p16 r 8
    confirm := p8 r 10, timeout := p16 r 12 } }

/-- SOUNDING_CONFIG. -/
def execSoundingConfig (r : Req) (s : State) : Host.Outcome State Fault Refusal := .next (serve soundingConfigCmd r s)

/-- SOUNDING_RUN (0x1511). -/
def soundingRunCmd : Cmd where
  op := 0x1511
  target := onPort
  len := len 4
  check := fun s r => firstFail [inv (p8 r 0 < 2), inv (rz r 1 3), (soundable s (ti r), .notPermitted)]
  writes := true
  take := fun s r _ => if (s.port (ti r)).health.run.isSome then some (.busy, []) else none
  run := doAccepted fun s r => startSound s (ti r) ((p8 r 0).testBit 0) (some (waiterOf 0x1511 r))

/-- SOUNDING_RUN. -/
def execSoundingRun (r : Req) (s : State) : Host.Outcome State Fault Refusal := .next (serve soundingRunCmd r s)

/-- A reflection entry. -/
def reflBytes (e : Refl) : List Byte :=
  be 2 (sat 16 e.pos) ++ be 2 e.tap ++ beI 2 (clampTap e.rho) ++ be 2 e.rl ++ be 1 e.width ++ be 1 e.flags ++ margin16 e.delta

/-- Header and entries of a Sounding or cable-test result (R331); the status byte is that of the last run or test that ended (R330, log
entry 53). -/
def resultData (s : State) (status : Nat) (o : Option SoundResult) : List Byte := match o with
  | none => zeros 4 ++ be 1 status ++ zeros 11
  | some x =>
    be 4 x.seq ++ be 1 status ++ be 1 x.mode ++ be 1 x.flags ++ be 1 x.entries.length ++ be 2 (sat 16 x.dist) ++ be 2 (sat 16 x.imp) ++
      be 4 (sat 32 (s.secsSince x.time)) ++ (x.entries.map reflBytes).flatten

/-- SOUNDING_RESULT_READ (0x1512). -/
def soundingResultReadCmd : Cmd := readCmd 0x1512 onPort 0 fun s r =>
  resultData s (s.port (ti r)).health.runStatus (s.port (ti r)).health.result

/-- SOUNDING_RESULT_READ. -/
def execSoundingResultRead (r : Req) (s : State) : Host.Outcome State Fault Refusal := .next (serve soundingResultReadCmd r s)

/-- A profile read of a held result (R332). -/
def profileRead (op : Nat) (f : Health → Option SoundResult) (enc : Int → List Byte) : Cmd where
  op := op
  target := onPort
  len := len 8
  check := fun s r =>
    let o := f (s.port (ti r)).health
    let n := ((o.map fun x => x.profile.length).getD 0)
    firstFail [inv (rz r 4 4), rng (p16 r 2 ≤ 512), (p16 r 2 == 0 || o.isSome, .notPermitted),
      rng (p16 r 2 == 0 || p16 r 0 + p16 r 2 ≤ n)]
  run := readOk fun s r =>
    let l := ((f (s.port (ti r)).health).map (·.profile)).getD []
    (((l.drop (p16 r 0)).take (p16 r 2)).map enc).flatten

/-- SOUNDING_PROFILE_READ (0x1513). -/
def soundingProfileReadCmd : Cmd := profileRead 0x1513 (·.result) fun v => beI 2 (clampTap v)

/-- SOUNDING_PROFILE_READ. -/
def execSoundingProfileRead (r : Req) (s : State) : Host.Outcome State Fault Refusal := .next (serve soundingProfileReadCmd r s)

/-- SOUNDING_BASELINE_SET (0x1514). -/
def soundingBaselineSetCmd : Cmd where
  op := 0x1514
  target := onPort
  len := len 4
  check := fun s r => firstFail [inv (within (p8 r 0) 1 2), inv (rz r 1 3),
    (p8 r 0 == 2 || (s.port (ti r)).health.result.isSome, .notPermitted)]
  writes := true
  run := doOk fun s r =>
    if p8 r 0 = 1 then setBaseline s (ti r) ((s.port (ti r)).health.result.map baselineOf) else setBaseline s (ti r) none

/-- SOUNDING_BASELINE_SET. -/
def execSoundingBaselineSet (r : Req) (s : State) : Host.Outcome State Fault Refusal := .next (serve soundingBaselineSetCmd r s)

/-- A slot of a baseline record. -/
def slotBytes (e : BaseRefl) : List Byte := be 2 (sat 16 e.pos) ++ be 2 e.tap ++ beI 2 (clampTap e.rho) ++ be 1 e.width ++ zeros 1

/-- The baseline record: its check is over all but itself. -/
def baselineBytes (b : Baseline) : List Byte :=
  let h := be 1 1 ++ be 1 b.mode ++ be 1 b.refls.length ++ zeros 1 ++ be 2 b.velocity ++ be 6 b.ident ++ zeros 2
  let t := padTo 128 (b.refls.map slotBytes).flatten
  h ++ be 2 (crc16 (h ++ t)) ++ t

/-- SOUNDING_BASELINE_READ (0x1515). -/
def soundingBaselineReadCmd : Cmd :=
  { readCmd 0x1515 onPort 0 fun s r => match s.baselines.get none (ti r) with
      | some b => baselineBytes b
      | none => [] with
    check := fun s r => firstFail [((s.baselines.get none (ti r)).isSome, .notPermitted)] }

/-- SOUNDING_BASELINE_READ. -/
def execSoundingBaselineRead (r : Req) (s : State) : Host.Outcome State Fault Refusal := .next (serve soundingBaselineReadCmd r s)

/-- The baseline of a record. -/
def baselineIn (r : Req) : Baseline :=
  { mode := p8 r 1, velocity := p16 r 4, ident := pN r 6 6
    refls := (List.range (p8 r 2)).map fun i =>
      { pos := p16 r (16 + 8 * i), tap := p16 r (18 + 8 * i), rho := i16 r (20 + 8 * i), width := p8 r (22 + 8 * i) } }

/-- SOUNDING_BASELINE_LOAD (0x1516). -/
def soundingBaselineLoadCmd : Cmd where
  op := 0x1516
  target := onPort
  len := len 144
  check := fun _ r => firstFail [inv (p8 r 0 == 1), inv (within (p8 r 1) 4 9), inv (p8 r 2 ≤ 16), inv (rz r 3 1), inv (rz r 12 2),
    inv (p16 r 14 == crc16 (r.params.take 14 ++ r.params.drop 16)), inv ((List.range (p8 r 2)).all fun i => rz r (23 + 8 * i) 1),
    inv ((r.params.drop (16 + 8 * p8 r 2)).all (· == 0))]
  writes := true
  run := doOk fun s r => setBaseline s (ti r) (some (baselineIn r))

/-- SOUNDING_BASELINE_LOAD. -/
def execSoundingBaselineLoad (r : Req) (s : State) : Host.Outcome State Fault Refusal := .next (serve soundingBaselineLoadCmd r s)

/-! ### Opcodes 0x1520 to 0x1522 -/

/-- A cable test of the cove has not ended (R321). -/
def coveTested (s : State) (p : Nat) : Bool :=
  (List.range 8).any fun i => (s.port (p / 8 * 8 + i)).health.cable.isSome

/-- The test begins, after the frame whose first symbol is out; a port in low-power idle wakes first (R320). -/
def beginCable (s : State) (p : Nat) (c : CableTest) : State :=
  let s1 := updHealth (if portLive s p then setLpi s p false false else s) p fun h => { h with
    cable := some { c with stage := 9 }, cables := (h.cables + 1) % 2 ^ 32 }
  if portLive s p ∧ ((s.egr p).mac.map (·.started)).getD false then s1
  else updHealth (enterTest s1 p 7) p fun h => { h with cable := some { c with stage := 0 } }

/-- The MAC's frame has completed, and a waiting test begins. -/
def cableGo (s : State) (p : Nat) : State :=
  match (s.port p).health.cable with
  | some c =>
    if c.stage = 9 ∧ (s.egr p).mac.isNone then
      updHealth (enterTest s p 7) p fun h => { h with cable := some { c with stage := 0 } }
    else s
  | none => s

/-- CABLE_TEST_RUN (0x1520). -/
def cableTestRunCmd : Cmd where
  op := 0x1520
  target := onPort
  len := len 4
  check := fun s r => firstFail [inv (p8 r 0 < 2), inv (p8 r 1 ≤ 2), inv (rz r 2 2),
    (testAllowed s (ti r) || (s.port (ti r)).st == .test, .notPermitted), (!multidrop s (ti r) || (p8 r 0).testBit 0, .notPermitted)]
  writes := true
  take := fun s r _ => if coveTested s (ti r) then some (.busy, []) else none
  run := doAccepted fun s r =>
    beginCable s (ti r) { flags := p8 r 0, amp := p8 r 1, stage := 0, partner := false, waiter := waiterOf 0x1520 r }

/-- CABLE_TEST_RUN. -/
def execCableTestRun (r : Req) (s : State) : Host.Outcome State Fault Refusal := .next (serve cableTestRunCmd r s)

/-- CABLE_TEST_RESULT (0x1521). -/
def cableTestResultCmd : Cmd := readCmd 0x1521 onPort 0 fun s r =>
  resultData s (s.port (ti r)).health.cableStatus (s.port (ti r)).health.cableResult

/-- CABLE_TEST_RESULT. -/
def execCableTestResult (r : Req) (s : State) : Host.Outcome State Fault Refusal := .next (serve cableTestResultCmd r s)

/-- CABLE_TEST_PROFILE_READ (0x1522). -/
def cableTestProfileReadCmd : Cmd := profileRead 0x1522 (·.cableResult) fun v => be 2 v.toNat

/-- CABLE_TEST_PROFILE_READ. -/
def execCableTestProfileRead (r : Req) (s : State) : Host.Outcome State Fault Refusal :=
  .next (serve cableTestProfileReadCmd r s)

end Sys2Proof.Machine
end

