-- ==== Sys2Proof/Machine/Ingress.lean ====
section
/-! DEFINITION. The shoal ingress pipeline from VLAN classification to admission, with policing, sequence generation and
recovery (R445 to R464), and the frame rewrites of R446 and R506. -/

namespace Sys2Proof.Machine

/-! ### Tags and keys (R446, R448) -/

/-- Tag control fields of a frame's VLAN tags, at most two, outermost first. -/
def tagsOf (bs : List Byte) : List Nat := if etOff bs = 20 then [fld bs 14 2, fld bs 18 2] else
  if etOff bs = 16 then [fld bs 14 2] else []

/-- EtherType after the VLAN tags. -/
def etherType (bs : List Byte) : Nat := fld bs (etOff bs) 2

/-- Frame format: 0 untagged, 1 priority-tagged, 2 VLAN-tagged. -/
def frameKind (bs : List Byte) : Nat := match tagsOf bs with
  | [] => 0
  | t :: _ => if t % 4096 = 0 then 1 else 2

/-- The key type that a profile uses for a frame's class. -/
def keyTypeOf (p : IngressCfg) (bs : List Byte) : Nat :=
  let et := etherType bs
  if et = 0x0800 ∨ et = 0x86DD then p.ktIp else if et = 0x22F0 then p.ktAvtp else p.ktOther

/-- Source and destination ports of a transport that has them (TCP, UDP, SCTP). -/
def portsIn (proto : Nat) (t : List Byte) : Nat := if proto = 6 ∨ proto = 17 ∨ proto = 132 then fld t 0 4 else 0

/-- The 40 key bytes of a frame for a key type, as one number; none when the frame has no such key. -/
def keyOf (kt vid : Nat) (bs : List Byte) : Option Nat :=
  let et := etherType bs
  let p := bs.drop (etOff bs + 2)
  if kt = 1 then some (ofBe (padTo 40 (bs.take 6 ++ be 2 vid)))
  else if kt = 2 then some (ofBe (padTo 40 ((bs.drop 6).take 6 ++ be 2 vid)))
  else if kt = 3 then
    if et = 0x0800 then
      let pr := byteAt p 9
      some (ofBe (be 2 vid ++ be 1 (byteAt p 1 / 4) ++ be 1 pr ++ be 4 (portsIn pr (p.drop (byteAt p 0 % 16 * 4))) ++
        zeros 10 ++ be 2 0xFFFF ++ be 4 (fld p 12 4) ++ zeros 10 ++ be 2 0xFFFF ++ be 4 (fld p 16 4)))
    else if et = 0x86DD then
      let pr := byteAt p 6
      some (ofBe (be 2 vid ++ be 1 (fld p 0 2 / 16 % 256 / 4) ++ be 1 pr ++ be 4 (portsIn pr (p.drop 40)) ++
        be 16 (fld p 8 16) ++ be 16 (fld p 24 16)))
    else none
  else if kt = 4 then
    if et = 0x22F0 then some (ofBe (padTo 40 (be 8 (fld p 4 8) ++ be 2 vid))) else none
  else none

/-! ### Rewrites (R446, R461, R464, R506) -/

/-- The frame with another body and its FCS carried incrementally: what the received FCS lacked, the new one lacks. -/
def carryFcs (old body : List Byte) : List Byte :=
  let b := old.take (old.length - 4)
  let f := ofBe (old.drop (old.length - 4)).reverse
  body ++ le 4 (crc32 body ^^^ (f ^^^ crc32 b))

/-- The body of a frame: all bytes but the FCS. -/
def bodyOf (bs : List Byte) : List Byte := bs.take (bs.length - 4)

/-- DEI set in the outer tag, when there is one (R458). -/
def setDei (bs : List Byte) : List Byte :=
  if etOff bs = 12 then bs else carryFcs bs (patch (bodyOf bs) 14 (be 1 (byteAt bs 14 ||| 0x10)))

/-- An R-TAG before the EtherType that follows the VLAN tags (IEEE 802.1CB clause 7.8). -/
def addRtag (bs : List Byte) (q : Nat) : List Byte :=
  let b := bodyOf bs
  carryFcs bs (b.take (etOff bs) ++ be 2 0xF1C1 ++ zeros 2 ++ be 2 q ++ b.drop (etOff bs))

/-- The sequence number of a frame's R-TAG. -/
def rtagOf (bs : List Byte) : Option Nat := if etherType bs = 0xF1C1 then some (fld bs (etOff bs + 4) 2) else none

/-- The frame without its R-TAG. -/
def dropRtag (bs : List Byte) : List Byte :=
  if etherType bs = 0xF1C1 then carryFcs bs ((bodyOf bs).take (etOff bs) ++ (bodyOf bs).drop (etOff bs + 6)) else bs

/-- The VLAN action of an entry, at the egress rewriter: 1 replaces VID and PCP, 2 pushes a tag, 3 pops the outer tag; an
untagged frame has nothing to replace or pop. -/
def vlanAct (act tag : Nat) (bs : List Byte) : List Byte :=
  let b := bodyOf bs
  if act = 2 then carryFcs bs (b.take 12 ++ be 2 0x8100 ++ be 2 tag ++ b.drop 12)
  else if etOff bs = 12 then bs
  else if act = 1 then carryFcs bs (patch b 14 (be 2 ((fld bs 14 2 &&& 0x1000) ||| (tag &&& 0xEFFF))))
  else if act = 3 then carryFcs bs (b.take 12 ++ b.drop 16)
  else bs

/-! ### The table lookup (R445 step 3, R456) -/

/-- `STREAM_ECC_ERROR`: event, entry of class 2, rate count (R456, R513). -/
def streamEcc (s : State) (b : Nat) : State :=
  let d := be 1 (b / 512) ++ be 2 (b % 512)
  let s1 := raise (faultEntry s 0x3101 2 fabricT d) 0x3101 2 fabricT d
  rateError s1 4 (b / 512)

/-- What a lookup finds: dropped at an uncorrectable word, or hit or missed. -/
inductive Found where
  | dropped
  | missed
  | hit (e : StreamEntry)
  deriving DecidableEq, Repr

/-- Look a frame up under its profile; `one` and `two` are the bit errors that the table meets (R456). -/
def lookFrame (s : State) (pos kt vid : Nat) (bs : List Byte) (one two : Bool) : State × Found :=
  if kt = 0 then (s, .missed)
  else match keyOf kt vid bs with
    | none => (s, .missed)
    | some key =>
      let sl := sliceT (posSlice pos)
      let (b0, b1) := probes s.cfg.streams kt key
      let (s1, i1) := takeInject (addLoad s (4 + posSlice pos) 1) 6 sl fabricT
      let (s2, i2) := takeInject s1 7 sl fabricT
      let s3 := if one || i1 then s2.bump 0x3150 pos 8 else s2
      let s4 := if two || i2 then updStrm s3 fun x => { x with ecc := (b0 :: x.ecc).eraseDups } else s3
      match [b0, b1].find? s4.strm.ecc.contains with
      | some b => (streamEcc (s4.bump 0x3150 pos 5) b, .dropped)
      | none => match lookup s4.cfg.streams kt key pos with
        | some (_, e) => (updStrm s4 fun x => { x with lastHit := x.lastHit.set 0 e.handle s.now }, .hit e)
        | none => (s4, .missed)

/-! ### Policing (R457 to R460) -/

/-- What the filter answers: drop, or pass with cut-through still allowed, an inverted FCS due, DEI set, and a class from the
gate. -/
structure Policed where
  drop : Bool := false
  cut : Bool := false
  stomp : Bool := false
  dei : Bool := false
  ipv : Option Nat := none
  deriving DecidableEq, Repr

/-- An oversize frame blocks its filter when the filter says so; the entry to the blocked state is reported (R457). -/
def blockFilter (s : State) (k n : Nat) : State :=
  if (s.cfg.streams.filters.get {} k).block && !s.strm.blocked.contains k then
    raise (updStrm s fun x => { x with blocked := k :: x.blocked }) 0x3102 1 fabricT (be 2 k ++ be 2 (sat 16 n))
  else s

/-- The meter of a filter passes a frame that may go cut-through: its buckets hold tokens for the filter's maximum SDU (R460). -/
def meterCuts (s : State) (k : Nat) : Bool :=
  let f := s.cfg.streams.filters.get {} k
  match s.cfg.streams.meters.get none f.meter with
  | none => true
  | some m =>
    let c := (meterFrame s m (s.strm.meters.get {} f.meter) f.maxSdu 0).1
    c != 2 && !(c == 1 && m.dropYellow)

/-- The meter of a filter judges a frame of `n` bytes: on the filter's maximum SDU when it goes cut-through, and otherwise
on its length (R458, R460). -/
def policeMeter (s : State) (k n : Nat) (cut : Bool) (p : Policed) : State × Policed :=
  let f := s.cfg.streams.filters.get {} k
  match s.cfg.streams.meters.get none f.meter with
  | none => (s, { p with cut })
  | some m =>
    let t := s.strm.meters.get {} f.meter
    let (c1, t1) := meterFrame s m t f.maxSdu n
    if cut then
      ((if c1 = 1 then (setMeter s f.meter t1).bump 0x3113 k 6 else setMeter s f.meter t1), { p with cut, dei := c1 == 1 })
    else
      let (c2, t2) := meterFrame s m t n n
      if c2 = 2 ∨ (c2 = 1 ∧ m.dropYellow) then ((setMeter s f.meter (if c2 = 2 then t2 else fillMeter s m t)).bump 0x3113 k 4,
        { p with drop := true })
      else if c2 = 1 then ((setMeter s f.meter t2).bump 0x3113 k 6, { p with dei := true })
      else (setMeter s f.meter t2, p)

/-- Step 6 of R445 for filter `k` and a frame of `n` bytes; one that may go cut-through and whose token test fails becomes
store-and-forward, and is judged whole (R460). A frame that passes the whole filter counts as passing (DEDUCED, log entry 144). -/
def police (s : State) (k n : Nat) (may : Bool) : State × Policed :=
  let f := s.cfg.streams.filters.get {} k
  let cut := may && meterCuts s k
  let s1 := s.bump 0x3113 k 0
  if s.strm.blocked.contains k then (s1.bump 0x3113 k 5, { drop := true })
  else if f.maxSdu < n ∧ !cut then (blockFilter (s1.bump 0x3113 k 2) k n, { drop := true })
  else
    let g := if f.gate = 0xFFFF then 0x80 else sgateByte s f.gate
    if !g.testBit 7 then (s1.bump 0x3113 k 3, { drop := true })
    else
      let (s2, p) := policeMeter s1 k n cut { ipv := if g.testBit 3 then some (g % 8) else none }
      if p.drop then (s2, p)
      else if f.maxSdu < n then ((blockFilter (s2.bump 0x3113 k 2) k n).bump 0x3113 k 1, { p with stomp := true })
      else (s2.bump 0x3113 k 1, p)

/-! ### The pipeline (R445) -/

/-- A frame that the pipeline hands to admission. -/
structure Flow where
  bytes : List Byte
  cls : Nat
  mask : Nat
  tide : Bool
  entry : Option StreamEntry
  /-- Cut-through is allowed to the egresses that meet conditions 1 to 3 of R432. -/
  cut : Bool
  stomp : Bool
  deriving DecidableEq, Repr

/-- Rate of an ingress position, kbit/s. -/
def ingressRate (s : State) (pos : Nat) : Nat := egressRate s pos

/-- Conditions 1 to 3 of R432 for an ingress and an egress. -/
def cutPair (s : State) (pos e : Nat) : Bool :=
  let f := s.cfg.fabric
  (if pos < 128 then f.ctInPorts.testBit pos && 3 ≤ (s.port pos).resMode else f.ctInLinks.testBit (pos - 128)) &&
    (if e < 128 then f.ctOutPorts.testBit e else f.ctOutLinks.testBit (e - 128)) && egressRate s e ≤ ingressRate s pos

/-- Any egress of a mask can take the frame cut-through. -/
def cutAny (s : State) (pos mask : Nat) : Bool := (maskList 192 mask).any (cutPair s pos)

/-- Step 7: the R-TAG with the generator's next number (R461). -/
def generate (s : State) (g : Nat) (bs : List Byte) : State × List Byte :=
  let q := s.strm.gens.get 0 g
  (updStrm s fun x => { x with gens := x.gens.set 0 g ((q + 1) % 65536) }, addRtag bs q)

/-- Steps 4 to 8 for a frame that hit an entry, of class `pcp` by its tag. -/
def hitFrame (s : State) (pos pcp : Nat) (bs : List Byte) (e : StreamEntry) : State × Option Flow :=
  let d := s.cfg.streams.dests.get {} e.dest
  let may := e.flags.testBit 4 && !e.flags.testBit 3 && cutAny s pos d.mask
  if e.flags.testBit 1 then (s.bump 0x3150 pos 4, none)
  else
    let (s1, p) := if e.filter = 0xFFFF then (s, { cut := may }) else police s e.filter bs.length may
    if p.drop then (s1.bump 0x3150 pos 6, none)
    else
      let b1 := if p.dei then setDei bs else bs
      let (s2, b2) := if e.flags.testBit 2 then generate s1 e.frer b1 else (s1, b1)
      let cls := p.ipv.getD (if e.cls.testBit 7 then e.cls % 8 else pcp)
      if d.mask = 0 ∧ !d.tide then (s2.bump 0x3150 pos 4, none)
      else (s2, some { bytes := b2, cls, mask := d.mask, tide := d.tide || e.flags.testBit 0, entry := some e, cut := p.cut,
                       stomp := p.stomp })

/-- Steps 2 to 8 of R445 for a frame at an ingress position. -/
def pipeline (s : State) (pos : Nat) (bs : List Byte) (one two : Bool) : State × Option Flow :=
  let p := s.cfg.streams.profiles.get {} pos
  let kind := frameKind bs
  if !p.accept.testBit kind then (s.bump 0x3150 pos 3, none)
  else
    let tci := (tagsOf bs).headD 0
    let vid := if kind = 2 then tci % 4096 else p.vid
    let pcp := if kind = 2 then tci / 8192 else p.pcp
    match lookFrame s pos (keyTypeOf p bs) vid bs one two with
    | (s1, .dropped) => (s1, none)
    | (s1, .missed) =>
      if !p.missFwd then (s1.bump 0x3150 pos 2, none)
      else
        let d := s1.cfg.streams.dests.get {} p.missDest
        let s2 := s1.bump 0x3150 pos 1
        if d.mask = 0 ∧ !d.tide then (s2.bump 0x3150 pos 4, none)
        else (s2, some { bytes := bs, cls := pcp, mask := d.mask, tide := d.tide, entry := none, cut := cutAny s2 pos d.mask,
                         stomp := false })
    | (s1, .hit e) => hitFrame (s1.bump 0x3150 pos 0) pos pcp bs e

/-- A copy goes to the Tide Table while its island takes it (R445 step 8, R479, crossing X6). -/
def copyToTide (s : State) (pos : Nat) (fl : Flow) (good : Bool) : State :=
  if fl.tide && tideRuns s then
    tideCopy (s.bump 0x3150 pos 7) { bytes := fl.bytes, handle := (fl.entry.map (·.handle)).getD (2 ^ 32), pos,
                                     tm := s.tidemark, valid := s.timeValid, good }
  else s

/-- Recovery at enqueue: the frame's bytes when it is passed (R463, R464). -/
def recoverFlow (s : State) (fl : Flow) : State × Option (List Byte) :=
  match fl.entry with
  | some e =>
    if e.flags.testBit 3 then
      let (s1, ok) := recover s e.frer (rtagOf fl.bytes)
      let strip := ((s.cfg.streams.recs.get none e.frer).map fun c => c.flags.testBit 1).getD false
      (s1, if ok then some (if strip then dropRtag fl.bytes else fl.bytes) else none)
    else (s, some fl.bytes)
  | none => (s, some fl.bytes)

/-- A metadata parity failure of a frame not yet in transmission: counted, and the rate count of 0x0905 (R509). -/
def metaDrop (s : State) : State := rateError (s.bump 0x0905 0 1) 6 0

/-- Hand a frame to admission: cut-through to the egresses that meet R432, store-and-forward to the others; a frame that is
bad goes on only where it has been forwarded already (R116, R426, R460). -/
def forward (s : State) (pos : Nat) (fl : Flow) (good metaBad : Bool) : State :=
  let s1 := copyToTide s pos fl good
  let sl := posSlice pos
  let (s2, i1) := takeInject s1 4 (sliceT sl) fabricT
  let (s3, i2) := if pos < 128 then takeInject s2 4 (portT pos) (portT pos) else (s2, false)
  let dests := (maskList 192 fl.mask).map fun e => (e, fl.cut && cutPair s3 pos e)
  let use := if good && !fl.stomp then dests else dests.filter (·.2)
  if use.isEmpty then s3
  else if metaBad || i1 || i2 then metaDrop s3
  else match recoverFlow s3 fl with
    | (s4, none) => cellsWritten s4 sl (cellsOf fl.bytes.length)
    | (s4, some bs) => admitFrame s4
        { pos, slice := sl, bytes := bs, stamp := s.now, stampValid := s.timeValid, bad := !good || fl.stomp,
          carryBad := false, metaBad := false, vact := (fl.entry.map (·.vact)).getD 0
          vtag := (fl.entry.map (·.vtag)).getD 0, holders := []
          strength := if pos < 128 ∧ (s.port pos).resMode ≤ 2 then (s.port pos).md.strength else none } fl.cls use

/-- A frame of receive outcome 6, or one whose cells have left before its outcome showed it bad, through the pipeline: cut-through
to an egress, or to the Tide Table (R116, R485, log entry 70). Any other bad frame leaves no trace beyond its port's counter. -/
def ingressFrame (s : State) (pos : Nat) (bs : List Byte) (good one two metaBad : Bool) : State :=
  match pipeline s pos bs one two with
  | (s1, none) => if good then s1 else s
  | (s1, some fl) =>
    if good || fl.tide || (fl.cut && cutAny s1 pos fl.mask) then forward s1 pos fl good metaBad else s

end Sys2Proof.Machine
end

