-- ==== Sys2Proof/Machine/Multidrop.lean ====
section
/-! DEFINITION. 10BASE-T1S reception, PLCA, collisions, discipline faults, and the commands of opcodes 0x14xx (R255 to R295). -/

namespace Sys2Proof.Machine

/-- Change the multidrop record of a port. -/
def updMd (s : State) (p : Nat) (f : Md → Md) : State := s.updPort p fun x => { x with md := f x.md }

/-- The port's 10BASE-T1S receiver is on: Training or Up in mode 0x01 or 0x02. -/
def t1sOn (s : State) (p : Nat) : Bool :=
  let x := s.port p
  (x.st == .training || x.st == .up) && (x.resMode == 1 || x.resMode == 2)

/-- The port runs on a segment: Training (listening) or Up in mode 0x02. -/
def segmentOn (s : State) (p : Nat) : Bool := t1sOn s p && (s.port p).resMode == 2

/-- The medium is in use by another node: a reception, or the search for its start (R255). -/
def rxBusy (s : State) (p : Nat) : Bool := (s.port p).md.rx == 1 || (s.port p).md.rx == 2

/-- A transmission of the port's own is under way. -/
def txBusy (s : State) (p : Nat) : Bool := (s.egr p).mac.isSome

/-- The current opportunity ID (R275): while the medium is silent one opportunity follows another by the opportunity timer, of
`toTimer` BT; a transmission holds it, and the next one opens at its end. IDs above 254 are not told apart. -/
def curOpp (s : State) (p : Nat) : Nat :=
  let m := (s.port p).md
  if (s.port p).md.rx = 2 ∨ txBusy s p then m.opp
  else if s.now < m.oppAt then m.opp - 1
  else min 254 (m.opp + (s.now - m.oppAt) / (400 * m.toTimer))

/-- The present opportunity ends at a ticker value, and the next one opens then. -/
def nextOpp (s : State) (p t : Nat) : State := s.updPort p fun x => { x with md := { x.md with
  opp := if x.md.plca = 1 then min 254 (x.md.opp + 1) else x.md.opp, oppAt := t } }

/-- A signal strength as reported: 0x80 when not available (R266). -/
def strengthByte (o : Option Int) : List Byte := match o with
  | some v => beI 1 v
  | none => be 1 0x80

/-! ### Discipline faults (R286, R287) -/

/-- A discipline fault of a kind: always counted, and raised outside the hold-off. -/
def mdFault (s : State) (p kind : Nat) (strength : Option Int) (rise : Nat) : State :=
  let m := (s.port p).md
  let s1 := updMd (s.bump 0x1403 p 11) p fun m => { m with faults := m.faults + 1 }
  let hold : Bool := match m.faultAt with
    | some t => decide (s.now < t + (s.pcfg p).md.holdOff * 4000000)
    | none => false
  if hold then s1
  else
    let opp := if m.plca = 1 then (if kind = 1 then m.rxOpp else curOpp s p) else 0xFF
    raise (updMd s1 p fun m => { m with faults := 0, faultAt := some s.now }) 0x1401 1 (portT p)
      (be 1 kind ++ be 1 opp ++ strengthByte strength ++ be 1 rise ++ be 2 (sat 16 (m.faults + 1)))

/-! ### Node identity changes (R290) -/

/-- A change of node ID from nonzero to 0 applies at a receive gap: the port listens anew. -/
def mdGap (s : State) (p : Nat) : State :=
  let m := (s.port p).md
  if segmentOn s p ∧ m.node ≠ 0 ∧ (s.pcfg p).md.node = 0 ∧ m.rx ≠ 1 ∧ m.rx ≠ 2 then
    setPlca (updMd s p fun m => { m with node := 0, open_ := false, used := false, beaconAt := none }) p 2
  else s

/-- The receiver is armed again. -/
def mdArm (s : State) (p : Nat) : State := mdGap (updMd s p fun m => { m with rx := 0 }) p

/-! ### Burst reception (R263 to R274) -/

/-- PREAMBLE_DETECT: 6 BT of clock transitions at `mv` millivolts, above the squelch threshold; `level` is latched. -/
def execPreambleDetect (p : PortId) (level : BitVec 8) (mv : Nat) (s : State) : Host.Outcome State Fault Refusal :=
  .next (
    let m := (s.port p.val).md
    if t1sOn s p.val ∧ (m.rx = 0 ∨ m.rx = 3) ∧ (s.pcfg p.val).md.squelch < mv then
      updMd s p.val fun m => { m with
        rx := 1, level := level.toInt, strength := none, preOpp := if m.plca = 1 then curOpp s p.val else 0xFF }
    else s)

/-- SSD_DETECT: the frame's signal strength is latched, with the opportunity ID current at the SSD (R266, R285): that of its
preamble, at which the medium ceased to be silent, or for a burst frame (`burst`: its sender has held the medium since its last frame)
that of the frame before. -/
def execSsdDetect (p : PortId) (strength : BitVec 8) (burst : Bool) (s : State) : Host.Outcome State Fault Refusal :=
  .next (
    if t1sOn s p.val ∧ (s.port p.val).md.rx = 1 then
      let v : Option Int := if strength = 0x80 then none else some strength.toInt
      let on := (s.port p.val).md.plca == 1
      updMd s p.val fun m =>
        let opp := if burst then m.rxOpp else m.preOpp
        { m with
          rx := 2, strength := v, lastStrength := v, rxOpp := if on then opp else 0xFF
          opp := if on then opp else m.opp, open_ := m.open_ && !on }
    else s)

/-- SSD_SEARCH_TIMEOUT: no SSD within 96 BT (R267). -/
def execSsdSearchTimeout (p : PortId) (s : State) : Host.Outcome State Fault Refusal :=
  .next (if t1sOn s p.val ∧ (s.port p.val).md.rx = 1 then mdArm (s.bump 0x1403 p.val 4) p.val else s)

/-- RX_REARM: a rise of 9 dB during the SSD search, in 0.5 dB (R268). -/
def execRxRearm (p : PortId) (rise : BitVec 8) (s : State) : Host.Outcome State Fault Refusal :=
  .next (if t1sOn s p.val ∧ (s.port p.val).md.rx = 1 ∧ 18 ≤ rise.toNat then mdArm (s.bump 0x1403 p.val 5) p.val else s)

/-- Change the attribution of an opportunity ID. -/
def updNode (s : State) (p id : Nat) (f : MdNode → MdNode) : State :=
  updMd s p fun m => { m with nodes := m.nodes.upd {} id f }

/-- RX_OVERLAP: a rise of 6 dB between SSD and ESD; the frame is discarded, and no R115 counter changes (R271, R274, R285). The next
opportunity is taken to open now: the spec does not say when it opens after an overlap (DESIGN CHOICE, log entry 137). -/
def execRxOverlap (p : PortId) (rise : BitVec 8) (s : State) : Host.Outcome State Fault Refusal :=
  .next (
    let q := p.val
    let m := (s.port q).md
    if t1sOn s q ∧ m.rx = 2 ∧ 12 ≤ rise.toNat then
      let s1 := nextOpp (updMd (s.bump 0x1403 q 6) q fun m => { m with rx := 3 }) q s.now
      let s2 := if m.rxOpp < 255 then updNode s1 q m.rxOpp fun n => { n with flags := n.flags ||| 2 } else s1
      mdGap (if (s.port q).resMode = 2 then mdFault s2 q 1 m.strength rise.toNat else s2) q
    else s)

/-- A frame with a strength has been received: attributed when its outcome is 6 and PLCA was active at its SSD (R285). -/
def mdFrame (s : State) (p : Nat) (good : Bool) : State :=
  let m := (s.port p).md
  let s1 := if good ∧ (s.port p).resMode = 2 ∧ m.rxOpp < 255 then
      updNode s p m.rxOpp fun n => { n with
        flags := n.flags ||| 1, frames := (n.frames + 1) % 2 ^ 64, last := m.strength
        low := match m.strength, n.low with
          | some v, some l => some (min v l)
          | some v, none => some v
          | none, l => l }
    else s
  mdArm (nextOpp s1 p s.now) p

/-! ### PLCA (R275 to R280) -/

/-- A BEACON opens a cycle at the port: its length since the last one, in BT, and opportunity 0. -/
def mdCycle (s : State) (p : Nat) : State :=
  updMd (s.bump 0x1403 p 0) p fun m =>
    let n := m.beaconAt.map fun t => sat 16 ((s.now - t) / 400)
    { m with opp := 0, oppAt := s.now, beaconAt := some s.now, open_ := false, used := false
             lastCycle := n.getD m.lastCycle, longest := max m.longest (n.getD 0) }

/-- PLCA becomes active: a frame that waits for the MAC's backoff waits for the next opportunity instead (R283). -/
def plcaActive (s : State) (p : Nat) : State :=
  updMd (setPlca s p 1) p fun m => { m with retry := m.retry || m.backoff, backoff := false }

/-- A BEACON of another node at a port whose node ID is 0 (R277, R278). -/
def foreignBeacon (s : State) (p : Nat) : State :=
  let s1 := mdFault (s.bump 0x1403 p 9) p 3 none 0
  if (s.port p).md.plca = 2 then updMd s1 p fun m => { m with beaconAt := some s.now } else s1

/-- BEACON_RX. -/
def execBeaconRx (p : PortId) (s : State) : Host.Outcome State Fault Refusal :=
  .next (
    let q := p.val
    let m := (s.port q).md
    if !segmentOn s q then s
    else if m.node = 0 then foreignBeacon s q
    else
      let c := (s.pcfg q).md.node
      let s1 := if m.node ≠ c ∧ c ≠ 0 then updMd s q fun m => { m with node := c } else s
      if (s.port q).st = .training then mdCycle (plcaActive (goUp s1 q) q) q
      else mdCycle (if m.plca = 1 then s1 else plcaActive s1 q) q)

/-- PLCA_LISTEN_TIMEOUT: 400 µs without a BEACON: a coordinator takes the segment, a follower falls back when it may; one at Up that
may not, since its node ID has become nonzero while it listened, leaves Up (R277, R279, R290). -/
def execPlcaListenTimeout (p : PortId) (s : State) : Host.Outcome State Fault Refusal :=
  .next (
    let q := p.val
    let m := (s.port q).md
    if !segmentOn s q ∨ m.plca ≠ 2 then s
    else
      let up := fun (s : State) => if (s.port q).st = .training then goUp s q else s
      let fresh := fun (s : State) => updMd s q fun m => { m with beaconAt := none }
      if m.node = 0 then plcaActive (fresh (up s)) q
      else if (s.pcfg q).md.flags.testBit 0 then setPlca (fresh (up s)) q 3
      else if (s.port q).st = .up then loseLink (setPlca s q 0) q 2
      else s)

/-- BEACON_LOSS_TIMEOUT: a follower at Up has heard no BEACON for 400 µs (R279). -/
def execBeaconLossTimeout (p : PortId) (s : State) : Host.Outcome State Fault Refusal :=
  .next (
    let q := p.val
    let m := (s.port q).md
    if !segmentOn s q ∨ m.plca ≠ 1 ∨ m.node = 0 ∨ (s.port q).st ≠ .up then s
    else
      let s1 := updMd (s.bump 0x1403 q 10) q fun m => { m with open_ := false, used := false, beaconAt := none }
      if (s.pcfg q).md.flags.testBit 0 then
        updMd (setPlca s1 q 3) q fun m => { m with backoff := m.backoff || m.retry, retry := false }
      else loseLink (setPlca s1 q 0) q 2)

/-- PLCA_CYCLE_START: the coordinator sends a BEACON; node count and opportunity timer apply with it. A port whose node ID has
become nonzero sends none and follows (R275, R290). -/
def execPlcaCycleStart (p : PortId) (s : State) : Host.Outcome State Fault Refusal :=
  .next (
    let q := p.val
    let m := (s.port q).md
    let c := (s.pcfg q).md
    if !segmentOn s q ∨ m.plca ≠ 1 ∨ m.node ≠ 0 ∨ (s.port q).st ≠ .up then s
    else if c.node ≠ 0 then updMd s q fun m => { m with node := c.node, open_ := false }
    else mdCycle (updMd s q fun m => { m with count := c.count, toTimer := c.toTimer }) q)

/-! ### Transmission (R276, R283) -/

/-- The frame in the MAC begins, or begins again. -/
def macStart (s : State) (p : Nat) : State :=
  s.updEgr p fun x => { x with mac := x.mac.map fun m => { m with started := true, stamp := some (s.now, s.timeValid) } }

/-- TX_OPPORTUNITY: the port's own opportunity opens; a frame that a collision has stopped is sent again (R276, R283). -/
def execTxOpportunity (p : PortId) (s : State) : Host.Outcome State Fault Refusal :=
  .next (
    let q := p.val
    let m := (s.port q).md
    if !segmentOn s q ∨ m.plca ≠ 1 ∨ (s.port q).st ≠ .up then s
    else
      let s1 := updMd (s.bump 0x1403 q 1) q fun m => { m with
        opp := m.node, oppAt := s.now, open_ := true, used := false, bursts := (s.pcfg q).md.burst
        burstTimer := (s.pcfg q).md.burstTimer }
      if m.retry then
        macStart (updMd (s1.bump 0x1403 q 2) q fun m => { m with retry := false, used := true }) q
      else s1)

/-- The port may take a frame for the segment, and what taking it does: none when it may not. It does not while it receives (R255);
with PLCA active its first frame begins before its opportunity has lapsed, and each burst frame within the burst timer (R275, R276). -/
def takeTurn (s : State) (p : Nat) : Option State :=
  let m := (s.port p).md
  if rxBusy s p then none
  else if (s.port p).resMode = 1 then some s
  else if m.plca = 3 then some s
  else if m.plca ≠ 1 ∨ !m.open_ then none
  else if !m.used then
    if s.now ≤ m.oppAt + 400 * m.toTimer then some (updMd (s.bump 0x1403 p 2) p fun m => { m with used := true }) else none
  else if m.bursts = 0 ∨ m.burstEnd < s.now then none
  else some (updMd (s.bump 0x1403 p 3) p fun m => { m with bursts := m.bursts - 1, opp := m.node })

/-- The port's own frame has left the MAC complete: its attempts are over; the burst timer starts, and the next opportunity opens when
no burst frame can follow (R276, R283). -/
def mdSent (s : State) (p : Nat) : State :=
  let m := (s.port p).md
  let s1 := updMd s p fun d => { d with attempts := 0 }
  if (s.port p).resMode = 2 ∧ m.plca = 1 ∧ m.open_ then
    let last := if m.bursts = 0 then s.now else s.now + 400 * m.burstTimer
    nextOpp (updMd s1 p fun d => { d with open_ := d.bursts != 0, burstEnd := last }) p last
  else s1

/-- TX_COLLISION: jam, count, and a retry, or the discard after 16 attempts (R283, R284); `rise` in 0.5 dB. -/
def execTxCollision (p : PortId) (rise : BitVec 8) (s : State) : Host.Outcome State Fault Refusal :=
  .next (
    let q := p.val
    let m := (s.port q).md
    match (s.egr q).mac with
    | none => s
    | some f =>
      if !t1sOn s q ∨ !f.started then s
      else
        let active : Bool := (s.port q).resMode == 2 && m.plca == 1
        let s1 := s.bump 0x1403 q 7
        let s2 := nextOpp (if active then mdFault s1 q 2 none rise.toNat else s1) q s.now
        if 15 ≤ m.attempts then
          (leaveRing (updMd (s2.bump 0x1403 q 8) q fun m => { m with attempts := 0, open_ := false, retry := false, backoff := false }) q none).updEgr q
            fun x => { x with mac := none }
        else
          (updMd s2 q fun m => { m with attempts := m.attempts + 1, retry := active, backoff := !active, open_ := false }).updEgr q
            fun x => { x with mac := some { f with started := false } })

/-- CSMA_BACKOFF_EXPIRY: the MAC sends the frame again, unless the medium is in use (R255, R283). -/
def execCsmaBackoffExpiry (p : PortId) (s : State) : Host.Outcome State Fault Refusal :=
  .next (
    let m := (s.port p.val).md
    if t1sOn s p.val ∧ m.backoff ∧ !rxBusy s p.val ∧ ((s.port p.val).resMode = 1 ∨ m.plca = 3) then
      macStart (updMd s p.val fun m => { m with backoff := false }) p.val
    else s)

/-! ### Opcodes 0x14xx -/

/-- The effect of MD_CONFIG (R289, R290). -/
def mdApply (s : State) (p : Nat) (c : MdCfg) : State :=
  let s1 := s.updPcfg p fun x => { x with md := c }
  if !segmentOn s p then updMd s1 p fun m => { m with node := c.node, count := c.count, toTimer := c.toTimer }
  else if (s.port p).md.plca = 2 ∧ (s.port p).md.node = 0 then updMd s1 p fun m => { m with node := c.node }
  else mdGap s1 p

/-- MD_CONFIG (0x1401). -/
def mdConfigCmd : Cmd := confCmd 0x1401 onPort 12
  (fun _ r => firstFail [inv (p8 r 0 < 2), inv (p8 r 1 ≠ 255), inv (p8 r 2 ≠ 0), inv (p8 r 3 ≠ 0), inv (p8 r 5 ≠ 0), inv (p16 r 6 ≠ 0),
    inv (p16 r 8 ≠ 0), inv (rz r 10 2), rng (within (p16 r 6) 50 400), rng (p16 r 8 ≤ 1000)])
  fun s r => mdApply s (ti r) { flags := p8 r 0, node := p8 r 1, count := p8 r 2, toTimer := p8 r 3, burst := p8 r 4
                                burstTimer := p8 r 5, squelch := p16 r 6, holdOff := p16 r 8 }

/-- MD_CONFIG. -/
def execMdConfig (r : Req) (s : State) : Host.Outcome State Fault Refusal := .next (serve mdConfigCmd r s)

/-- Result of MD_STATUS. -/
def mdStatusData (s : State) (r : Req) : List Byte :=
  let m := (s.port (ti r)).md
  be 1 (if m.node = 0 then 1 else 2) ++ be 1 m.plca ++ be 1 (if m.plca = 1 then curOpp s (ti r) else 0xFF) ++ strengthByte m.lastStrength ++
    be 2 m.lastCycle ++ be 2 m.longest ++ be 4 (if m.plca = 1 then sat 32 (s.secsSince m.activeSince) else 0) ++ zeros 4

/-- MD_STATUS (0x1402). -/
def mdStatusCmd : Cmd :=
  { readCmd 0x1402 onPort 0 mdStatusData with check := fun s r => firstFail [(multidrop s (ti r), .notPermitted)] }

/-- MD_STATUS. -/
def execMdStatus (r : Req) (s : State) : Host.Outcome State Fault Refusal := .next (serve mdStatusCmd r s)

/-- MD_COUNTERS_READ (0x1403). -/
def mdCountersReadCmd : Cmd := readCmd 0x1403 onPort 0 fun s r => s.cblock 0x1403 (tw r) (ti r) 0 12

/-- MD_COUNTERS_READ. -/
def execMdCountersRead (r : Req) (s : State) : Host.Outcome State Fault Refusal := .next (serve mdCountersReadCmd r s)

/-- MD_COUNTERS_CLEAR (0x1404). -/
def mdCountersClearCmd : Cmd := portClear 0x1404 0x1403

/-- MD_COUNTERS_CLEAR. -/
def execMdCountersClear (r : Req) (s : State) : Host.Outcome State Fault Refusal := .next (serve mdCountersClearCmd r s)

/-- One entry of MD_NODE_TABLE_READ. -/
def mdNodeEntry (s : State) (p id : Nat) : List Byte :=
  let n := (s.port p).md.nodes.get {} id
  be 1 id ++ be 1 n.flags ++ strengthByte n.last ++ strengthByte n.low ++ zeros 4 ++ be 8 n.frames

/-- MD_NODE_TABLE_READ (0x1405). -/
def mdNodeTableReadCmd : Cmd where
  op := 0x1405
  target := onPort
  len := len 4
  check := fun _ r => firstFail [inv (p8 r 0 ≤ 254), inv (rz r 2 2), rng (p8 r 1 ≤ 64), rng (p8 r 1 == 0 || p8 r 0 + p8 r 1 ≤ 255)]
  run := readOk fun s r => ((List.range (p8 r 1)).map fun i => mdNodeEntry s (ti r) (p8 r 0 + i)).flatten

/-- MD_NODE_TABLE_READ. -/
def execMdNodeTableRead (r : Req) (s : State) : Host.Outcome State Fault Refusal := .next (serve mdNodeTableReadCmd r s)

/-- MD_NODE_TABLE_CLEAR (0x1406). -/
def mdNodeTableClearCmd : Cmd :=
  clearCmd 0x1406 onDevice 16 (fun _ r => (portMask r 0).map portT) fun s r =>
    eachN s (portMask r 0) fun s p => updMd s p fun m => { m with nodes := [] }

/-- MD_NODE_TABLE_CLEAR. -/
def execMdNodeTableClear (r : Req) (s : State) : Host.Outcome State Fault Refusal := .next (serve mdNodeTableClearCmd r s)

end Sys2Proof.Machine
end

