-- ==== Sys2Proof/Machine/Frames.lean ====
section
/-! DEFINITION. Frames at the egress: reads of their cells, the scheduler's hand-over to the MAC, the end of a transmission, and
the flush of held frames (R106, R107, R116, R343, R427 to R437, R467 to R470, R503 to R509). -/

namespace Sys2Proof.Machine

/-! ### Cell reads (R413, R414, R420, R437, R503) -/

/-- A cell CRC failure outside the ring, or a carried FCS that disagrees: the rate count of 0x0906 (R514). -/
def carryError (s : State) (idx : Nat) : State := rateError (s.bump 0x0905 0 idx) 7 0

/-- The bank of cell `i` of a frame: its slice's banks take its cells in turn (R413). -/
def cellBank (f : Frame) (i : Nat) : Nat := f.slice * 32 + (f.bank + i % max 1 (cellsOf f.bytes.length)) % 32

/-- A cell of a frame, and the row that holds it, which the model does not follow. -/
def someRow (s : State) (f : Frame) : Nat × Nat := (cellBank f (Config.rowPick s.freeCtr), Config.rowPick (s.freeCtr + 1) % 8192)

/-- Read a frame's cells for egress `e` with what the reads meet, injected errors included: the state, whether a word or a ring
crossing failed, and whether a cell CRC failed. -/
def readCells (s : State) (f : Frame) (e : Nat) (x : ReadErr) : State × Bool × Bool :=
  let sl := sliceT f.slice
  let (s1, one) := takeInject s 2 sl fabricT
  let (s2, five) := takeInject s1 3 sl fabricT
  let (s3, c1) := takeInject s2 1 sl fabricT
  let (s4, c2) := if e < 128 then takeInject s3 1 (portT e) (portT e) else (s3, false)
  let s5 := s4.bumpBy 0x3013 f.slice 2 (x.corrected + b2n one)
  let bad : Option (Nat × Nat) := match x.bad with
    | some (b, r) => some (cellBank f b, r.val)
    | none => if five then some (someRow s5 f) else none
  let s6 := match bad with
    | some (b, r) => uncorrectable (if x.bad.isNone then s5.draw.draw else s5) b r 1
    | none => s5
  let ring := x.ring && f.slice != posSlice e
  let s7 := if ring then cellError (s6.bump 0x3013 (posSlice e) 4) (posSlice e) 1 0xFF 0 1 else s6
  let crc := x.crc || c1 || c2
  (if crc then carryError s7 0 else s7, bad.isSome || ring, crc)

/-! ### FRAME_DEQUEUE -/

/-- A drain of an egress's own port, lane, link, quay or cove stops it; one of a slice only stops admission (R556). -/
def txDrained (s : State) (e : Nat) : Bool := (drains s).any fun t => tgtDom t != 7 && drainStops s t e

/-- The port's MAC takes no frame: a restart, a Slack handshake, a cable test, or low-power idle on transmit. -/
def portHeld (s : State) (p : Nat) : Bool :=
  let x := s.port p
  x.restart.isSome || x.power.handshake != 0 || ((x.health.cable.map fun c => c.stage == 9).getD false) || x.power.lpiTx ||
    (x.resMode == 9 && x.vs.txLpi != 0) || x.quietHold

/-- The link takes no frame: a restart or Ebb waits for its last one. -/
def linkHeld (s : State) (k : Nat) : Bool := (s.link k).restartDue || (s.link k).ebbDue

/-- The egress may take a frame from its queues. -/
def egressOpen (s : State) (e : Nat) : Bool :=
  egressLive s e && !s.ctl.safeState && !txDrained s e && !islandShut s (24 + posSlice e) &&
    !(if e < 128 then portHeld s e else linkHeld s (e - 128))

/-- A frame leaves a queue and is discarded. -/
def discardHead (s : State) (q i : Nat) : State := unqueue s q i

/-- Discard the frames at the head of class `t` that are longer than any open interval of it (R468), with at most `fuel` frames. -/
def dropLong (e t : Nat) : Nat → State → State
  | 0, s => s
  | fuel + 1, s => match (s.queue (qn e t)).head? with
    | none => s
    | some i =>
      if tooLong s e t (headLen s e t) then
        dropLong e t fuel (updGcl (discardHead s (qn e t) i) e fun g => { g with tooLong := (g.tooLong + 1) % 2 ^ 64 })
      else s

/-- The MAC is free for class `t`, an express frame taking it from a preemptable one (R430, R469). -/
def macFree (s : State) (e t : Nat) : Bool := match (s.egr e).mac with
  | none => true
  | some m => e < 128 && m.started && preemptable s e m.cls && !preemptable s e t && (s.egr e).held.isNone

/-- The frame of class `t` goes to the MAC, its cells across the ring when another slice stores them (R419, R421, R431). -/
def handOver (s : State) (e t id : Nat) (f : Frame) (started : Bool) : State :=
  let q := qn e t
  let cut := f.holders.any fun h => h.1 == q && h.2.2
  let s1 := preemptFrame (settleCredit s e) e
  let s2 := unqueue s1 q id
  let path := ringPath f.slice (posSlice e) e
  let s3 := enterRing ((s2.bump 0x3011 q 2).bumpBy 0x3011 q 3 (b2n cut)) path
    { egress := e, cls := t, cells := cellsOf f.bytes.length, cut }
  s3.updEgr e fun x => { x with mac := some { frame := f, cls := t, started, cut, path, stamp := if started then some (s.now, s.timeValid) else none } }

/-- The scheduler's choice is read and handed over, or discarded (R343, R427, R437, R509). -/
def dequeueClass (s : State) (e t : Nat) (started : Bool) (x : ReadErr) : State :=
  match (s.queue (qn e t)).head? with
  | none => s
  | some id => match s.frame id with
    | none => s
    | some f =>
      if islandShut s (24 + f.slice) then s
      else if e < 128 ∧ fld f.bytes 0 6 = slackGroup then (discardHead s (qn e t) id).bump 0x1610 e 6
      else
        let (s1, bad, crc) := readCells (cellsRead s f.slice (cellsOf f.bytes.length)) f e x
        if x.parity ∨ f.metaBad then metaDrop (discardHead s1 (qn e t) id)
        else if bad then (discardHead s1 (qn e t) id).bump 0x3011 (qn e t) 7
        else if crc then discardHead s1 (qn e t) id
        else
          let turn := if e < 128 ∧ (s.port e).resMode ≤ 2 then takeTurn s1 e else some s1
          match turn with
          | none => s
          | some s2 => handOver s2 e t id f started

/-- FRAME_DEQUEUE: the scheduler serves an egress; `started`: the first symbol goes out at once; `x`: what the reads meet. -/
def execFrameDequeue (e : Fin 192) (started : Bool) (x : ReadErr) (s : State) : Host.Outcome State Fault Refusal :=
  .next (
    let q := e.val
    if !egressOpen s q ∨ (q < 128 ∧ (s.port q).resMode ≤ 2 ∧ (takeTurn s q).isNone) then s
    else
      let s1 := (List.range 8).foldl (fun s t => dropLong q t (s.queue (qn q t)).length s) s
      match schedule s1 q with
      | none => s1
      | some (t, ds, turn) =>
        if !macFree s1 q t then s1
        else dequeueClass (s1.updEgr q fun x => { x with deficit := ds, turn }) q t started x)

/-! ### FRAME_TX_COMPLETE -/

/-- A loopback test frame: the port's link identity as source, its sequence number, and the next part of PRBS31; and the generator
after it (R627). -/
def testFrame (p : Nat) (t : PortTest) : List Byte × Nat :=
  let r := prbsBytes (t.length - 23) t.gen
  (withFcs (be 6 0x6BD719000002 ++ be 6 (linkIdent p) ++ be 2 0x88B6 ++ be 1 0x10 ++ be 4 (t.sent % 2 ^ 32) ++ r.1), r.2)

/-- The generator of a near-end loopback has sent a test frame (R626, R627). -/
def loopSent (s : State) (p : Nat) : State :=
  let t := (s.port p).test
  if within t.action 1 3 ∧ t.generator ≠ 0 ∧ (t.generator = 2 ∨ t.sent < t.count) then
    let r := testFrame p t
    ((s.updPort p fun x => { x with test := { x.test with sent := x.test.sent + 1, gen := r.2 } }).updEgr p fun x => { x with
      out := some r.1 }).bump 0x8022 p 0
  else s

/-- The bytes that leave: rewritten by the VLAN action, with the carried FCS (R446, R506). -/
def sentBytes (f : Frame) : List Byte := vlanAct f.vact f.vtag f.bytes

/-- A frame with the inverse of its computed CRC as FCS (R507). -/
def invertFcs (bs : List Byte) : List Byte := bodyOf bs ++ le 4 (crc32 (bodyOf bs) ^^^ 0xFFFFFFFF)

/-- The carried FCS disagrees with the bytes. -/
def fcsDiffers (bs : List Byte) : Bool := bs.drop (bs.length - 4) != le 4 (crc32 (bodyOf bs))

/-- Count a frame that has left complete with a correct FCS (R119, R406). -/
def countSent (s : State) (e n : Nat) : State :=
  let op := if e < 128 then 0x1010 else 0x2012
  let b := if e < 128 then e else e - 128
  (s.bump op b 8).bumpBy op b 9 n

/-- What waits for the end of a port's frame: a restart, a cable test, a Slack request or accept (R110, R320, R344, R345). -/
def portFrameEnd (s : State) (p : Nat) : State :=
  match (s.port p).restart with
  | some c => breakLink s p c
  | none => slackGo (cableGo s p) p

/-- The end of a transmission: the FCS compared, the frame counted, and what waited for it (R116, R433, R437, R507 to R509). -/
def txEnd (s : State) (e : Nat) (m : MacFrame) (x : ReadErr) (upset under : Bool) : State :=
  let (s1, bad, crc) := readCells (settleCredit s e) m.frame e x
  let (s2, inj) := if e < 128 then takeInject s1 5 (portT e) (portT e) else (s1, false)
  let bs := sentBytes m.frame
  let differs := upset || inj || m.frame.carryBad || (!m.frame.bad && fcsDiffers bs)
  let late := under && m.cut
  let s3 := if late then s2.bump 0x3013 (posSlice e) 6 else s2
  let s4 := if differs then carryError s3 2 else s3
  let stomp := differs || late || bad || crc || m.frame.bad || x.parity || m.frame.metaBad
  let s5 := if stomp then countStomp s4 e else countSent s4 e bs.length
  let s6 := (leaveRing s5 e (some m.cls)).updEgr e fun y => { y with
    mac := none, out := some (if stomp then invertFcs bs else bs), outStamp := some (m.stamp.getD (s.now, s.timeValid)) }
  let s7 := if e < 128 then mdSent s6 e else s6
  let s8 := resumeFrame s7 e
  if (s8.egr e).mac.isSome then s8
  else if e < 128 then portFrameEnd s8 e else linkFrameEnd (sendReplies s8 (e - 128)) (e - 128)

/-- FRAME_TX_COMPLETE: `x` what the reads met after the first symbol, `upset` a rewriter upset, `under` a cut-through cell that
was not in hand. A port in a near-end loopback ends a test frame. -/
def execFrameTxComplete (e : Fin 192) (x : ReadErr) (upset under : Bool) (s : State) : Host.Outcome State Fault Refusal :=
  .next (
    let q := e.val
    if q < 128 ∧ (s.port q).st = .test then loopSent s q
    else match (s.egr q).mac with
      | none => s
      | some m => if egressLive s q then txEnd s q m x upset under else s)

/-! ### EGRESS_FLUSH_TIMEOUT -/

/-- EGRESS_FLUSH_TIMEOUT: the port has been down for its flush time, with no hold of R76 on it (R107). -/
def execEgressFlushTimeout (p : PortId) (s : State) : Host.Outcome State Fault Refusal :=
  .next (if portLive s p.val ∨ overridden s p.val then s else flushEgress s p.val (countFlush · p.val))

end Sys2Proof.Machine
end

