-- ==== Sys2Proof/Machine/Vs50Frames.lean ====
section
/-! DEFINITION. VS50 PHY frames: reception with frame lock, low-power idle tracking, decoding, training blocks and OAM
collection; transmission of header, OAM and codeword region (R132 to R155, R226 to R235, R300 to R302). -/

namespace Sys2Proof.Machine

/-! ### Codewords (R300 to R302) -/

/-- Count one codeword of a live port: symbols corrected, none when uncorrectable. -/
def countCw (s : State) (p : Nat) (sym : Option Nat) : State :=
  let s1 := s.bump 0x1503 p 0
  match sym with
  | none => s1.bump 0x1503 p 2
  | some k =>
    let s2 := s1.bump 0x1503 p (6 + min k 15)
    if k = 0 then s2 else (s2.bump 0x1503 p 1).bumpBy 0x1503 p 3 k

/-- Add codewords to the FEC window of a port (R304): how many, uncorrectable among them, and bits corrected. -/
def fecWindow (s : State) (p cw unc bitsFixed : Nat) : State :=
  s.updPort p fun x => { x with health := { x.health with
    winCw := x.health.winCw + cw, winUnc := x.health.winUnc + unc, winBits := x.health.winBits + bitsFixed
    uncAt := if unc = 0 then x.health.uncAt else some s.now } }

/-- Count the two codewords of a VS50 frame. -/
def countFrame (s : State) (p : Nat) (d : RegionRx) : State :=
  let unc := b2n d.symA.isNone + b2n d.symB.isNone
  let s1 := (countCw (countCw s p d.symA) p d.symB).bumpBy 0x1503 p 4 d.bitsFixed
  fecWindow (if unc = 0 then s1 else s1.bump 0x1503 p 5) p 2 unc d.bitsFixed

/-! ### Reception -/

/-- The receiver loses frame lock (R145), and with it what it has towards its exit criterion (R232); after an accept of Slack the partner's silence has no effect (R346). -/
def loseLock (s : State) (p : Nat) : State :=
  if expectsSilence s p then s else
  let s1 := updVs (s.bump 0x1103 p 2) p fun v => { v with lock := 0, confirm := 0, invalidRun := 0, rxSync := false }
  loseLink (updStart s1 p fun t => { t with rxReady := false, clean := 0, good := 0 }) p 2

/-- TYPE and PHASE that a receiver in Locked predicts (R142). -/
def predicted (x : Port) : Nat × Nat :=
  match x.vs.rxLpi with
  | 1 => (2, 0) | 3 => (2, 1) | 4 => (2, 2)
  | _ => (if x.st == .training && !x.start.dataSeen then 1 else 0, 0)

/-- The partner's low-power idle state and the frames in it after a frame of a TYPE and PHASE (R143). The reserved PHASE 0b11, of
which the spec does not say what the tracking does, leaves both as they are (DESIGN CHOICE, log entry 131). -/
def trackLpi (v : Vs50) (type phase : Nat) : Nat × Nat :=
  let n := fun (st : Nat) => if v.rxLpi = st then v.rxCount + 1 else 1
  if type ≠ 2 then (0, 0)
  else match phase with
    | 0 => if n 1 = 16 then (2, 0) else (1, n 1)
    | 1 => if n 3 = 24 then (2, 0) else (3, n 3)
    | 2 => if n 4 = 24 then (0, 0) else (4, n 4)
    | _ => (v.rxLpi, v.rxCount)

/-- A frame is the first of a refresh or of a wake, where the scrambler reseeds (R135). -/
def firstOfBurst (lpi type phase : Nat) : Bool := type == 2 && ((phase == 1 && lpi != 3) || (phase == 2 && lpi != 4))

/-- The frame kind carries OAM (R155). -/
def carriesOam (type phase : Nat) : Bool := type == 0 || (type == 2 && phase == 1)

/-- Collect the OAM bytes of a frame; the eighth completes a word whose frames all carried OAM. -/
def collectOam (v : Vs50) (fcnt oam : Nat) (valid carries : Bool) : Vs50 :=
  let k := fcnt % 8
  let old := if k = 0 then [] else v.oamBytes
  let fits : Bool := old.length == 2 * k
  let bytes := if fits then old ++ be 2 oam else []
  let lost : Bool := (k != 0 && v.oamLost) || !valid
  let whole : Bool := (k == 0 || v.oamWhole) && fits && carries
  { v with oamBytes := bytes, oamLost := lost, oamWhole := whole
           oamWord := if k = 7 ∧ whole then some (bytes, lost) else v.oamWord }

/-- A training frame's region: block, pattern errors and the exit criterion of the phase (R226 to R228, R232). `st0` is the scrambler
as it follows the frames before, none when the frame count has not followed them. -/
def rxTraining (s : State) (q fcnt : Nat) (st0 : Option Nat) (margin : Int) (ys : List Nat) : State :=
  let t := (s.port q).start
  let s1 := match parseBlk ys with
    | some b => takeBlock s q b
    | none => s
  let phase := (parseBlk ys).map (·.phase) |>.getD t.phase
  let (want, st1) := pattern phase (st0.getD (patternStart phase fcnt))
  let got := if phase ≤ 5 then (ys.drop 144).map fun y => if 2 ≤ y then 3 else 0 else ys.drop 144
  updStart (updVs s1 q fun v => { v with rxScr := st1, rxSync := true }) q fun u =>
    let clean := cleanRun want got u.clean
    let errs := (List.zipWith (fun a b => b2n (a != b)) want got).sum
    let good := if u.use.margin ≤ margin then u.good + 1 else 0
    { u with clean, good, reached := some margin, patErrs := u.patErrs + errs
             rxReady := if u.phase = 5 then 2 ^ 20 ≤ clean else (u.phase = 6 || u.phase = 7) && 256 ≤ good }

/-- The words of a frame's region: those of its blocks, or error words when a codeword is uncorrectable (R152). -/
def frameWords (bits : Option (List Bool)) : List MiiWord := match bits with
  | some bs => pcsWords 40 bs
  | none => List.replicate 160 errWord

/-- A data or low-power idle frame's region is decoded, descrambled and given to the MAC (R133, R148 to R152). Every idle word is
deleted, however many the MAC's rate asks for (log entry 126). -/
def rxData (s : State) (p scr : Nat) (ys : List Nat) : State :=
  let d := decodeRegion ys
  let r := scramble scr (d.bits.getD (List.replicate 10280 false))
  let ws := frameWords (d.bits.map fun _ => r.1)
  let s1 := updVs s p fun v =>
    let t := ws.foldl walkWord { inside := v.rxInside, bad := v.rxHit, ended := v.rxEnded }
    { v with rxScr := r.2, rxOut := ws.filter (· != idleWord), rxInside := t.inside, rxHit := t.bad, rxEnded := t.ended }
  if portLive s p then countFrame s1 p d else s1

/-- What any valid header carries, whatever the lock state: its flags, the frame count, BF with its stale anchor entries, and the
partner's degrade flag (R147, R206, event 0x1103). Timing that was held goes on from it (R174). -/
def headerFlags (s : State) (p : Nat) (h : Vs50Hdr) : State :=
  let v := (s.port p).vs
  let s1 := if h.bf then s.bump 0x1103 p 13 else s
  let s2 := if h.ld ∧ !v.ld then raise s1 0x1103 1 (portT p) (margin16 v.partnerMargin) else s1
  s2.updPort p fun x => { x with
    vs := { x.vs with
      invalidRun := 0, rxFcnt := h.fcnt, rxNext := (h.fcnt + 1) % 256, rxType := h.type, rf := h.rf, ld := h.ld, lr := h.lr
      hold := x.vs.bf, bf := h.bf }
    dsp := { x.dsp with
      anchor := if h.bf then x.dsp.anchor.map fun a => { a with staleRx := true } else x.dsp.anchor
      timing := { x.dsp.timing with held := false } } }

/-- A valid header in Locked: a frame count other than the predicted one counts, and is adopted (R144). -/
def takeHeader (s : State) (p : Nat) (h : Vs50Hdr) : State :=
  headerFlags (if h.fcnt = (s.port p).vs.rxNext then s else s.bump 0x1103 p 3) p h

/-- One frame received in Locked (R142 to R144): `h` is none for an invalid header. -/
def rxLocked (s : State) (p : Nat) (h : Option Vs50Hdr) (ys : List Nat) (margin : Int) : State :=
  let x := s.port p
  let v := x.vs
  let fcnt := (h.map (·.fcnt)).getD v.rxNext
  let (type, phase) := match h with
    | some h => (h.type, h.phase)
    | none => predicted x
  let s1 := match h with
    | some h => takeHeader (s.bump 0x1103 p 0) p h
    | none => updVs ((s.bump 0x1103 p 0).bump 0x1103 p 1) p fun v => { v with
        invalidRun := v.invalidRun + 1, rxNext := (v.rxNext + 1) % 256, hold := v.bf }
  if h.isNone ∧ v.invalidRun + 1 = 4 then loseLock s1 p
  else
    let (lpi, n) := trackLpi v type phase
    let s2 := if type = 2 ∧ phase = 0 ∧ v.rxLpi ≠ 1 then s1.bump 0x1103 p 9 else s1
    let s3 := updVs s2 p fun w => { collectOam w fcnt ((h.map (·.oam)).getD 0) h.isSome (carriesOam type phase) with
      rxLpi := lpi, rxCount := n, rxExpect := 512, missed := if lpi = 3 ∨ lpi = 0 ∨ lpi = 4 then 0 else w.missed }
    let s4 := setLpi s3 p x.power.lpiTx (lpi != 0)
    let scr := if fcnt = 0 ∨ firstOfBurst v.rxLpi type phase then scrSeed else v.rxScr
    if type = 1 then
      let follows : Bool := fcnt == 0 || (v.rxSync && fcnt == v.rxNext)
      (if x.st = .training then rxTraining s4 p fcnt (if follows then some scr else none) margin ys else s4)
    else
      let s5 := rxData s4 p scr ys
      if x.st = .training ∧ x.start.phase = 8 ∧ type = 0 ∧ h.isSome then updStart s5 p fun t => { t with dataSeen := true } else s5

/-- One virtual frame of the partner's Quiet passes (R143); timing recovery holds frequency and phase in it (R174). -/
def rxVirtual (s : State) (p : Nat) : State :=
  s.updPort p fun x => { x with
    vs := { x.vs with rxCount := x.vs.rxCount + 1, rxNext := (x.vs.rxNext + 1) % 256, hold := false }
    dsp := { x.dsp with timing := { x.dsp.timing with held := true } } }

/-- Header checks run in Quiet at this virtual frame: the window of R162, or a header that starts Wake. A period whose header is
invalid there passes as a virtual frame: whether it counts in VS50_HDR_ERR is open for a refresh that has not started, and the model
counts and decodes nothing (DESIGN CHOICE, log entry 131). -/
def quietHears (v : Vs50) (h : Vs50Hdr) : Bool :=
  (h.type == 2 && h.phase == 2) || (v.rxExpect ≤ v.rxCount + 2 && v.rxCount ≤ v.rxExpect + 2)

/-- Headers of a receiver without lock (R138, R141): the first valid one counts among the four that give lock. -/
def rxSearch (s : State) (p : Nat) (w : BitVec 64) : State :=
  let found := fun (h : Vs50Hdr) (inverted : Bool) => updVs (headerFlags s p h) p fun v => { v with
    lock := 1, confirm := 1, inverted, rxLpi := 0, rxCount := 0, rxSync := false }
  match parseHdr w, parseHdr (~~~w) with
  | some h, _ => found h false
  | none, some h => found h true
  | none, none => s

/-- VS50_FRAME_RX: one frame period at the receiver, a virtual one of the partner's Quiet included. `hdr` holds the 64 header
symbols as decided (a period without a frame decides to no valid header), `region` the 5,440 symbols after them, and `margin` the
margin measured on them. -/
def execVs50FrameRx (p : PortId) (hdr : BitVec 64) (region : List Nat) (margin : Int) (s : State) :
    Host.Outcome State Fault Refusal :=
  .next (
    let q := p.val
    let x := s.port q
    let v := x.vs
    let w := if v.inverted ∧ v.lock ≠ 0 then ~~~hdr else hdr
    let ys := if v.inverted then region.map (3 - ·) else region
    if x.resMode ≠ 9 ∨ !(x.st == .training || portLive s q || farEnd x) then s
    else match v.lock with
      | 0 => rxSearch s q hdr
      | 1 => match parseHdr w with
        | some h => updVs (headerFlags s q h) q fun v => { v with
            confirm := v.confirm + 1, lock := if v.confirm + 1 = 4 then 2 else 1 }
        | none => updVs s q fun v => { v with lock := 0, confirm := 0 }
      | _ =>
        if v.rxLpi = 2 then
          match parseHdr w with
          | some h => if quietHears v h then rxLocked s q (some h) ys margin else rxVirtual s q
          | none => rxVirtual s q
        else rxLocked s q (parseHdr w) ys margin)

/-! ### Transmission -/

/-- The settings that the last frame announced apply from this frame on (R147, R159, R235). -/
def applyAnnounced (s : State) (p : Nat) : State :=
  let x := s.port p
  match x.vs.newTx with
  | some (amp, pre, post) =>
    if x.vs.bfSent then
      let s1 := if x.vs.replyHeld then s.bump 0x1103 p 12 else s
      let s2 := updVs s1 p fun v => { v with amp, pre, post, newTx := none, bfSent := false, replyHeld := false }
      if x.start.ackDue then
        (updStart s2 p fun t => { t with ackTgl := !t.ackTgl, ackResult := 0, ackDue := false }).bump 0x1303 p 11
      else s2
    else s
  | none => s

/-- A committed amplitude that is not yet in use is announced, with a step that waits to be announced in the same frame (R167). -/
def wantAmp (s : State) (p : Nat) : State :=
  let c := (s.pcfg p).vs.amp
  updVs s p fun v => { v with newTx := match v.newTx with
    | none => if v.amp = c then none else some (c, v.pre, v.post)
    | some (a, pre, post) => some (if v.bfSent then a else c, pre, post) }

/-- What the transmitter sends at this boundary: nothing, a training frame, or a frame of a TYPE and PHASE. -/
def txKind (s : State) (p : Nat) : Option (Nat × Nat) :=
  let x := s.port p
  let t := x.start
  if x.st == .training then
    match t.phase with
    | 8 => if 0 < t.left then some (1, 0) else some (0, 0)
    | n => if within n 5 7 ∨ 0 < t.left then some (1, 0) else none
  else match x.vs.txLpi with
    | 0 => some (0, 0)
    | 1 => if x.vs.txCount < 16 then some (2, 0) else none
    | 3 => if x.vs.txCount < 24 then some (2, 1) else none
    | 4 => if x.vs.txCount < 24 then some (2, 2) else none
    | _ => none

/-- LD is sent (R139, R166). -/
def sendsLd (s : State) (p : Nat) : Bool :=
  let c := (s.pcfg p).vs
  c.flags.testBit 0 && match (s.port p).health.margin with | some m => decide (m < c.degrade) | none => false

/-- The 160 words that a frame of a TYPE and PHASE carries, and the words left waiting: low-power idle in Sleep and Refresh, idle in
Wake (R161), else those of the MAC with idle inserted between packets, low-power idle while the MAC asserts it (R133). -/
def frameTake (x : Port) (type phase : Nat) : List MiiWord × List MiiWord :=
  if type = 2 then (List.replicate 160 (if phase = 2 then idleWord else lpiWord), x.vs.txWords)
  else takeWords (if x.power.macLpi then lpiWord else idleWord) 160 x.vs.txWords

/-- The region of a frame: the training block with its pattern, or the scrambled and encoded blocks; and the scrambler after it. -/
def txRegion (s : State) (p type scr : Nat) (ws : List MiiWord) : List Nat × Nat :=
  if type = 1 then
    let block := ((ctlBytes s p).flatMap fun b => toBits 8 b.toNat).map fun b => if b then 3 else 0
    let r := pattern (s.port p).start.phase scr
    (block ++ r.1, r.2)
  else
    let r := scramble scr (pcsBits ws)
    (encodeRegion r.1, r.2)

/-- Send one frame of a TYPE and PHASE. -/
def txFrame (s : State) (p type phase : Nat) : State :=
  let v := (s.port p).vs
  let fcnt := v.txFcnt
  let starts : Bool := type == 0 || v.txCount + 8 ≤ 24
  let (s1, oam) := oamField s p fcnt (carriesOam type phase) starts
  let v1 := (s1.port p).vs
  let bf : Bool := v1.newTx.isSome && !v1.bfSent
  let h : Vs50Hdr :=
    { type, fcnt, phase, oam, bf, lr := type == 2 && phase != 2, rf := v1.lock != 2, ld := portLive s p && sendsLd s p }
  let first : Bool := type == 2 && phase != 0 && v.txCount == 0
  let (ws, rest) := if type = 1 then ([], v.txWords) else frameTake (s1.port p) type phase
  let (region, scr) := txRegion s1 p type (if fcnt = 0 ∨ first then scrSeed else v.txScr) ws
  let s2 := updVs s1 p fun w => { w with
    txFcnt := (fcnt + 1) % 256, txCount := if type = 2 then w.txCount + 1 else 0, txScr := scr
    bfSent := w.newTx.isSome, txOut := some (h.word, region), txWords := rest
    lpiFrames := if type = 0 ∧ ws.all (· == lpiWord) then w.lpiFrames + 1 else 0 }
  if (s.port p).st = .training then
    updStart s2 p fun t => { t with left := t.left - 1, dataSent := t.dataSent || type == 0 }
  else s2

/-- A frame of a port in Test: a far-end loopback sends back the words of the last frame received, which stand in its elastic buffer
of one frame (R628; DESIGN CHOICE, log entry 147); test modes 6 and 7 send idle, the frame count counting (R630). -/
def testSends (s : State) (p : Nat) : State :=
  let v := (s.port p).vs
  let back := if farEnd (s.port p) then v.rxOut else []
  txFrame (updVs s p fun v => { v with txWords := back, rxOut := [] }) p 0 0

/-- VS50_FRAME_TX: the transmitter reaches a frame boundary. `words` are those that the MAC has given the PCS since the last one. In
Quiet a virtual frame passes, until 512 have (R161); a silent side sends nothing. -/
def execVs50FrameTx (p : PortId) (words : List MiiWord) (s : State) : Host.Outcome State Fault Refusal :=
  .next (
    let q := p.val
    let x := s.port q
    if driversOff s then s
    else if idleTest x ∨ (x.resMode = 9 ∧ farEnd x) then testSends s q
    else if x.resMode ≠ 9 ∨ !(x.st == .training || portLive s q) then s
    else
      let s0 := updVs s q fun v => { v with txWords := v.txWords ++ words }
      let s1 := wantAmp (applyAnnounced s0 q) q
      match txKind s1 q with
      | some (type, phase) => txFrame s1 q type phase
      | none =>
        updVs s1 q fun v =>
          let quiet : Bool := v.txLpi == 2 && v.txCount < 512
          { v with txOut := none, txFcnt := if quiet then (v.txFcnt + 1) % 256 else v.txFcnt
                   txCount := if quiet then v.txCount + 1 else v.txCount })

end Sys2Proof.Machine
end

