-- ==== Sys2Proof/Machine/Registry.lean ====
section
/-! DEFINITION. The opcodes of the device by number (Command reference), and Flaes requests as bytes (R34, R47 step 1, R670,
R682). Where an opcode's row has operands beside the request, a request that comes as bytes takes the outcomes of an
undisturbed device (log entry 63). -/

namespace Sys2Proof.Machine

/-! ### Opcodes -/

/-- Control path and integrity, 0x00xx and 0x09xx. -/
def controlCmds : List Cmd :=
  [identityReadCmd, deviceStatusCmd, controlCountersReadCmd, controlCountersClearCmd, authPolicySetCmd, authKeyProgramCmd,
    authKeyRevokeCmd, epochOpenCmd, epochCommitCmd, epochAbortCmd, epochStatusCmd, transportConfigCmd, eventRouteCmd,
    eventMaskCmd, eventReadCmd, eventAckCmd, integrityConfigCmd, integrityStatusCmd, integrityFaultClearCmd,
    faultLogReadCmd, integrityCountersReadCmd, integrityCountersClearCmd, faultInjectCmd]

/-- Breakwater, 0xF0xx. -/
def breakwaterCmds : List Cmd :=
  [safeStateCmd, portQuietCmd, readFaultRecordCmd, domainResetCmd, deviceWarmResetCmd, echoCmd, readCoreStatusCmd]

/-- Line ports, 0x1xxx. -/
def portCmds : List Cmd :=
  [portModeSetCmd, portModeGetCmd, portAdminCmd, portStatusReadCmd, portCountersReadCmd, portCountersClearCmd,
    coveStatusCmd, vs50ConfigCmd, vs50StatusCmd, vs50CountersReadCmd, vs50CountersClearCmd, vs50OamSendCmd, vs50OamReadCmd,
    dspConfigCmd, dspStatusCmd, bundleGroupSetCmd, bundleGroupGetCmd, xtalkStatusCmd, echoWindowSetCmd, anchorControlCmd,
    dspCountersReadCmd, dspCountersClearCmd, tapReadCmd, startConfigCmd, startStatusCmd, startCountersReadCmd,
    startCountersClearCmd, relinkStoreReadCmd, relinkStoreClearCmd, startRestartCmd, mdConfigCmd, mdStatusCmd,
    mdCountersReadCmd, mdCountersClearCmd, mdNodeTableReadCmd, mdNodeTableClearCmd, healthConfigCmd, healthStatusCmd,
    healthCountersReadCmd, healthCountersClearCmd] ++
  [soundingConfigCmd, soundingRunCmd, soundingResultReadCmd, soundingProfileReadCmd, soundingBaselineSetCmd,
    soundingBaselineReadCmd, soundingBaselineLoadCmd, cableTestRunCmd, cableTestResultCmd, cableTestProfileReadCmd,
    portPowerConfigCmd, portSlackCmd, portPowerStatusCmd, devicePowerSetCmd, devicePowerStatusCmd, wakeConfigCmd,
    powerCountersReadCmd, powerCountersClearCmd]

/-- Host lanes and links, 0x2xxx. -/
def hostCmds : List Cmd :=
  [hostLinkConfigCmd, hostLaneConfigCmd, hostLinkMacConfigCmd, hostAdminCmd, hostEbbCmd, hostLaneStatusCmd,
    hostLinkStatusCmd, hostLaneCountersReadCmd, hostLaneCountersClearCmd, hostLinkCountersReadCmd,
    hostLinkCountersClearCmd, eyeScanStartCmd, eyeScanReadCmd, hostTestCmd]

/-- Fabric, streams and time, 0x3xxx. -/
def fabricCmds : List Cmd :=
  [fabricConfigCmd, fabricStatusCmd, queueConfigCmd, schedulerConfigCmd, shaperConfigCmd, cutThroughConfigCmd,
    queueStatusCmd, queueCountersReadCmd, queueCountersClearCmd, sliceCountersReadCmd, sliceCountersClearCmd, sliceGateCmd,
    streamTableConfigCmd, streamEntryWriteCmd, streamEntryDeleteCmd, streamEntryReadCmd, streamLookupCmd,
    streamTableStatusCmd, destWriteCmd, ingressProfileSetCmd, qciFilterSetCmd, qciMeterSetCmd, qciGateSetCmd,
    qciCountersReadCmd, qciCountersClearCmd, frerSeqgenSetCmd, frerRecoverySetCmd, frerCountersReadCmd,
    frerCountersClearCmd, gclLoadCmd, gclSetCmd, gclStatusCmd, gclReadCmd, preemptConfigCmd, preemptStatusCmd,
    preemptCountersReadCmd, preemptCountersClearCmd, ingressCountersReadCmd, ingressCountersClearCmd, timeReadCmd] ++
  [timeAdjustCmd, gptpConfigCmd, gptpPortConfigCmd, gptpStatusCmd, gptpCountersReadCmd, ppsConfigCmd, ppsInReadCmd]

/-- Tide Table, 0x4xxx. -/
def tideCmds : List Cmd :=
  [ttSourceBindCmd, ttLayoutSetCmd, ttLayoutDeleteCmd, ttSignalDefineCmd, ttComposeSetCmd, ttComposeTemplateCmd,
    ttDigestRouteSetCmd, ttSignalReadCmd, ttSignalWriteCmd, ttLayoutStatusCmd, ttStatusCmd, ttComposeSendCmd,
    ttCountersReadCmd, ttCountersClearCmd]

/-- Clocks, 0x50xx. -/
def clockCmds : List Cmd :=
  [clockStatusCmd, dvfsConfigCmd, avsConfigCmd, islandGateCmd, clockFlagsClearCmd, clockCountersReadCmd,
    clockCountersClearCmd]

/-- Resets and start, 0x60xx, but for `BOOT_PROFILE_APPLY`. -/
def resetCmds : List Cmd :=
  [resetBlockCmd, resetDomainCmd, resetStatusCmd, bootStatusCmd, watchdogConfigCmd, firmwareSelectCmd,
    resetCountersReadCmd, resetCountersClearCmd]

/-- Calibration and MRAM, 0x70xx. -/
def nvmCmds : List Cmd :=
  [calConfigCmd, calRunCmd, calStatusCmd, calStoreCmd, calCountersReadCmd, calCountersClearCmd, nvmSlotStatusCmd,
    nvmReadCmd, (nvmWriteBeginCmd false), (nvmWriteCmd false), nvmWriteEndCmd, nvmInvalidateCmd, nvmCountersReadCmd,
    nvmCountersClearCmd]

/-- Self-test and repair, 0x80xx. -/
def testCmds (pre : Precond) : List Cmd :=
  [(selftestRunCmd pre), selftestStatusCmd, selftestAbortCmd, selftestResultReadCmd, repairStatusCmd, (repairFuseCmd pre),
    portLoopbackCmd, portTestModeCmd, portTestCountersReadCmd, portTestCountersClearCmd]

/-- Every opcode but `BOOT_PROFILE_APPLY`, `pre` being what the monitors read. -/
def cmds (pre : Precond) : List Cmd :=
  controlCmds ++ portCmds ++ hostCmds ++ fabricCmds ++ tideCmds ++ clockCmds ++ resetCmds ++ nvmCmds ++ testCmds pre ++
    breakwaterCmds

/-- What the monitors last read: the rails as reported, or at nominal, and a clock on its reference. -/
def seenPre (s : State) : Precond :=
  { clock := 0
    rails := (List.range 8).map fun k =>
      let v := s.elec.rails.get 0 k
      if v ≠ 0 then v
      else if k = 0 then (pointTarget s s.clk.point * 1000 + 32768) / 65536
      else railNominal k }

/-- The opcode's command. -/
def cmdOf (s : State) (op : Nat) : Option Cmd := (cmds (seenPre s)).find? fun c => c.op == op

/-! ### Requests as bytes -/

/-- Length field of a packet. -/
def pktLen (bs : List Byte) : Nat := fld bs 10 2

/-- Bytes that a request occupies (R682): header, parameters, check word, and the CMAC when AUTH is 1. -/
def pktExtent (bs : List Byte) : Nat := 20 + pktLen bs + if (byteAt bs 1 % 2) = 1 then 16 else 0

/-- Step 1 of R47, the length: the field is at most 1,024 and the packet lies within the bytes. -/
def pktLenOk (bs : List Byte) : Bool := 20 ≤ bs.length && pktLen bs ≤ 1024 && pktExtent bs ≤ bs.length

/-- Step 1 of R47, the check word (R36). -/
def pktCrcOk (bs : List Byte) : Bool := fld bs (16 + pktLen bs) 4 == crc32c (bs.take (16 + pktLen bs))

/-- Opcode of a packet. -/
def pktOp (bs : List Byte) : Nat := fld bs 2 2

/-- The request that a packet carries, from a source and, on Ethernet, a source address. -/
def pktReq (src : SourceId) (sa : Nat) (bs : List Byte) : Req :=
  let n := pktLen bs
  { src, version := bs.getD 0 0, flags := bs.getD 1 0, tag := BitVec.ofNat 16 (fld bs 4 2), target := BitVec.ofNat 32 (fld bs 6 4)
    seq := BitVec.ofNat 16 (fld bs 12 2), rsvd := BitVec.ofNat 16 (fld bs 14 2), sa := BitVec.ofNat 48 sa
    params := (bs.drop 16).take n
    cmac := if (byteAt bs 1) % 2 = 1 then some (BitVec.ofNat 128 (fld bs (20 + n) 16)) else none }

end Sys2Proof.Machine
end

