-- ==== Sys2Proof/Machine/Commit.lean ====
section
/-! DEFINITION. Commits: prepare, the blocks' boundaries, the timeout and the return to the prior configuration (R61 to R66,
R105, R113); boot profiles, READY, and `BOOT_PROFILE_APPLY` (R560 to R572, R577). -/

namespace Sys2Proof.Machine

/-! ### Whether a block can take its change (R57, R61, R65, R105, R400) -/

/-- A test runs on the block, or on a part of it. -/
def blockTest (s : State) (b : Nat) : Bool :=
  match tgtDom b with
  | 7 => (fabricT :: (List.range 4).map sliceT).any (testRunning s)
  | 8 => (tideT :: (List.range 16).map engineT).any (testRunning s)
  | _ => (blocksOf s b).any (underTest s)

/-- The last staged `PORT_ADMIN` for the port of block `b` asks for quiet: the port needs no boundary (R121). -/
def quietBound (s : State) (b : Nat) : Bool :=
  match (s.epoch.staged.filter fun x => x.op == 0x1003 && x.blocks.contains b).getLast? with
  | some x => p8 x.req 0 == 2
  | none => false

/-- The link of lane `m` is up. -/
def laneBusy (s : State) (m : Nat) : Bool := match s.linkOf m with
  | some k => (s.link k).st == .up
  | none => false

/-- The block needs no further boundary: a port that is down or quiet, a link that is not up, tables between two lookups, and
settings without a data path (R61, R65, R400, log entry 64). -/
def appliesNow (s : State) (b : Nat) : Bool :=
  !blockTest s b && match tgtDom b with
    | 1 => atBoundary s (tgtNum b) || quietBound s b
    | 4 => !laneBusy s (tgtNum b)
    | 5 => (s.link (tgtNum b)).st != .up
    | 6 => (List.range 8).all fun j => (s.link (8 * tgtNum b + j)).st != .up
    | 8 => !blockShut s b
    | _ => true

/-- The transmitter of a VS50 port is in Sleep, Quiet or Wake, where its boundary waits for the next Refresh (R61, R164). -/
def awaitsRefresh (s : State) (p : Nat) : Bool :=
  vs50Live s p && (s.port p).vs.txLpi != 0 && (s.port p).vs.txLpi != 3

/-- A boundary that the block reaches lets it apply: no test, no Slack handshake, in low-power idle a Refresh, its island open
(R105, R164, R346). -/
def boundaryOpen (s : State) (b : Nat) : Bool :=
  !blockTest s b && match tgtDom b with
    | 1 => appliesNow s b || ((s.port (tgtNum b)).power.handshake == 0 && !awaitsRefresh s (tgtNum b))
    | 8 => !blockShut s b
    | _ => true

/-! ### Prepare and apply -/

/-- The staged commands in the order in which a block applies them: administrative holds first (R121). -/
def applyOrder (e : Epoch) : List Staged := (e.staged.filter (·.op == 0x1003)) ++ e.staged.filter (·.op != 0x1003)

/-- A staged command, judged again on a configuration with those before it (R62): the configuration with it. -/
def shadow (v : State) (x : Staged) : Option State :=
  match cmdOf v x.op with
  | some c => if c.target v (tw x.req) && (c.check v x.req).isNone then some { v with cfg := (c.run v x.req).1.cfg } else none
  | none => none

/-- The shadows of every staged command: the configuration that the commit makes, or the block of the first command that no
longer applies. -/
def prepare (v : State) : List Staged → Cfg × Option Nat
  | [] => (v.cfg, none)
  | x :: xs => match shadow v x with
    | some v' => prepare v' xs
    | none => (v.cfg, some (x.blocks.headD 0))

/-- What a command's checks see at apply: the blocks' own device, fabric and Tide Table settings as they stand, and the commit's
for ports, lanes and links. -/
def applyView (s : State) : State :=
  let d := s.epoch.draft.getD s.cfg
  { s with cfg := { d with dev := s.cfg.dev, fabric := s.cfg.fabric, streams := s.cfg.streams, tide := s.cfg.tide } }

/-- Opcodes whose parameters are the whole of what they set at a block; `ECHO_WINDOW_SET` sets one window (R59). -/
def setsWhole (op : Nat) : Bool :=
  [0x1001, 0x1003, 0x1101, 0x1201, 0x1203, 0x1206, 0x1301, 0x1401, 0x1501, 0x1510, 0x1601, 0x2001, 0x2002, 0x2003, 0x2004].contains op

/-- Staged command `y` sets the same field of block `b` as `x` (R59). -/
def sameField (x y : Staged) (b : Nat) : Bool :=
  x.op == y.op && setsWhole x.op && y.blocks.contains b && (x.op != 0x1206 || p8 x.req 0 == p8 y.req 0)

/-- One block applies one staged command; a command that proves not to apply names the block. -/
def applyOne (x : Staged) (acc : State × Option Nat) (b : Nat) : State × Option Nat :=
  match acc.2, cmdOf acc.1 x.op with
  | none, some c =>
    let r := c.narrow x.req b
    if (c.check (applyView acc.1) r).isSome then (acc.1, some b) else ((c.run acc.1 r).1, none)
  | _, _ => acc

/-- The blocks of a list apply a list of staged commands; of two that set the same field of a block, the later one alone (R59). -/
def applyList (bs : List Nat) : List Staged → State × Option Nat → State × Option Nat
  | [], acc => acc
  | x :: xs, acc =>
    applyList bs xs ((x.blocks.filter fun b => bs.contains b && !xs.any fun y => sameField x y b).foldl (applyOne x) acc)

/-- The blocks of a list apply their shadows. -/
def applyBlocks (s : State) (bs : List Nat) : State × Option Nat := applyList bs (applyOrder s.epoch) (s, none)

/-! ### The ends of a commit (R62, R66, R569, R577) -/

/-- `BOOT_PROFILE_RESULT`; its severity is 0 when the profile was applied. -/
def profileResult (s : State) (slot result pkt st : Nat) : State :=
  raiseReady s 0x6001 (if result = 0 ∨ result = 3 then 0 else 1) 0 0 0 (be 1 slot ++ be 1 result ++ be 4 pkt ++ be 2 st)

/-- A commit ends; that of a `BOOT_PROFILE_APPLY` closes its command. -/
def finishEpoch (s : State) (failed : Nat) (st : Status) : State :=
  let e := s.epoch
  let s1 := endEpoch s 0x0011 e.tag failed st
  match e.profile with
  | none => s1
  | some (slot, _, tag) =>
    let s2 := if st = .ok then profileResult s1 slot 0 0xFFFFFFFF 0
      else profileResult (s1.bump 0x6010 0 7) slot 4 0xFFFFFFFF st.code
    complete s2 0x6007 tag 0 st

/-- A port returns to its prior configuration. -/
def restorePort (s : State) (p : Nat) (c : PortCfg) : State :=
  let now := s.pcfg p
  let s0 := s.updPcfg p fun x => { c with mode := x.mode, admin := x.admin, dsp := x.dsp, pins := x.pins, pinAt := x.pinAt }
  let s1 := applyPins (applyDsp s0 p c.dsp) p c.pins c.pinAt
  let s2 := mdApply (applyPower (applyVs50 s1 p c.vs) p c.power) p c.md
  let s3 := if now.mode = c.mode then s2
    else if c.mode.set then applyMode s2 p c.mode
    else quietPort (s2.updPcfg p fun x => { x with mode := c.mode }) p 4
  if now.admin = c.admin then s3 else setAdmin s3 p c.admin

/-- A lane returns to its prior configuration. -/
def restoreLane (s : State) (m : Nat) (c : LaneCfg) : State :=
  let now := s.lcfg m
  let s1 := if { now with admin := c.admin } = c then s else setLaneCfg s m { c with admin := now.admin }
  if now.admin = c.admin then s1 else setLaneAdmin s1 m c.admin

/-- Signals that either of two Tide Table configurations defines through a layout in which they differ. -/
def changedSignals (a b : TideCfg) : List Nat :=
  let keys := fun (t : Tab (Option SigDef)) => t.map fun e => e.1 / 64
  let ls := (a.layouts.map (fun e => e.1) ++ b.layouts.map (fun e => e.1) ++ keys a.defs ++ keys b.defs).eraseDups
  (ls.flatMap fun l =>
    if a.layouts.get none l = b.layouts.get none l ∧ defsOf a l = defsOf b l then []
    else (defsOf a l ++ defsOf b l).map fun d => d.signal).eraseDups

/-- Device-wide settings return to their prior values. -/
def restoreDevice (s : State) (c : Cfg) : State :=
  let st := { s.cfg.streams with gptp := c.streams.gptp, gptpPorts := c.streams.gptpPorts, pps := c.streams.pps }
  let s1 := eachN { s with cfg := { s.cfg with dev := c.dev, streams := st } } (List.range 4) gptpElect
  let s2 := if s.cfg.dev.avsPage = c.dev.avsPage then s1
    else updClk s1 fun k => { k with pageDue := c.dev.avsPage != 0xFF }
  if s.cfg.dev.dvfsMode = c.dev.dvfsMode ∧ s.cfg.dev.dvfsPoint = c.dev.dvfsPoint then s2 else dvfsRestart s2

/-- The whole fabric returns to its prior configuration. -/
def restoreFabric (s : State) (c : Cfg) : State :=
  let o := s.cfg.streams
  let st := { c.streams with gptp := o.gptp, gptpPorts := o.gptpPorts, pps := o.pps }
  let s1 := eachN s (List.range 192) settleCredit
  { s1 with cfg := { s1.cfg with fabric := c.fabric, streams := st } }

/-- A block that has applied returns to its prior configuration (R62). -/
def restoreBlock (c : Cfg) (s : State) (b : Nat) : State :=
  let n := tgtNum b
  match tgtDom b with
  | 0 => restoreDevice s c
  | 1 => restorePort s n (c.ports.get {} n)
  | 2 =>
    let s1 := { s with cfg := { s.cfg with bundles := s.cfg.bundles.set 0 n (c.bundles.get 0 n) } }
    eachN s1 (portsOf b) fun s p => if (s.port p).st = .quiet ∨ (s.port p).st = .down then applyGroup s p else s
  | 4 => restoreLane s n (c.lanes.get {} n)
  | 5 => { s with cfg := { s.cfg with links := s.cfg.links.set {} n (c.links.get {} n) } }
  | 6 => setBond s n ((List.range 8).map fun j => (c.quays.get [] n).getD j 0)
  | 7 => restoreFabric s c
  | 8 => { eachN s (changedSignals s.cfg.tide c.tide) resetSig with cfg := { s.cfg with tide := c.tide } }
  | _ => s

/-- The cove plans that the configuration needs (R93, R94). -/
def replan (s : State) : State := eachN s (List.range 16) (planCove s.cfg)

/-- Blocks that have applied reach their next boundary in a rollback: they return to their prior configuration, and with the last
of them the commit ends (R62, R63). -/
def returnBlocks (s : State) (bs : List Nat) : State :=
  match s.epoch.failing with
  | none => s
  | some failed =>
    let s1 := match s.epoch.prior with
      | some c => (s.epoch.applied.filter bs.contains).foldl (restoreBlock c) s
      | none => s
    let s2 := { s1 with epoch := { s1.epoch with applied := s1.epoch.applied.filter fun b => !bs.contains b } }
    if s2.epoch.applied.isEmpty then finishEpoch (replan s2) failed .epochRolledBack else s2

/-- Rollback: no further block applies, and those that have applied return at their next boundary, the ones that `now` names at
once (R62). -/
def rollback (s : State) (failed : Nat) (now : State → Nat → Bool) : State :=
  let s1 := { s with epoch := { s.epoch with waiting := [], failing := some failed } }
  returnBlocks s1 (s1.epoch.applied.filter (now s1))

/-- Blocks reach their boundaries: they apply, and the commit ends with the last of them or with a command that does not
apply. -/
def reach (s : State) (bs : List Nat) (now : State → Nat → Bool) : State :=
  match applyBlocks s bs with
  | (s1, bad) =>
    let e := s1.epoch
    let s2 := { s1 with epoch := { e with
      waiting := e.waiting.filter fun b => !bs.contains b, applied := e.applied ++ e.waiting.filter bs.contains } }
    match bad with
    | some b => rollback s2 b now
    | none => if s2.epoch.waiting.isEmpty then finishEpoch s2 0xFFFFFFFF .ok else s2

/-- Prepare has finished: apply begins, the coves take their plans, and the blocks that `now` names apply. -/
def prepared (s : State) (now : State → Nat → Bool) : State :=
  match prepare s s.epoch.staged with
  | (_, some b) => rollback s b now
  | (c, none) =>
    let s1 := eachN { s with epoch := { s.epoch with state := 3, prior := some s.cfg, draft := some c } } (List.range 16) (planCove c)
    reach s1 (s1.epoch.waiting.filter (now s1)) now

/-- COMMIT_PREPARE_DONE: every agent reports its shadows armed. -/
def execCommitPrepareDone (s : State) : Host.Outcome State Fault Refusal :=
  .next (if s.epoch.state = 2 then prepared s appliesNow else s)

/-- The commits of immediate `PORT_MODE_SET`s at port block `b` (R113). -/
def modeJobsAt (s : State) (b : Nat) : List ModeJob := s.modeJobs.filter fun j => tw j.req == b

/-- Take the jobs of block `b` off, closing each with a status. -/
def endModeJobs (s : State) (b : Nat) (st : Status) : State :=
  (modeJobsAt s b).foldl (fun s j => closeWaiter s (waiterOf 0x1001 j.req) b st)
    { s with modeJobs := s.modeJobs.filter fun j => tw j.req != b }

/-- The immediate `PORT_MODE_SET`s that wait at block `b` apply. -/
def modeJobsApply (s : State) (b : Nat) : State :=
  endModeJobs ((modeJobsAt s b).foldl (fun s j => modeNow s (tgtNum b) j.req) s) b .ok

/-- Block `b` reaches a boundary in a commit: it applies, or returns (R61, R62). -/
def atCommitBoundary (s : State) (b : Nat) : State :=
  if s.epoch.state ≠ 3 then s
  else if s.epoch.failing.isSome then (if s.epoch.applied.contains b then returnBlocks s [b] else s)
  else if s.epoch.waiting.contains b then reach s [b] appliesNow
  else s

/-- Blocks that need no boundary any more count as having reached it. -/
def reachFree (s : State) (p : State → Nat → Bool) : State :=
  let s1 := ((s.modeJobs.map fun j => tw j.req).filter (p s)).foldl modeJobsApply s
  if s1.epoch.state ≠ 3 then s1
  else if s1.epoch.failing.isSome then
    let bs := s1.epoch.applied.filter (p s1)
    if bs.isEmpty then s1 else returnBlocks s1 bs
  else
    let bs := s1.epoch.waiting.filter (p s1)
    if bs.isEmpty then s1 else reach s1 bs appliesNow

/-- Ports that `SAFE_STATE` or `PORT_QUIET` holds count as reaching their boundary at once, a commit in progress included (R65). -/
def reachHeld (s : State) : State :=
  reachFree s fun s b => tgtDom b == 1 && overridden s (tgtNum b) && appliesNow s b

/-- SAFE_STATE. -/
def execSafeState (r : Req) (s : State) : Host.Outcome State Fault Refusal := .next (reachHeld (serve safeStateCmd r s))

/-- PORT_QUIET. -/
def execPortQuiet (r : Req) (s : State) : Host.Outcome State Fault Refusal := .next (reachHeld (serve portQuietCmd r s))

/-- A commit that waits for the boundary at hand applies at it. -/
def commitFirst (s : State) (b : Nat) : State :=
  if boundaryOpen s b then atCommitBoundary (if (modeJobsAt s b).isEmpty then s else modeJobsApply s b) b else s

/-- COMMIT_BOUNDARY_APPLY: a block reaches its boundary and applies its shadow. -/
def execCommitBoundaryApply (block : BitVec 32) (s : State) : Host.Outcome State Fault Refusal :=
  .next (commitFirst s block.toNat)

/-- UNDERTOW_STEP: a step that is due at a boundary for which a commit of the block waits applies after it (R591). -/
def execUndertowStep (b : CalBlock) (s : State) : Host.Outcome State Fault Refusal :=
  .next (undertowStep (commitFirst s (calT b)) b)

/-- ANCHOR_REVERSION: the first receive boundary after a violation or a command. A commit that waits at the port for the same
boundary applies first, and the reversion is then still due or not (R204, R209, R215). -/
def execAnchorReversion (p : PortId) (s : State) : Host.Outcome State Fault Refusal :=
  .next (
    let q := p.val
    let b := portT q
    if !revertDue s q then s
    else
      let s1 := commitFirst s b
      if revertDue s1 q then revertNow s1 q else s1)

/-- COMMIT_TIMEOUT: of the epoch's commit, or of the commit of an immediate `PORT_MODE_SET` at a port. Blocks that need no boundary
have reached it; a rollback already under way goes on (R62). -/
def execCommitTimeout (p : Option PortId) (s : State) : Host.Outcome State Fault Refusal :=
  .next (
    let s1 := reachFree s appliesNow
    match p with
    | some q => endModeJobs s1 (portT q.val) .epochRolledBack
    | none => if 2 ≤ s1.epoch.state ∧ s1.epoch.failing.isNone then
        rollback s1 (s1.epoch.waiting.headD 0xFFFFFFFF) appliesNow else s1)

/-! ### Boot profiles (R568, R569) -/

/-- One packet of a profile: the state with it staged, or the status of its failure (log entry 65). -/
def profilePacket (s : State) (bs : List Byte) : Except Status State :=
  if !pktLenOk bs then .error .invalidLength
  else if !pktCrcOk bs then .error .invalidParam
  else
    let r := pktReq 0 0 bs
    if r.flags.getLsbD 7 then .error .invalidParam
    else if r.version ≠ 1 then .error .invalidOpcode
    else match cmdOf s (pktOp bs) with
      | none => .error (if pktOp bs = 0x6007 ∨ pktOp bs = 0x0040 then .notPermitted else .invalidOpcode)
      | some c =>
        if !c.stageable ∨ !staged r ∨ authBit r then .error .notPermitted
        else match judge69 s c r with
          | .refuse st _ => .error st
          | _ => .ok (stageIn s c r)

/-- Stage `n` packets that lie back to back, the first of them number `i`: packets staged, and the failure. -/
def stagePackets : Nat → Nat → List Byte → State → State × Nat × Option (Nat × Status)
  | 0, i, _, s => (s, i, none)
  | n + 1, i, bs, s => match profilePacket s bs with
    | .error st => (s, i, some (i, st))
    | .ok s' => stagePackets n (i + 1) (bs.drop (pktExtent bs)) s'

/-- An epoch is opened for a profile. -/
def openProfile (s : State) (timeout : Nat) : State :=
  { s with epoch := { s.epoch with
    state := 1, owner := 0xFE, id := (s.epoch.id + 1) % 2 ^ 32, idle := 0, timeout, tag := 0, staged := [], draft := none
    waiting := [], applied := [], failing := none, prior := none, profile := none } }

/-- Stage a profile's body: packets staged, the failure, and whether its commit is to run. -/
def stageProfile (s : State) (region : Nat) : State × Nat × Option (Nat × Status) × Bool :=
  let bs := s.slotBody region
  if byteAt bs 0 ≠ 1 ∨ 1 < byteAt bs 1 ∨ !within (fld bs 2 2) 1 10000 then (s, 0, some (0xFFFFFFFF, .invalidParam), false)
  else if fld bs 4 4 = 0 then (s, 0, none, false)
  else
    match stagePackets (fld bs 4 4) 0 (bs.drop 8) (openProfile s (fld bs 2 2)) with
    | (s1, n, some f) => (endEpoch s1 0 0 0xFFFFFFFF .epochRolledBack, n, some f, false)
    | (s1, n, none) =>
      ({ s1 with epoch := { s1.epoch with state := 2, waiting := (s1.epoch.staged.flatMap (·.blocks)).eraseDups } }, n, none, true)

/-- What a start does with a staged profile: every block applies at once (R570). Packets staged, and the failure. -/
def applyStaged : State × Nat × Option (Nat × Status) × Bool → State × Nat × Option (Nat × Status)
  | (s1, n, some f, _) => (s1.bump 0x6010 0 7, n, some f)
  | (s1, n, none, false) => (s1, n, none)
  | (s1, n, none, true) =>
    let s2 := prepared s1 fun _ _ => true
    if s2.epoch.lastOutcome = 0 then (s2, n, none) else (s2.bump 0x6010 0 7, n, some (0xFFFFFFFF, .epochRolledBack))

/-- One profile slot at a start. -/
def startSlot (s : State) (region : Nat) : State × Nat × Option (Nat × Status) := applyStaged (stageProfile s region)

/-- Profile slots that a start applies: valid, with flags bit 0 set, newest first (R569). -/
def startSlots (s : State) : List Nat :=
  let ok := [3, 4].filter fun i => slotValid s i && (byteAt (s.regionRead i 32 2) 1).testBit 0
  if ok.length = 2 ∧ s.slotSeq 3 < s.slotSeq 4 then ok.reverse else ok

/-- Enter what became of the profile in the record of the start, and report it. -/
def recordProfile (s : State) (slot result n : Nat) (f : Option (Nat × Status)) : State :=
  let (pkt, st) := match f with
    | some (i, st) => (i, st.code)
    | none => (0xFFFFFFFF, 0)
  profileResult { s with rst := { s.rst with boot := { s.rst.boot with
    profSlot := slot, profResult := result, packets := n, failPkt := pkt, failStatus := st } } } slot result pkt st

/-- The older slot's profile, tried when the newest one's has failed (R569). -/
def secondSlot (slot : Nat) : State × Nat × Option (Nat × Status) → State
  | (s, n, none) => recordProfile s slot 3 n none
  | (s, n, some f) => recordProfile s slot 4 n (some f)

/-- The newest slot's profile applies, or the next slot's is tried (R569). -/
def firstSlot (slot : Nat) (rest : List Nat) : State × Nat × Option (Nat × Status) → State
  | (s, n, none) => recordProfile s slot 0 n none
  | (s, n, some f) => match rest with
    | [] => recordProfile s slot 4 n (some f)
    | b :: _ => secondSlot (b - 3) (startSlot s b)

/-- The boot profile of a start of reach 0 to 2 (R559, R569). -/
def startProfile (s : State) : State :=
  if s.rst.bootsel.testBit 0 then recordProfile s 0xFF 1 0 none
  else match startSlots s with
    | [] => recordProfile s 0xFF 2 0 none
    | a :: rest => firstSlot (a - 3) rest (startSlot s a)

/-! ### READY (R552, R557, R562, R572) -/

/-- Queue the records that waited for READY (R22, R66). -/
def flushOwed (s : State) : State :=
  s.ctl.owed.foldl (fun s e => raiseFor s e.code e.sev e.src e.op e.tag e.detail) { s with ctl := { s.ctl with owed := [] } }

/-- Headland enters state 2 and reports it. -/
def headlandUp (s : State) (kind : Nat) : State :=
  let s1 := { s with rst := { s.rst with
    headland := 2, starting := false, boot := { s.rst.boot with toReady := sat 32 ((s.now - s.rst.startAt) / 4000) } } }
  raise s1 0x0005 0 0 (be 1 s1.rst.slot ++ be 1 kind)

/-- The cold or pin reset that has waited for READY is asserted; it is released at once when its pins have been meanwhile (R552). -/
def applyDue (s : State) : State :=
  match s.rst.due with
  | none => s
  | some 0 =>
    let s1 := deviceReset s 0
    if s.rst.pgood && s.rst.resetN then beginBoot s1 0 s.rst.bootselPins else s1
  | some _ =>
    let s1 := deviceReset s 1
    if s.rst.resetN then (beginBoot s1 1 s.rst.bootselPins).bump 0x6010 0 0 else s1

/-- READY after a reset of reach 0 to 2, which ends that reset's episode (R550, R574, log entry 68). -/
def startReady (s : State) : State :=
  let s0 := { s with rst := { s.rst with
    lastReach := s.rst.reach, lastEnd := s.keeper
    episodes := if s.rst.reach = 0 then s.rst.episodes else (s.rst.episodes + 1) % 2 ^ 32 } }
  let s1 := headlandUp (startProfile s0) s.rst.startKind
  let s2 := { s1 with integ := { s1.integ with startAssert := false, latches := s1.integ.latches ||| conditions s1 } }
  applyDue (applyRecorded (raisePoint (flushOwed s2)) fun _ => true)

/-- HEADLAND_READY: the start of the firmware ends, of reach 0 to 2 or of Headland alone. -/
def execHeadlandReady (s : State) : Host.Outcome State Fault Refusal :=
  .next (
    if s.rst.headland ≠ 1 then s
    else if s.rst.starting then startReady s
    else match resetJob s 1 with
      | some j => if j.phase = 2 then endEpisode (raisePoint (flushOwed (headlandUp s 3))) 1 else s
      | none => s)

/-! ### BOOT_PROFILE_APPLY (0x6007) -/

/-- The region that the slot code names, when valid. -/
def profileRegion (s : State) (code : Nat) : Option Nat :=
  if code = 3 then newestSlot s 3 else if slotValid s (code + 2) then some (code + 2) else none

/-- A profile has been staged by command: its commit begins, or the command closes with its failure (R577). -/
def profileBegins (slot tag : Nat) : State × Nat × Option (Nat × Status) × Bool → State
  | (s1, _, some (i, st), _) => complete (profileResult (s1.bump 0x6010 0 7) slot 4 i st.code) 0x6007 tag 0 st
  | (s1, _, none, false) => complete (profileResult s1 slot 0 0xFFFFFFFF 0) 0x6007 tag 0 .ok
  | (s1, n, none, true) => { s1 with epoch := { s1.epoch with profile := some (slot, n, tag) } }

/-- BOOT_PROFILE_APPLY: the profile is staged and its commit begins, or it fails (R577). -/
def bootProfileApplyCmd : Cmd where
  op := 0x6007
  target := onDevice
  len := len 4
  check := fun _ r => firstFail [inv (rz r 1 3), inv (within (p8 r 0) 1 3)]
  take := fun s r _ => if s.epoch.state ≠ 0 then some (.busy, [])
    else if (profileRegion s (p8 r 0)).isNone then some (.notPermitted, []) else none
  run := doAccepted fun s r =>
    let region := (profileRegion s (p8 r 0)).getD 3
    profileBegins (region - 3) (tagN r) (stageProfile s region)

/-- BOOT_PROFILE_APPLY. -/
def execBootProfileApply (r : Req) (s : State) : Host.Outcome State Fault Refusal := .next (serve bootProfileApplyCmd r s)

end Sys2Proof.Machine
end

