-- ==== Sys2Proof/Machine/Receive.lean ====
section
/-! DEFINITION. What arrives: requests from the SPI window, and frames at a line port or host link (R39, R42 to R47, R88, R99,
R115, R116, R342, R445 step 1, R627, R628, R670, R682). -/

namespace Sys2Proof.Machine

/-! ### Requests -/

/-- An undefined opcode (R47 steps 2 to 4). -/
def actUndefined (op : Nat) (r : Req) (s : State) : State :=
  if !authOk s op r then refuse s op r .authFail []
  else if r.flags.getLsbD 7 then s
  else refuse s op r .invalidOpcode []

/-- Headland takes a packet: steps 2 to 9 of R47, and what they decide. -/
def takePacket (op : Nat) (r : Req) (s : State) : State :=
  if op = 0x6007 then act s bootProfileApplyCmd r
  else if op = 0x3102 then act (if s.rst.headland = 2 then noteFailed s r else s) streamEntryWriteCmd r
  else match cmdOf s op with
    | some c => act s c r
    | none => actUndefined op r s

/-- Headland takes the oldest packet of its queue, whose cells of the command reserve are then free (R45, R48). -/
def takeNext (s : State) : State :=
  match s.ctl.cmdQueue with
  | [] => s
  | q :: rest => if serving s then takePacket q.op q.req { s with ctl := { s.ctl with cmdQueue := rest } } else s

/-- A request that has passed step 1 of R47 arrives as bytes: Breakwater's are executed at once, Headland's join the command queue
with the cells that their frame holds (R44 to R46, R71, R74, R88). -/
def arrive (op : Nat) (r : Req) (own pool : Nat) (s : State) : State :=
  if bwOp op then
    match cmdOf s op with
    | some c => reachHeld (serve c r s)
    | none => s
  else if !s.ctl.feReady || !sourceOpen s false (sn r) then s
  else
    let s1 := s.bump 0x0003 (sn r) 0
    if serving s then queueIn s1 op r own pool else frontBusy s1 op r

/-- A packet arrives in `bs`: step 1 of R47 fails or passes. -/
def packetIn (src : SourceId) (sa : Nat) (bs : List Byte) (own pool : Nat) (s : State) : State :=
  if !pktLenOk bs || !pktCrcOk bs then s.bump 0x0003 src.val 1
  else arrive (pktOp bs) (pktReq src sa bs) own pool s

/-- The request window's bytes. -/
def windowBytes (s : State) : List Byte := (List.range 0x800).map fun a => s.ctl.window.get 0 a

/-- MBX_DOORBELL_SUBMIT: the request in the window as it stands at the doorbell; REQ_BUSY is 1 until the device next idles. A
doorbell while REQ_BUSY is already 1, of which the spec does not speak, submits the window once more (DESIGN CHOICE, log entry 66). -/
def execMbxDoorbellSubmit (s : State) : Host.Outcome State Fault Refusal :=
  .next (if s.ctl.feReady then
    packetIn 0 0 (windowBytes s) 0 0 { s with ctl := { s.ctl with reqBusy := true } }
  else s)

/-- The queue of commands is empty: Headland takes a packet of its own queue, one ticker unit passes, the device has ended
with the window, and a MAC whose port has reason to send deasserts low-power idle (R337, R338; log entries 1, 8 and 66). -/
def idle (s : State) : State :=
  let s1 := takeNext s
  let s2 := { s1 with now := s1.now + 1, ctl := { s1.ctl with reqBusy := false } }
  eachN s2 (List.range 128) lpiSettle

/-! ### Command frames (R41 to R45, R88) -/

/-- Length of the header before a command frame's packet: at most one IEEE 802.1Q tag. -/
def cmdHeader (bs : List Byte) : Nat := if fld bs 12 2 = 0x8100 then 18 else 14

/-- A frame of outcome 6 is a command frame. -/
def isCommand (s : State) (bs : List Byte) : Bool :=
  fld bs 0 6 == s.cfg.dev.cmdMac && fld bs (cmdHeader bs - 2) 2 == s.cfg.dev.etherType

/-- What a frame carries from an offset to its FCS: the packet and its padding (R41, R670). -/
def framePacket (bs : List Byte) (off : Nat) : List Byte := (bs.drop off).take (bs.length - 4 - off)

/-- Bytes taken from link `k`'s bucket now: 1 Gbit/s gives one back in 8 ns (R45). -/
def bucketLevel (s : State) (k : Nat) : Nat := s.ctl.bucketUsed.get 0 k - (s.now - s.ctl.bucketAt.get 0 k) / 32

/-- Take `n` bytes of tokens; a part of a byte that the bucket has regained is kept. -/
def takeTokens (s : State) (k n : Nat) : State :=
  let lvl := bucketLevel s k
  let left := if lvl = 0 then 0 else (s.now - s.ctl.bucketAt.get 0 k) % 32
  { s with ctl := { s.ctl with bucketUsed := s.ctl.bucketUsed.set 0 k (lvl + n), bucketAt := s.ctl.bucketAt.set 0 k (s.now - left) } }

/-- Reserved cells of link `k` that waiting packets hold. -/
def ownUsed (s : State) (k : Nat) : Nat := ((s.ctl.cmdQueue.filter fun q => sn q.req == k + 2).map (·.own)).sum

/-- Cells of the part of the command pool in slice `i` that waiting packets hold: it serves the links at home there (R417). -/
def poolUsed (s : State) (i : Nat) : Nat :=
  ((s.ctl.cmdQueue.filter fun q => 2 ≤ sn q.req && posSlice (128 + (sn q.req - 2)) == i).map (·.pool)).sum

/-- A command frame on link `k`: Breakwater's go to it past every limit; others meet the bucket, then the reserve, first their
link's eight cells and then the 128 of its home slice's part of the pool (R44, R45, R88, R417). -/
def commandFrame (s : State) (k : Fin 64) (bs : List Byte) : State :=
  let s1 := s.bump 0x2012 k.val 19
  let p := framePacket bs (cmdHeader bs)
  let src : SourceId := ⟨k.val + 2, by omega⟩
  let sa := fld bs 6 6
  if !s1.ctl.feReady then s1
  else if bwOp (pktOp p) then packetIn src sa p 0 0 s1
  else if !s1.cfg.dev.inband.testBit k.val then s1
  else if 8192 < bucketLevel s1 k.val + bs.length then s1.bump 0x0003 src.val 4
  else
    let s2 := takeTokens s1 k.val bs.length
    let own := min (cellsOf bs.length) (8 - ownUsed s2 k.val)
    let pool := cellsOf bs.length - own
    if 128 < poolUsed s2 (posSlice (128 + k.val)) + pool then s2.bump 0x0003 src.val 5
    else packetIn src sa p own pool s2

/-! ### Receive outcomes (R115) -/

/-- Received FCS, as the number whose bytes the frame ends with. -/
def fcsBytes (bs : List Byte) : List Byte := bs.drop (bs.length - 4)

/-- Receive outcome of a frame at a position. -/
def rxOutcome (s : State) (pos : Nat) (x : RxFrame) : Nat :=
  let bs := x.bytes
  if x.codeErr then 1
  else if maxFrameOf s pos < bs.length then 2
  else if bs.length < 64 then 3
  else if fcsDiffers bs then 4
  else if fld bs 12 2 = 0x8808 then 5
  else 6

/-- Count an outcome at a port or link. -/
def countRx (s : State) (pos outcome : Nat) (bs : List Byte) : State :=
  let op := if pos < 128 then 0x1010 else 0x2012
  let b := if pos < 128 then pos else pos - 128
  match outcome with
  | 1 => s.bump op b 4
  | 2 => s.bump op b 6
  | 3 => s.bump op b 5
  | 4 =>
    let s1 := s.bump op b 2
    if fcsBytes bs = le 4 (crc32 (bodyOf bs) ^^^ 0xFFFFFFFF) then s1.bump op b 3 else s1
  | 5 => s.bump op b 7
  | _ => (s.bump op b 0).bumpBy op b 1 bs.length

/-- Preemption at a port: assemblies and fragments (IEEE 802.3 clause 30.14, R478). -/
def countFrags (s : State) (p outcome : Nat) (x : RxFrame) : State :=
  let s1 := ((s.bumpBy 0x3142 p 0 x.asmErr).bumpBy 0x3142 p 1 x.smdErr).bumpBy 0x3142 p 3 x.frags
  if 0 < x.frags ∧ outcome = 6 then s1.bump 0x3142 p 2 else s1

/-! ### Loopback test frames (R627, R628) -/

/-- A loopback test frame's addresses, type and subtype. -/
def isTestFrame (bs : List Byte) : Bool :=
  fld bs 0 6 == 0x6BD719000002 && fld bs 12 2 == 0x88B6 && byteAt bs 14 == 0x10

/-- The frame checker of a port takes one frame. -/
def checkFrame (s : State) (p : Nat) (x : RxFrame) : State :=
  let bs := x.bytes
  let good : Bool := !x.codeErr && 64 ≤ bs.length && !fcsDiffers bs && isTestFrame bs && prbsFollows ((bodyOf bs).drop 19)
  if good then
    let q := fld bs 15 4
    let next := (s.port p).test.nextSeq
    let s1 := (s.bump 0x8022 p 1).bumpBy 0x8022 p 3 (q - next)
    s1.updPort p fun y => { y with test := { y.test with nextSeq := (q + 1) % 2 ^ 32 } }
  else s.bump 0x8022 p 2

/-- A frame at a port in Test: near-end loopbacks check every frame, a far-end loopback the partner's test frames. -/
def testRx (s : State) (p : Nat) (x : RxFrame) : State :=
  let a := (s.port p).test.action
  if within a 1 3 ∨ (a = 4 ∧ isTestFrame x.bytes) then checkFrame s p x else s

/-! ### FRAME_RX -/

/-- A Slack frame: 64 bytes to the Slack group with its EtherType (R342). -/
def isSlack (bs : List Byte) : Bool := bs.length == 64 && fld bs 0 6 == slackGroup && fld bs 12 2 == 0x88B6

/-- What a Slack frame of version 1 that has been counted does at port `p`; a segment has no handshake (R340, R342). -/
def slackFrame (s : State) (p : Nat) (bs : List Byte) : State :=
  if (s.port p).resMode = 2 ∨ byteAt bs 15 ≠ 1 then s else slackIn s p (byteAt bs 14) (fld bs 16 2)

/-- A frame of outcome 6: taken out at step 1 of R445, or offered to the pipeline. -/
def goodFrame (s : State) (pos : Nat) (x : RxFrame) : State :=
  let bs := x.bytes
  let s1 := countRx s pos 6 bs
  if pos < 128 ∧ isSlack bs then slackFrame s1 pos bs
  else if fld bs 0 6 = 0x0180C200000E ∧ fld bs 12 2 = 0x88F7 then s1
  else if 128 ≤ pos ∧ isCommand s bs then commandFrame s1 (Fin.ofNat 64 (pos - 128)) bs
  else ingressFrame s1 pos bs true x.oneBit x.twoBit x.metaBad

/-- A frame of any other outcome: cut-through may have forwarded it before its end (R116). -/
def badFrame (s : State) (pos outcome : Nat) (x : RxFrame) : State :=
  let s1 := countRx s pos outcome x.bytes
  if outcome = 3 ∨ outcome = 5 then s1
  else ingressFrame s1 pos (x.bytes.take (maxFrameOf s pos)) false x.oneBit x.twoBit x.metaBad

/-- A frame on the management lane: one addressed to the command MAC address with the command EtherType carries a packet right
after it; any other is ignored (R41, R88). -/
def mgmtFrame (s : State) (x : RxFrame) : State :=
  let bs := x.bytes
  let p := framePacket bs 14
  if !s.ctl.mgmtUp || !s.ctl.feReady || x.codeErr || bs.length < 64 || fcsDiffers bs then s
  else if fld bs 0 6 ≠ s.cfg.dev.cmdMac ∨ fld bs 12 2 ≠ s.cfg.dev.etherType then s
  else if !s.cfg.dev.mgmtOn && !bwOp (pktOp p) then s
  else packetIn 1 (fld bs 6 6) p 0 0 s

/-- The frame whose reception ended with the port's or link's leaving Up: a partly received frame, of outcome 1 (R115, R556). -/
def cutRx (s : State) (pos : Nat) (x : RxFrame) : State :=
  if !x.began then s
  else if pos < 128 then
    if (s.port pos).rxCut then countRx (s.updPort pos fun y => { y with rxCut := false }) pos 1 x.bytes else s
  else if (s.link (pos - 128)).rxCut then
    countRx (s.updLink (pos - 128) fun y => { y with rxCut := false }) pos 1 x.bytes
  else s

/-- The frame of the oldest packet that a VS50 receiver has taken from its words: one that a PHY frame with an uncorrectable
codeword overlaps has a code error (R115, R152). -/
def packetRx (s : State) (pos : Nat) (x : RxFrame) : State × RxFrame :=
  match (s.port pos).vs.rxEnded with
  | hit :: rest =>
    if pos < 128 ∧ (s.port pos).resMode = 9 then
      (updVs s pos fun v => { v with rxEnded := rest }, { x with codeErr := x.codeErr || hit })
    else (s, x)
  | [] => (s, x)

/-- A frame that a live port or link has received. One whose reception began before a drain stopped new frames is finished; a
later one is discarded (R24, R556). -/
def liveRx (s : State) (pos : Nat) (x : RxFrame) : State :=
  let (s0, y) := packetRx s pos x
  if drainingPos s pos && !x.began then s0.bump 0x6010 0 8
  else
    let o := rxOutcome s0 pos y
    let s1 := if pos < 128 then countFrags s0 pos o y else s0
    if o = 6 then goodFrame s1 pos y else badFrame s1 pos o y

/-- FRAME_RX: a frame ends at the MAC of a line port or host link, or of the management lane (position 192, log entry 107). On
10BASE-T1S its burst has had an SSD, and its end arms the receiver again, in Training too (R263, R266). -/
def execFrameRx (pos : Fin 193) (x : RxFrame) (s : State) : Host.Outcome State Fault Refusal :=
  .next (
    let q := pos.val
    if q = 192 then mgmtFrame s x
    else if q < 128 ∧ (s.port q).st = .test then testRx (cutRx s q x) q x
    else if !egressLive s q then
      let s1 := cutRx s q x
      if q < 128 ∧ t1sOn s q ∧ (s.port q).md.rx = 2 then mdArm s1 q else s1
    else if q < 128 ∧ (s.port q).resMode ≤ 2 then
      if (s.port q).md.rx = 2 then
        mdFrame (liveRx s q x) q (!(drainingPos s q && !x.began) && rxOutcome s q x == 6)
      else s
    else liveRx s q x)

end Sys2Proof.Machine
end

