-- ==== Sys2Proof/Machine/Dispatch.lean ====
section
/-! DEFINITION. One arm per row of the table: each a direct call of its meaning. -/

namespace Sys2Proof.Machine

def exec (i : Instr) (s : State) : Host.Outcome State Fault Refusal :=
  match i with
  | .mbxDoorbellSubmit => Sys2Proof.Machine.execMbxDoorbellSubmit s
  | .mbxDoorbellRelease => Sys2Proof.Machine.execMbxDoorbellRelease s
  | .requestWindowWrite addr bytes => Sys2Proof.Machine.execRequestWindowWrite addr bytes s
  | .identityRead r => Sys2Proof.Machine.execIdentityRead r s
  | .deviceStatus r => Sys2Proof.Machine.execDeviceStatus r s
  | .controlCountersRead r => Sys2Proof.Machine.execControlCountersRead r s
  | .controlCountersClear r => Sys2Proof.Machine.execControlCountersClear r s
  | .authPolicySet r => Sys2Proof.Machine.execAuthPolicySet r s
  | .authKeyProgram r => Sys2Proof.Machine.execAuthKeyProgram r s
  | .authKeyRevoke r => Sys2Proof.Machine.execAuthKeyRevoke r s
  | .epochOpen r => Sys2Proof.Machine.execEpochOpen r s
  | .epochCommit r => Sys2Proof.Machine.execEpochCommit r s
  | .epochAbort r => Sys2Proof.Machine.execEpochAbort r s
  | .epochStatus r => Sys2Proof.Machine.execEpochStatus r s
  | .transportConfig r => Sys2Proof.Machine.execTransportConfig r s
  | .eventRoute r => Sys2Proof.Machine.execEventRoute r s
  | .eventMask r => Sys2Proof.Machine.execEventMask r s
  | .eventRead r => Sys2Proof.Machine.execEventRead r s
  | .eventAck r => Sys2Proof.Machine.execEventAck r s
  | .eventNotify => Sys2Proof.Machine.execEventNotify s
  | .safeState r => Sys2Proof.Machine.execSafeState r s
  | .portQuiet r => Sys2Proof.Machine.execPortQuiet r s
  | .readFaultRecord r => Sys2Proof.Machine.execReadFaultRecord r s
  | .domainReset r => Sys2Proof.Machine.execDomainReset r s
  | .deviceWarmReset r => Sys2Proof.Machine.execDeviceWarmReset r s
  | .warmResetAssert => Sys2Proof.Machine.execWarmResetAssert s
  | .echo r => Sys2Proof.Machine.execEcho r s
  | .readCoreStatus r => Sys2Proof.Machine.execReadCoreStatus r s
  | .integrityConfig r => Sys2Proof.Machine.execIntegrityConfig r s
  | .integrityStatus r => Sys2Proof.Machine.execIntegrityStatus r s
  | .integrityFaultClear r => Sys2Proof.Machine.execIntegrityFaultClear r s
  | .faultLogRead r => Sys2Proof.Machine.execFaultLogRead r s
  | .integrityCountersRead r => Sys2Proof.Machine.execIntegrityCountersRead r s
  | .integrityCountersClear r => Sys2Proof.Machine.execIntegrityCountersClear r s
  | .faultInject r => Sys2Proof.Machine.execFaultInject r s
  | .portModeSet r => Sys2Proof.Machine.execPortModeSet r s
  | .portModeGet r => Sys2Proof.Machine.execPortModeGet r s
  | .portAdmin r => Sys2Proof.Machine.execPortAdmin r s
  | .portStatusRead r => Sys2Proof.Machine.execPortStatusRead r s
  | .portCountersRead r => Sys2Proof.Machine.execPortCountersRead r s
  | .portCountersClear r => Sys2Proof.Machine.execPortCountersClear r s
  | .coveStatus r => Sys2Proof.Machine.execCoveStatus r s
  | .vs50Config r => Sys2Proof.Machine.execVs50Config r s
  | .vs50Status r => Sys2Proof.Machine.execVs50Status r s
  | .vs50CountersRead r => Sys2Proof.Machine.execVs50CountersRead r s
  | .vs50CountersClear r => Sys2Proof.Machine.execVs50CountersClear r s
  | .vs50OamSend r => Sys2Proof.Machine.execVs50OamSend r s
  | .vs50OamRead r => Sys2Proof.Machine.execVs50OamRead r s
  | .dspConfig r => Sys2Proof.Machine.execDspConfig r s
  | .dspStatus r => Sys2Proof.Machine.execDspStatus r s
  | .bundleGroupSet r => Sys2Proof.Machine.execBundleGroupSet r s
  | .bundleGroupGet r => Sys2Proof.Machine.execBundleGroupGet r s
  | .xtalkStatus r => Sys2Proof.Machine.execXtalkStatus r s
  | .echoWindowSet r => Sys2Proof.Machine.execEchoWindowSet r s
  | .anchorControl r => Sys2Proof.Machine.execAnchorControl r s
  | .dspCountersRead r => Sys2Proof.Machine.execDspCountersRead r s
  | .dspCountersClear r => Sys2Proof.Machine.execDspCountersClear r s
  | .tapRead r => Sys2Proof.Machine.execTapRead r s
  | .startConfig r => Sys2Proof.Machine.execStartConfig r s
  | .startStatus r => Sys2Proof.Machine.execStartStatus r s
  | .startCountersRead r => Sys2Proof.Machine.execStartCountersRead r s
  | .startCountersClear r => Sys2Proof.Machine.execStartCountersClear r s
  | .relinkStoreRead r => Sys2Proof.Machine.execRelinkStoreRead r s
  | .relinkStoreClear r => Sys2Proof.Machine.execRelinkStoreClear r s
  | .startRestart r => Sys2Proof.Machine.execStartRestart r s
  | .mdConfig r => Sys2Proof.Machine.execMdConfig r s
  | .mdStatus r => Sys2Proof.Machine.execMdStatus r s
  | .mdCountersRead r => Sys2Proof.Machine.execMdCountersRead r s
  | .mdCountersClear r => Sys2Proof.Machine.execMdCountersClear r s
  | .mdNodeTableRead r => Sys2Proof.Machine.execMdNodeTableRead r s
  | .mdNodeTableClear r => Sys2Proof.Machine.execMdNodeTableClear r s
  | .healthConfig r => Sys2Proof.Machine.execHealthConfig r s
  | .healthStatus r => Sys2Proof.Machine.execHealthStatus r s
  | .healthCountersRead r => Sys2Proof.Machine.execHealthCountersRead r s
  | .healthCountersClear r => Sys2Proof.Machine.execHealthCountersClear r s
  | .soundingConfig r => Sys2Proof.Machine.execSoundingConfig r s
  | .soundingRun r => Sys2Proof.Machine.execSoundingRun r s
  | .soundingResultRead r => Sys2Proof.Machine.execSoundingResultRead r s
  | .soundingProfileRead r => Sys2Proof.Machine.execSoundingProfileRead r s
  | .soundingBaselineSet r => Sys2Proof.Machine.execSoundingBaselineSet r s
  | .soundingBaselineRead r => Sys2Proof.Machine.execSoundingBaselineRead r s
  | .soundingBaselineLoad r => Sys2Proof.Machine.execSoundingBaselineLoad r s
  | .cableTestRun r => Sys2Proof.Machine.execCableTestRun r s
  | .cableTestResult r => Sys2Proof.Machine.execCableTestResult r s
  | .cableTestProfileRead r => Sys2Proof.Machine.execCableTestProfileRead r s
  | .portPowerConfig r => Sys2Proof.Machine.execPortPowerConfig r s
  | .portSlack r => Sys2Proof.Machine.execPortSlack r s
  | .portPowerStatus r => Sys2Proof.Machine.execPortPowerStatus r s
  | .devicePowerSet r => Sys2Proof.Machine.execDevicePowerSet r s
  | .devicePowerStatus r => Sys2Proof.Machine.execDevicePowerStatus r s
  | .wakeConfig r => Sys2Proof.Machine.execWakeConfig r s
  | .powerCountersRead r => Sys2Proof.Machine.execPowerCountersRead r s
  | .powerCountersClear r => Sys2Proof.Machine.execPowerCountersClear r s
  | .hostLinkConfig r => Sys2Proof.Machine.execHostLinkConfig r s
  | .hostLaneConfig r => Sys2Proof.Machine.execHostLaneConfig r s
  | .hostLinkMacConfig r => Sys2Proof.Machine.execHostLinkMacConfig r s
  | .hostAdmin r => Sys2Proof.Machine.execHostAdmin r s
  | .hostEbb r => Sys2Proof.Machine.execHostEbb r s
  | .hostLaneStatus r => Sys2Proof.Machine.execHostLaneStatus r s
  | .hostLinkStatus r => Sys2Proof.Machine.execHostLinkStatus r s
  | .hostLaneCountersRead r => Sys2Proof.Machine.execHostLaneCountersRead r s
  | .hostLaneCountersClear r => Sys2Proof.Machine.execHostLaneCountersClear r s
  | .hostLinkCountersRead r => Sys2Proof.Machine.execHostLinkCountersRead r s
  | .hostLinkCountersClear r => Sys2Proof.Machine.execHostLinkCountersClear r s
  | .eyeScanStart r => Sys2Proof.Machine.execEyeScanStart r s
  | .eyeScanRead r => Sys2Proof.Machine.execEyeScanRead r s
  | .hostTest r => Sys2Proof.Machine.execHostTest r s
  | .fabricConfig r => Sys2Proof.Machine.execFabricConfig r s
  | .fabricStatus r => Sys2Proof.Machine.execFabricStatus r s
  | .queueConfig r => Sys2Proof.Machine.execQueueConfig r s
  | .schedulerConfig r => Sys2Proof.Machine.execSchedulerConfig r s
  | .shaperConfig r => Sys2Proof.Machine.execShaperConfig r s
  | .cutThroughConfig r => Sys2Proof.Machine.execCutThroughConfig r s
  | .queueStatus r => Sys2Proof.Machine.execQueueStatus r s
  | .queueCountersRead r => Sys2Proof.Machine.execQueueCountersRead r s
  | .queueCountersClear r => Sys2Proof.Machine.execQueueCountersClear r s
  | .sliceCountersRead r => Sys2Proof.Machine.execSliceCountersRead r s
  | .sliceCountersClear r => Sys2Proof.Machine.execSliceCountersClear r s
  | .sliceGate r => Sys2Proof.Machine.execSliceGate r s
  | .streamTableConfig r => Sys2Proof.Machine.execStreamTableConfig r s
  | .streamEntryWrite r => Sys2Proof.Machine.execStreamEntryWrite r s
  | .streamEntryDelete r => Sys2Proof.Machine.execStreamEntryDelete r s
  | .streamEntryRead r => Sys2Proof.Machine.execStreamEntryRead r s
  | .streamLookup r => Sys2Proof.Machine.execStreamLookup r s
  | .streamTableStatus r => Sys2Proof.Machine.execStreamTableStatus r s
  | .destWrite r => Sys2Proof.Machine.execDestWrite r s
  | .ingressProfileSet r => Sys2Proof.Machine.execIngressProfileSet r s
  | .qciFilterSet r => Sys2Proof.Machine.execQciFilterSet r s
  | .qciMeterSet r => Sys2Proof.Machine.execQciMeterSet r s
  | .qciGateSet r => Sys2Proof.Machine.execQciGateSet r s
  | .qciCountersRead r => Sys2Proof.Machine.execQciCountersRead r s
  | .qciCountersClear r => Sys2Proof.Machine.execQciCountersClear r s
  | .frerSeqgenSet r => Sys2Proof.Machine.execFrerSeqgenSet r s
  | .frerRecoverySet r => Sys2Proof.Machine.execFrerRecoverySet r s
  | .frerCountersRead r => Sys2Proof.Machine.execFrerCountersRead r s
  | .frerCountersClear r => Sys2Proof.Machine.execFrerCountersClear r s
  | .gclLoad r => Sys2Proof.Machine.execGclLoad r s
  | .gclSet r => Sys2Proof.Machine.execGclSet r s
  | .gclStatus r => Sys2Proof.Machine.execGclStatus r s
  | .gclRead r => Sys2Proof.Machine.execGclRead r s
  | .preemptConfig r => Sys2Proof.Machine.execPreemptConfig r s
  | .preemptStatus r => Sys2Proof.Machine.execPreemptStatus r s
  | .preemptCountersRead r => Sys2Proof.Machine.execPreemptCountersRead r s
  | .preemptCountersClear r => Sys2Proof.Machine.execPreemptCountersClear r s
  | .ingressCountersRead r => Sys2Proof.Machine.execIngressCountersRead r s
  | .ingressCountersClear r => Sys2Proof.Machine.execIngressCountersClear r s
  | .timeRead r => Sys2Proof.Machine.execTimeRead r s
  | .timeAdjust r => Sys2Proof.Machine.execTimeAdjust r s
  | .gptpConfig r => Sys2Proof.Machine.execGptpConfig r s
  | .gptpPortConfig r => Sys2Proof.Machine.execGptpPortConfig r s
  | .gptpStatus r => Sys2Proof.Machine.execGptpStatus r s
  | .gptpCountersRead r => Sys2Proof.Machine.execGptpCountersRead r s
  | .ppsConfig r => Sys2Proof.Machine.execPpsConfig r s
  | .ppsInRead r => Sys2Proof.Machine.execPpsInRead r s
  | .ttSourceBind r => Sys2Proof.Machine.execTtSourceBind r s
  | .ttLayoutSet r => Sys2Proof.Machine.execTtLayoutSet r s
  | .ttLayoutDelete r => Sys2Proof.Machine.execTtLayoutDelete r s
  | .ttSignalDefine r => Sys2Proof.Machine.execTtSignalDefine r s
  | .ttComposeSet r => Sys2Proof.Machine.execTtComposeSet r s
  | .ttComposeTemplate r => Sys2Proof.Machine.execTtComposeTemplate r s
  | .ttDigestRouteSet r => Sys2Proof.Machine.execTtDigestRouteSet r s
  | .ttSignalRead r => Sys2Proof.Machine.execTtSignalRead r s
  | .ttSignalWrite r => Sys2Proof.Machine.execTtSignalWrite r s
  | .ttLayoutStatus r => Sys2Proof.Machine.execTtLayoutStatus r s
  | .ttStatus r => Sys2Proof.Machine.execTtStatus r s
  | .ttComposeSend r => Sys2Proof.Machine.execTtComposeSend r s
  | .ttCountersRead r => Sys2Proof.Machine.execTtCountersRead r s
  | .ttCountersClear r => Sys2Proof.Machine.execTtCountersClear r s
  | .clockStatus r => Sys2Proof.Machine.execClockStatus r s
  | .dvfsConfig r => Sys2Proof.Machine.execDvfsConfig r s
  | .avsConfig r => Sys2Proof.Machine.execAvsConfig r s
  | .islandGate r => Sys2Proof.Machine.execIslandGate r s
  | .clockFlagsClear r => Sys2Proof.Machine.execClockFlagsClear r s
  | .clockCountersRead r => Sys2Proof.Machine.execClockCountersRead r s
  | .clockCountersClear r => Sys2Proof.Machine.execClockCountersClear r s
  | .resetBlock r => Sys2Proof.Machine.execResetBlock r s
  | .resetDomain r => Sys2Proof.Machine.execResetDomain r s
  | .resetStatus r => Sys2Proof.Machine.execResetStatus r s
  | .bootStatus r => Sys2Proof.Machine.execBootStatus r s
  | .watchdogConfig r => Sys2Proof.Machine.execWatchdogConfig r s
  | .firmwareSelect r => Sys2Proof.Machine.execFirmwareSelect r s
  | .bootProfileApply r => Sys2Proof.Machine.execBootProfileApply r s
  | .resetCountersRead r => Sys2Proof.Machine.execResetCountersRead r s
  | .resetCountersClear r => Sys2Proof.Machine.execResetCountersClear r s
  | .calConfig r => Sys2Proof.Machine.execCalConfig r s
  | .calRun r => Sys2Proof.Machine.execCalRun r s
  | .calStatus r => Sys2Proof.Machine.execCalStatus r s
  | .calStore r => Sys2Proof.Machine.execCalStore r s
  | .calCountersRead r => Sys2Proof.Machine.execCalCountersRead r s
  | .calCountersClear r => Sys2Proof.Machine.execCalCountersClear r s
  | .nvmSlotStatus r => Sys2Proof.Machine.execNvmSlotStatus r s
  | .nvmRead r => Sys2Proof.Machine.execNvmRead r s
  | .nvmWriteBegin r differs => Sys2Proof.Machine.execNvmWriteBegin r differs s
  | .nvmWrite r differs => Sys2Proof.Machine.execNvmWrite r differs s
  | .nvmWriteEnd r => Sys2Proof.Machine.execNvmWriteEnd r s
  | .nvmInvalidate r => Sys2Proof.Machine.execNvmInvalidate r s
  | .nvmCountersRead r => Sys2Proof.Machine.execNvmCountersRead r s
  | .nvmCountersClear r => Sys2Proof.Machine.execNvmCountersClear r s
  | .selftestRun r pre => Sys2Proof.Machine.execSelftestRun r pre s
  | .selftestStatus r => Sys2Proof.Machine.execSelftestStatus r s
  | .selftestAbort r => Sys2Proof.Machine.execSelftestAbort r s
  | .selftestResultRead r => Sys2Proof.Machine.execSelftestResultRead r s
  | .repairStatus r => Sys2Proof.Machine.execRepairStatus r s
  | .repairFuse r pre => Sys2Proof.Machine.execRepairFuse r pre s
  | .portLoopback r => Sys2Proof.Machine.execPortLoopback r s
  | .portTestMode r => Sys2Proof.Machine.execPortTestMode r s
  | .portTestCountersRead r => Sys2Proof.Machine.execPortTestCountersRead r s
  | .portTestCountersClear r => Sys2Proof.Machine.execPortTestCountersClear r s
  | .coldResetAssert por => Sys2Proof.Machine.execColdResetAssert por s
  | .coldStart bootsel => Sys2Proof.Machine.execColdStart bootsel s
  | .pinResetAssert => Sys2Proof.Machine.execPinResetAssert s
  | .pinStart bootsel => Sys2Proof.Machine.execPinStart bootsel s
  | .warmStart => Sys2Proof.Machine.execWarmStart s
  | .fuseLoadDone => Sys2Proof.Machine.execFuseLoadDone s
  | .firmwareSignatureDone chosen other version => Sys2Proof.Machine.execFirmwareSignatureDone chosen other version s
  | .memoryBistDone pre slices buckets signals => Sys2Proof.Machine.execMemoryBistDone pre slices buckets signals s
  | .calibrationRestoreDone outside readings => Sys2Proof.Machine.execCalibrationRestoreDone outside readings s
  | .foregroundCalDone b failed => Sys2Proof.Machine.execForegroundCalDone b failed s
  | .headlandReady => Sys2Proof.Machine.execHeadlandReady s
  | .headlandResetRelease => Sys2Proof.Machine.execHeadlandResetRelease s
  | .watchdogExpiry => Sys2Proof.Machine.execWatchdogExpiry s
  | .startupTimerExpiry => Sys2Proof.Machine.execStartupTimerExpiry s
  | .drainComplete t => Sys2Proof.Machine.execDrainComplete t s
  | .drainTimeout t => Sys2Proof.Machine.execDrainTimeout t s
  | .resetStartupDone t => Sys2Proof.Machine.execResetStartupDone t s
  | .agentSequenceComplete good => Sys2Proof.Machine.execAgentSequenceComplete good s
  | .epochIdleTimeout => Sys2Proof.Machine.execEpochIdleTimeout s
  | .commitPrepareDone => Sys2Proof.Machine.execCommitPrepareDone s
  | .commitBoundaryApply block => Sys2Proof.Machine.execCommitBoundaryApply block s
  | .commitTimeout p => Sys2Proof.Machine.execCommitTimeout p s
  | .portStartupBegin p => Sys2Proof.Machine.execPortStartupBegin p s
  | .breakIntervalExpiry p => Sys2Proof.Machine.execBreakIntervalExpiry p s
  | .startupRetry p => Sys2Proof.Machine.execStartupRetry p s
  | .linkUp p eee => Sys2Proof.Machine.execLinkUp p eee s
  | .lossOfSignal p => Sys2Proof.Machine.execLossOfSignal p s
  | .frameRx pos x => Sys2Proof.Machine.execFrameRx pos x s
  | .frameDequeue e started x => Sys2Proof.Machine.execFrameDequeue e started x s
  | .frameTxComplete e x upset under => Sys2Proof.Machine.execFrameTxComplete e x upset under s
  | .egressFlushTimeout p => Sys2Proof.Machine.execEgressFlushTimeout p s
  | .linkEgressFlush k => Sys2Proof.Machine.execLinkEgressFlush k s
  | .vs50FrameRx p hdr region margin => Sys2Proof.Machine.execVs50FrameRx p hdr region margin s
  | .partnerRfTimeout p => Sys2Proof.Machine.execPartnerRfTimeout p s
  | .oamWordRx p => Sys2Proof.Machine.execOamWordRx p s
  | .oamStatusSend p => Sys2Proof.Machine.execOamStatusSend p s
  | .txAdjustRequest p => Sys2Proof.Machine.execTxAdjustRequest p s
  | .lpiAssert p => Sys2Proof.Machine.execLpiAssert p s
  | .lpiSleepEntry p => Sys2Proof.Machine.execLpiSleepEntry p s
  | .lpiSleepEnd p => Sys2Proof.Machine.execLpiSleepEnd p s
  | .lpiQuietEnd p => Sys2Proof.Machine.execLpiQuietEnd p s
  | .lpiRefreshEnd p => Sys2Proof.Machine.execLpiRefreshEnd p s
  | .lpiWakeStart p => Sys2Proof.Machine.execLpiWakeStart p s
  | .lpiWakeEnd p => Sys2Proof.Machine.execLpiWakeEnd p s
  | .refreshMissed p => Sys2Proof.Machine.execRefreshMissed p s
  | .gaugeWindowEnd p w => Sys2Proof.Machine.execGaugeWindowEnd p w s
  | .anchorReversion p => Sys2Proof.Machine.execAnchorReversion p s
  | .ctleStep p => Sys2Proof.Machine.execCtleStep p s
  | .scoutCycleEnd p segs cancelled next removed => Sys2Proof.Machine.execScoutCycleEnd p segs cancelled next removed s
  | .echoWindowTakeover p => Sys2Proof.Machine.execEchoWindowTakeover p s
  | .aggressorReplace p => Sys2Proof.Machine.execAggressorReplace p s
  | .nextSeedEnd p k => Sys2Proof.Machine.execNextSeedEnd p k s
  | .bundleGroupApply p => Sys2Proof.Machine.execBundleGroupApply p s
  | .negotiationComplete p x => Sys2Proof.Machine.execNegotiationComplete p x s
  | .halfDuplexPhaseEnd p echo next => Sys2Proof.Machine.execHalfDuplexPhaseEnd p echo next s
  | .trainingPhaseChange p => Sys2Proof.Machine.execTrainingPhaseChange p s
  | .trainingPhaseTimeout p => Sys2Proof.Machine.execTrainingPhaseTimeout p s
  | .noAnswerTimeout p => Sys2Proof.Machine.execNoAnswerTimeout p s
  | .partnerLostTimeout p => Sys2Proof.Machine.execPartnerLostTimeout p s
  | .coeffRequestSend p loss => Sys2Proof.Machine.execCoeffRequestSend p loss s
  | .coeffRequestTimeout p => Sys2Proof.Machine.execCoeffRequestTimeout p s
  | .relinkTimeout p => Sys2Proof.Machine.execRelinkTimeout p s
  | .preambleDetect p level mv => Sys2Proof.Machine.execPreambleDetect p level mv s
  | .ssdDetect p strength burst => Sys2Proof.Machine.execSsdDetect p strength burst s
  | .ssdSearchTimeout p => Sys2Proof.Machine.execSsdSearchTimeout p s
  | .rxRearm p rise => Sys2Proof.Machine.execRxRearm p rise s
  | .rxOverlap p rise => Sys2Proof.Machine.execRxOverlap p rise s
  | .beaconRx p => Sys2Proof.Machine.execBeaconRx p s
  | .plcaListenTimeout p => Sys2Proof.Machine.execPlcaListenTimeout p s
  | .beaconLossTimeout p => Sys2Proof.Machine.execBeaconLossTimeout p s
  | .plcaCycleStart p => Sys2Proof.Machine.execPlcaCycleStart p s
  | .txOpportunity p => Sys2Proof.Machine.execTxOpportunity p s
  | .txCollision p rise => Sys2Proof.Machine.execTxCollision p rise s
  | .marginIntervalEnd p snr errs => Sys2Proof.Machine.execMarginIntervalEnd p snr errs s
  | .fecWindowEnd ports => Sys2Proof.Machine.execFecWindowEnd ports s
  | .healthDrop p fec => Sys2Proof.Machine.execHealthDrop p fec s
  | .soundingPeriodicStart p => Sys2Proof.Machine.execSoundingPeriodicStart p s
  | .soundingDone p => Sys2Proof.Machine.execSoundingDone p s
  | .soundingRunTimeout p => Sys2Proof.Machine.execSoundingRunTimeout p s
  | .cableTestStimulusStart p partner => Sys2Proof.Machine.execCableTestStimulusStart p partner s
  | .cableTestStimulusEnd p => Sys2Proof.Machine.execCableTestStimulusEnd p s
  | .cableTestDone p rho => Sys2Proof.Machine.execCableTestDone p rho s
  | .slackRequestRx p token => Sys2Proof.Machine.execSlackRequestRx p token s
  | .slackAcceptRx p token => Sys2Proof.Machine.execSlackAcceptRx p token s
  | .slackRefuseRx p token => Sys2Proof.Machine.execSlackRefuseRx p token s
  | .slackRequestResend p => Sys2Proof.Machine.execSlackRequestResend p s
  | .slackAcceptSilence p => Sys2Proof.Machine.execSlackAcceptSilence p s
  | .lineWake p mv => Sys2Proof.Machine.execLineWake p mv s
  | .lineWakeQuiet p mv => Sys2Proof.Machine.execLineWakeQuiet p mv s
  | .wakeBurstEnd p => Sys2Proof.Machine.execWakeBurstEnd p s
  | .wakeNAssert ns => Sys2Proof.Machine.execWakeNAssert ns s
  | .wakeNPulseEnd => Sys2Proof.Machine.execWakeNPulseEnd s
  | .parkedHandshakeEnd => Sys2Proof.Machine.execParkedHandshakeEnd s
  | .devicePowerTimeout => Sys2Proof.Machine.execDevicePowerTimeout s
  | .laneTrainingComplete m foms partnerReq tx => Sys2Proof.Machine.execLaneTrainingComplete m foms partnerReq tx s
  | .laneTrainingTimeout m => Sys2Proof.Machine.execLaneTrainingTimeout m s
  | .fomIntervalEnd m x => Sys2Proof.Machine.execFomIntervalEnd m x s
  | .hostCtleStep m => Sys2Proof.Machine.execHostCtleStep m s
  | .hostCtleHoldEnd m => Sys2Proof.Machine.execHostCtleHoldEnd m s
  | .hostLinkUp k skew order => Sys2Proof.Machine.execHostLinkUp k skew order s
  | .hostLinkDown k lost am fec => Sys2Proof.Machine.execHostLinkDown k lost am fec s
  | .ebbAutoEntry k => Sys2Proof.Machine.execEbbAutoEntry k s
  | .ebbSignalDetect m => Sys2Proof.Machine.execEbbSignalDetect m s
  | .ebbRetrainTimeout m => Sys2Proof.Machine.execEbbRetrainTimeout m s
  | .eyeScanPointEnd m errors => Sys2Proof.Machine.execEyeScanPointEnd m errors s
  | .eyeScanDone m => Sys2Proof.Machine.execEyeScanDone m s
  | .scrubRead bank row words bad live last => Sys2Proof.Machine.execScrubRead bank row words bad live last s
  | .loadWindowEnd => Sys2Proof.Machine.execLoadWindowEnd s
  | .gateChange e => Sys2Proof.Machine.execGateChange e s
  | .gclConfigChange e => Sys2Proof.Machine.execGclConfigChange e s
  | .streamGateChange g config => Sys2Proof.Machine.execStreamGateChange g config s
  | .frerResetTimeout i1 => Sys2Proof.Machine.execFrerResetTimeout i1 s
  | .frerLatentTest i1 => Sys2Proof.Machine.execFrerLatentTest i1 s
  | .preemptVerifyDone p ok => Sys2Proof.Machine.execPreemptVerifyDone p ok s
  | .gptpMessageRx i1 pos m => Sys2Proof.Machine.execGptpMessageRx i1 pos m s
  | .gptpSyncTx i1 pos => Sys2Proof.Machine.execGptpSyncTx i1 pos s
  | .gptpPdelayTx i1 pos => Sys2Proof.Machine.execGptpPdelayTx i1 pos s
  | .ppsOutPulse rise => Sys2Proof.Machine.execPpsOutPulse rise s
  | .ppsInEdge => Sys2Proof.Machine.execPpsInEdge s
  | .ttCopyProcess e parity corrected bad => Sys2Proof.Machine.execTtCopyProcess e parity corrected bad s
  | .ttSignalStale n => Sys2Proof.Machine.execTtSignalStale n s
  | .ttDigestFlush k => Sys2Proof.Machine.execTtDigestFlush k s
  | .ttComposePeriodic l => Sys2Proof.Machine.execTtComposePeriodic l s
  | .ttComposeHoldEnd l => Sys2Proof.Machine.execTtComposeHoldEnd l s
  | .integrityWindowEnd => Sys2Proof.Machine.execIntegrityWindowEnd s
  | .faultRecordCopy ok => Sys2Proof.Machine.execFaultRecordCopy ok s
  | .thermalLimit sensor reading => Sys2Proof.Machine.execThermalLimit sensor reading s
  | .railLimit rail mv => Sys2Proof.Machine.execRailLimit rail mv s
  | .railUndervoltage rail mv => Sys2Proof.Machine.execRailUndervoltage rail mv s
  | .keeperParity word => Sys2Proof.Machine.execKeeperParity word s
  | .lrefStable freq => Sys2Proof.Machine.execLrefStable freq s
  | .lrefStartTimeout => Sys2Proof.Machine.execLrefStartTimeout s
  | .hrefPresent => Sys2Proof.Machine.execHrefPresent s
  | .clockFail clock stopped => Sys2Proof.Machine.execClockFail clock stopped s
  | .clockReturn clock => Sys2Proof.Machine.execClockReturn clock s
  | .pllLock pll => Sys2Proof.Machine.execPllLock pll s
  | .clockForcedSwitch i1 => Sys2Proof.Machine.execClockForcedSwitch i1 s
  | .keeperFreqFault freq => Sys2Proof.Machine.execKeeperFreqFault freq s
  | .islandGateEffect i1 => Sys2Proof.Machine.execIslandGateEffect i1 s
  | .bridgesOpen i1 => Sys2Proof.Machine.execBridgesOpen i1 s
  | .pmbusWriteDone ack data => Sys2Proof.Machine.execPmbusWriteDone ack data s
  | .dvfsSettled mv => Sys2Proof.Machine.execDvfsSettled mv s
  | .dvfsSettleTimeout mv => Sys2Proof.Machine.execDvfsSettleTimeout mv s
  | .undertowRunStart b => Sys2Proof.Machine.execUndertowRunStart b s
  | .undertowTempTrigger sensor reading => Sys2Proof.Machine.execUndertowTempTrigger sensor reading s
  | .undertowMeasureDone b results => Sys2Proof.Machine.execUndertowMeasureDone b results s
  | .quietOpportunityMeasure b before after result => Sys2Proof.Machine.execQuietOpportunityMeasure b before after result s
  | .undertowStep b => Sys2Proof.Machine.execUndertowStep b s
  | .nvmSessionIdleTimeout => Sys2Proof.Machine.execNvmSessionIdleTimeout s
  | .nvmWriteEndDone differs => Sys2Proof.Machine.execNvmWriteEndDone differs s
  | .calStoreDone differs => Sys2Proof.Machine.execCalStoreDone differs s
  | .repairLogWriteDone ok => Sys2Proof.Machine.execRepairLogWriteDone ok s
  | .selftestPreconditionCheck t pre => Sys2Proof.Machine.execSelftestPreconditionCheck t pre s
  | .selftestStepDone t o => Sys2Proof.Machine.execSelftestStepDone t o s
  | .managementLaneLinkChange up => Sys2Proof.Machine.execManagementLaneLinkChange up s
  | .powerOnRelease => Sys2Proof.Machine.execPowerOnRelease s
  | .pcsLockLost p => Sys2Proof.Machine.execPcsLockLost p s
  | .vs50FrameTx p words => Sys2Proof.Machine.execVs50FrameTx p words s
  | .csmaBackoffExpiry p => Sys2Proof.Machine.execCsmaBackoffExpiry p s

end Sys2Proof.Machine
end

