-- ==== Sys2Proof/Safety.lean ====
section
/-! DEFINITION. The terms that claims use: a run that goes on, a request that passes every check of R47, what its command
then does, and the invariant that every step keeps. -/

namespace Sys2Proof.Machine

/-- The block goes on: the outcome is a next state. -/
def Goes (o : Host.Outcome State Fault Refusal) : Prop := ∃ t, o = .next t

/-! ### A request and its command -/

/-- The state with the packet counted in `CMD_RX` (R675). -/
def received (r : Req) (s : State) : State := s.bump 0x0003 (sn r) 0

/-- A request that is executed at once: Flaes takes its source's packets (R74, R88), the agent serves (R73, R90), no request waits in
Headland's queue (R46), and no check of steps 2 to 9 of R47 stops it. STAGE is clear. -/
def Taken (c : Cmd) (r : Req) (s : State) : Prop :=
  s.ctl.feReady = true ∧ sourceOpen s c.bw (sn r) = true ∧ (c.bw = true ∨ s.rst.headland = 2 ∧ s.ctl.cmdQueue = []) ∧
  authOk (received r s) c.op r = true ∧ r.flags &&& 0xFC = 0 ∧ r.version = 1 ∧ r.rsvd = 0 ∧
  (c.spiOnly = true → sn r = 0) ∧ c.target (received r s) (tw r) = true ∧ c.len r.params = true ∧
  c.check (received r s) r = none ∧ step9 (received r s) c r = none

/-- The state in which a command runs: the packet counted, and the sequence of an authenticated one accepted (R50). -/
def heard (r : Req) (s : State) : State := acceptSeq (received r s) r

/-- The state after the reply to a command that runs, before its effect (R35, R85). -/
def replied (c : Cmd) (r : Req) (s : State) (st : Status) (data : List Byte) : State :=
  reply (heard r s) c.op r st data

/-- A command that only reads: once taken it answers OK with its data, and does nothing else. -/
def Reads (i : Req → Instr) (c : Cmd) (f : State → Req → List Byte) : Prop :=
  ∀ r s, Taken c r s → exec (i r) s = .next (replied c r s .ok (f (heard r s) r))

/-- A command that answers OK without data, and then takes its effect. -/
def Does (i : Req → Instr) (c : Cmd) (f : State → Req → State) : Prop :=
  ∀ r s, Taken c r s → exec (i r) s = .next (f (replied c r s .ok []) r)

/-- A command that answers ACCEPTED, and then takes its effect; its completion comes later. -/
def Accepts (i : Req → Instr) (c : Cmd) (f : State → Req → State) : Prop :=
  ∀ r s, Taken c r s → exec (i r) s = .next (f (replied c r s .accepted []) r)

/-- A command that answers with a status and data read before its effect, and then takes its effect. -/
def Answers (i : Req → Instr) (c : Cmd) (d : State → Req → Status × List Byte) (f : State → Req → State) : Prop :=
  ∀ r s, Taken c r s →
    exec (i r) s = .next (f (replied c r s (d (heard r s) r).1 (d (heard r s) r).2) r)

/-! ### Invariants -/

/-- Event records carry rising sequences, all below the next one (R67). -/
def eventsRise (s : State) : Prop :=
  s.ctl.events.Pairwise (fun a b => a.seq < b.seq) ∧ ∀ e ∈ s.ctl.events, e.seq < s.ctl.nextEvent

/-- The SPI reply queue holds at most 32 packets, at most 24 of them of events (R40). -/
def repliesFit (s : State) : Prop :=
  s.ctl.spiQueue.length ≤ 32 ∧ (s.ctl.spiQueue.filter (·.event)).length ≤ 24

/-- Every counter is a 64-bit number, and the counters are in their canonical form (R674). -/
def countersFit (s : State) : Prop := Tab.wf 0 s.counters ∧ ∀ e ∈ s.counters, e.2 < 2 ^ 64

/-- What every step keeps: the event queue, the SPI reply queue and the fault record within their depths (R68, R40, R81), the
event sequence rising (R67), the MRAM in its canonical form, counters of 64 bits (R674), and the states of the epoch (R678) and
of Headland (READ_CORE_STATUS) among those that the spec names. -/
def State.Ok (s : State) : Prop :=
  s.ctl.events.length ≤ 4096 ∧ repliesFit s ∧ s.integ.record.length ≤ 64 ∧ eventsRise s ∧ Memory.wf s.nvm.mem ∧
    countersFit s ∧ s.epoch.state ≤ 3 ∧ s.rst.headland ≤ 4

/-! ### Who writes what -/

/-- It carries commands that may change anything a command changes: a packet that comes as bytes, a start-up profile, or a boundary at
which the blocks of a commit apply. -/
def carries : Instr → Bool
  | .mbxDoorbellSubmit | .frameRx _ _ | .headlandReady | .commitPrepareDone | .commitBoundaryApply _ | .commitTimeout _ |
    .safeState _ | .portQuiet _ | .undertowStep _ | .anchorReversion _ => true
  | _ => false

/-- It may write the MRAM: the NVM opcodes, the ends of their sequences, the fault ring copy, the calibration store, and the repair
log. -/
def writesMram : Instr → Bool
  | .calStore _ | .nvmWriteBegin _ _ | .nvmWrite _ _ | .nvmInvalidate _ | .foregroundCalDone _ _ |
    .agentSequenceComplete _ | .faultRecordCopy _ | .nvmWriteEndDone _ | .calStoreDone _ | .repairLogWriteDone _ => true
  | c => carries c

/-- It may change the fuses: the key opcodes, and the fusing of repair. -/
def writesFuses : Instr → Bool
  | .authKeyProgram _ | .authKeyRevoke _ | .agentSequenceComplete _ => true
  | c => carries c

/-- It may change the committed configuration: the configuration opcodes, the commit of an epoch and its way back, the resets, a
gate control list that becomes operational. -/
def writesCfg : Instr → Bool
  | .authPolicySet _ | .authKeyProgram _ | .authKeyRevoke _ | .transportConfig _ | .eventRoute _ |
    .eventMask _ | .warmResetAssert | .integrityConfig _ | .portModeSet _ | .portAdmin _ | .vs50Config _ | .dspConfig _ |
    .bundleGroupSet _ | .echoWindowSet _ | .startConfig _ | .mdConfig _ | .healthConfig _ | .soundingConfig _ |
    .portPowerConfig _ | .wakeConfig _ | .hostLinkConfig _ | .hostLaneConfig _ | .hostLinkMacConfig _ | .hostAdmin _ |
    .fabricConfig _ | .queueConfig _ | .schedulerConfig _ | .shaperConfig _ | .cutThroughConfig _ | .streamTableConfig _ |
    .streamEntryWrite _ | .streamEntryDelete _ | .destWrite _ | .ingressProfileSet _ | .qciFilterSet _ | .qciMeterSet _ |
    .qciGateSet _ | .frerRecoverySet _ | .gclLoad _ | .gclSet _ | .preemptConfig _ | .gptpConfig _ | .gptpPortConfig _ |
    .ppsConfig _ | .ttSourceBind _ | .ttLayoutSet _ | .ttLayoutDelete _ | .ttSignalDefine _ | .ttComposeSet _ |
    .ttComposeTemplate _ | .ttDigestRouteSet _ | .dvfsConfig _ | .avsConfig _ | .watchdogConfig _ | .calConfig _ |
    .coldResetAssert _ | .pinResetAssert | .gclConfigChange _ => true
  | c => carries c

/-- It may change the `SAFE_STATE` override: the opcode, and the device resets. -/
def writesOverride : Instr → Bool
  | .safeState _ | .warmResetAssert | .coldResetAssert _ | .pinResetAssert => true
  | c => carries c

end Sys2Proof.Machine
end

