-- ==== Sys2Proof/Certificates/Slice0/Obligations.lean ====
section
/-! DEFINITION. The statements for the provers. Each is about the machine, for every state: what a step is, the invariant that
every step keeps, who may write what, how a request is checked, the rules of the shared operations, and for every command of the
table the next state that it answers. -/

open Sys2Proof Sys2Proof.Machine

/-! ### The step, reset, and the invariant -/

/-- A step of a block whose queue is not empty is the command at the front, on the state with the queue's rest. -/
def Obligations.StepRunsFront : Prop :=
  ∀ (c : Instr) (rest : List Instr) (s : State),
    step { s with pending := c :: rest } = exec c { s with pending := rest }

/-- On an empty queue Headland, while it serves, takes the oldest packet of its command queue, the ticker of R472 advances by one
unit, REQ_BUSY falls, and every port in low-power idle that then has an eligible frame wakes, in ascending order: the model's choices
(log entries 1, 8 and 66). With no packet queued and no frame eligible at a port in low-power idle, nothing else changes. -/
def Obligations.IdleTicks : Prop :=
  let ticked := fun s : State => { s with now := s.now + 1, ctl := { s.ctl with reqBusy := false } }
  ∀ s : State, s.pending = [] →
    ((s.ctl.cmdQueue = [] ∨ serving s = false) → step s = .next (eachN (ticked s) (List.range 128) lpiSettle)) ∧
    (∀ q rest, s.ctl.cmdQueue = q :: rest → serving s = true → step s = .next (eachN
      (ticked (takePacket q.op q.req { s with ctl := { s.ctl with cmdQueue := rest } })) (List.range 128) lpiSettle)) ∧
    (s.ctl.cmdQueue = [] → (∀ p < 128, (s.port p).power.macLpi = true → txWanted (ticked s) p = false) →
      step s = .next (ticked s))

/-- Right after the power-on reset: the reset is asserted at reach 0 (R551), FE_READY is 0 (R74), Headland is in reset, no
event is queued and the first record gets sequence 1 (R67), the last accepted sequence of each source is 0 (R50), the fault
record is empty (R81), every counter is 0 (R675), the epoch is closed, and no command waits. Where it rests on the model's
choices, they are log entries 2 and 39. -/
def Obligations.ResetHolds : Prop :=
  State.reset.pending = [] ∧ State.reset.rst.asserted = true ∧ State.reset.rst.reach = 0 ∧ State.reset.ctl.feReady = false ∧
  State.reset.rst.headland = 0 ∧ State.reset.ctl.events = [] ∧ State.reset.ctl.nextEvent = 1 ∧ State.reset.ctl.spiQueue = [] ∧
  (∀ n, State.reset.ctl.lastSeq.get 0 n = 0) ∧ State.reset.integ.record = [] ∧ State.reset.integ.faultSeq = 0 ∧
  (∀ op blk idx, State.reset.cnt op blk idx = 0) ∧ State.reset.epoch.state = 0 ∧ (∀ p, (State.reset.port p).st = .quiet)

/-- The state after reset meets the invariant of `StepKeepsOk`. -/
def Obligations.ResetOk : Prop := State.reset.Ok

/-- Every step keeps the invariant: the event queue, the SPI reply queue and the fault record stay within their depths (R67, R40,
R81), event sequences rise (R67), the MRAM keeps its canonical form, every counter stays a 64-bit number (R674), and the states of
the epoch and of Headland stay among those that the spec names. -/
def Obligations.StepKeepsOk : Prop := ∀ s t : State, s.Ok → step s = .next t → t.Ok

/-- Every command goes on, and none touches the queue of commands: only `step` takes one from it. -/
def Obligations.ExecLeavesQueue : Prop :=
  ∀ (c : Instr) (s : State), s.Ok → ∃ t, exec c s = .next t ∧ t.pending = s.pending

/-! ### Who writes what -/

/-- A command that is not one of `writesMram` leaves every byte of the MRAM as it was. -/
def Obligations.MramFrame : Prop :=
  ∀ (c : Instr) (s t : State), s.Ok → writesMram c = false → exec c s = .next t →
    ∀ a, mramByte t.nvm.mem a = mramByte s.nvm.mem a

/-- A command that is not one of `writesFuses`, `writesCfg` or `writesOverride` leaves the fuses (keys and repair entries), the committed
configuration of every block, or the `SAFE_STATE` override (R76) as they were. -/
def Obligations.WriterFrames : Prop :=
  ∀ (c : Instr) (s t : State), s.Ok → exec c s = .next t →
    (writesFuses c = false → t.fuses = s.fuses) ∧ (writesCfg c = false → t.cfg = s.cfg) ∧
    (writesOverride c = false → t.ctl.safeState = s.ctl.safeState)

/-- What the packet of an executed command and its reply change: the reply queue, what has been sent, the packets that wait at a host
link for the end of its data frame (R43), the source's sequence and the control path counters. With `Reads` this is all that a read
opcode changes (R680). -/
def Obligations.ReplyFrame : Prop :=
  ∀ (c : Cmd) (r : Req) (s : State) (st : Status) (d : List Byte),
    { replied c r s st d with
      ctl := { (replied c r s st d).ctl with spiQueue := s.ctl.spiQueue, sent := s.ctl.sent, lastSeq := s.ctl.lastSeq }
      fabric := { (replied c r s st d).fabric with egress := s.fabric.egress }
      counters := s.counters } = s ∧
    ∀ e, { (replied c r s st d).egr e with replies := (s.egr e).replies } = s.egr e

/-- A packet that a check of R47 refuses, or that finds Headland starting, changes nothing but the reply queue, what has been sent or
waits to be sent, Headland's command queue, the event queue, the counters and the count of free values drawn; its source's last accepted
sequence stays (R50). Headland's queue takes it only where it serves and others wait there before it. -/
def Obligations.RefusedFrame : Prop :=
  ∀ (c : Cmd) (r : Req) (s : State), judge (received r s) c r ≠ .run → judge (received r s) c r ≠ .stage →
    { serve c r s with
      freeCtr := s.freeCtr
      fabric := { (serve c r s).fabric with egress := s.fabric.egress }
      ctl := { (serve c r s).ctl with
        cmdQueue := s.ctl.cmdQueue, spiQueue := s.ctl.spiQueue, sent := s.ctl.sent, events := s.ctl.events
        nextEvent := s.ctl.nextEvent, lost := s.ctl.lost }
      counters := s.counters } = s ∧
    (∀ e, { (serve c r s).egr e with replies := (s.egr e).replies } = s.egr e) ∧
    (c.bw = true ∨ serving s = false ∨ s.ctl.cmdQueue = [] → (serve c r s).ctl.cmdQueue = s.ctl.cmdQueue)

/-! ### The checks of a packet (R47, R50, R74) -/

/-- Until FE_READY is 1 no transport accepts a packet: it leaves no trace, whatever its opcode (R74). While Headland does not serve, its
opcodes are answered BUSY and only counted, and Breakwater's are served (R562, R668). While it serves and packets wait in its command
queue, a further one joins the queue when a guaranteed or a shared entry is free for its source, and is answered BUSY when none is
(R46): a source that holds fewer than two entries always finds one, and a packet joins last. Where it rests on the model's choices,
they are log entry 8. -/
def Obligations.ServedStates : Prop :=
  (∀ (c : Cmd) (r : Req) (s : State), s.ctl.feReady = false → serve c r s = s) ∧
  (∀ s : State, s.ctl.feReady = false → exec .mbxDoorbellSubmit s = .next s) ∧
  (∀ (c : Cmd) (r : Req) (s : State), s.ctl.feReady = true → sourceOpen s c.bw (sn r) = true → r.flags.getLsbD 7 = false →
    s.rst.headland ≠ 2 → s.rst.headland ≠ 4 →
    serve c r s = if c.bw then act (received r s) c r else reply (received r s) c.op r .busy []) ∧
  (∀ (c : Cmd) (r : Req) (s : State), s.ctl.feReady = true → sourceOpen s false (sn r) = true → r.flags.getLsbD 7 = false →
    (s.rst.headland = 2 ∨ s.rst.headland = 4) → c.bw = false → s.ctl.cmdQueue ≠ [] →
    ((queuedOf s (sn r) < 2 ∨ sharedUsed s < 124) → (serve c r s).ctl.cmdQueue =
      s.ctl.cmdQueue ++ [{ op := c.op, req := r, own := 0, pool := 0 }] ∧ (serve c r s).cfg = s.cfg) ∧
    (2 ≤ queuedOf s (sn r) → 124 ≤ sharedUsed s → serve c r s = reply (received r s) c.op r .busy []))

/-- The order of R47: step 2 before the REPLY flag and the version, those before transport and STAGE, then the target, the length,
the reserved bits and parameters, and step 9; the first failing check decides. -/
def Obligations.ChecksInOrder : Prop :=
  ∀ (c : Cmd) (r : Req) (s : State), s.ctl.feReady = true → sourceOpen s c.bw (sn r) = true →
    (c.bw = true ∨ s.rst.headland = 2 ∧ s.ctl.cmdQueue = []) →
    let s1 := received r s
    let v := if staged r then s1.drafted else s1
    (authOk s1 c.op r = false → serve c r s = refuse s1 c.op r .authFail []) ∧
    (authOk s1 c.op r = true → (r.flags.getLsbD 7 = true → serve c r s = s1) ∧
      (r.flags.getLsbD 7 = false → (r.version ≠ 1 → serve c r s = refuse s1 c.op r .invalidOpcode []) ∧
        (r.version = 1 → (permitted s1 c r = false → serve c r s = refuse s1 c.op r .notPermitted []) ∧
          (permitted s1 c r = true →
            (c.target v (tw r) = false → serve c r s = refuse s1 c.op r .invalidTarget []) ∧
            (c.target v (tw r) = true → (c.len r.params = false → serve c r s = refuse s1 c.op r .invalidLength []) ∧
              (c.len r.params = true →
                (∀ st, step8 v c r = some st → serve c r s = refuse s1 c.op r st []) ∧
                (step8 v c r = none →
                  (∀ st d, (if staged r then step9Staged s1 c r else step9 s1 c r) = some (st, d) →
                    serve c r s = refuse s1 c.op r st d) ∧
                  ((if staged r then step9Staged s1 c r else step9 s1 c r) = none →
                    serve c r s = if staged r then stageCmd s1 c r else execCmd s1 c r))))))))

/-- An authenticated packet's sequence is in order when it is the source's last accepted one plus 1 to 32,768, modulo 65,536 (R50). -/
def Obligations.SequenceWindow : Prop :=
  ∀ (s : State) (r : Req), s.ctl.lastSeq.get 0 (sn r) < 65536 →
    (seqOk s r = true ↔ ∃ d, 1 ≤ d ∧ d ≤ 32768 ∧ r.seq.toNat = (s.ctl.lastSeq.get 0 (sn r) + d) % 65536)

/-- A request in the window that fails step 1 of R47 is counted in `CMD_CRC_ERR` alone; one that passes arrives as its opcode:
Breakwater's are served at once, Headland's join its command queue (R46), and a packet taken from there is judged by its own
opcode's record. Where it rests on the model's choices, they are log entries 8, 63
and 66. -/
def Obligations.SubmitParses : Prop :=
  (∀ s : State, s.ctl.feReady = true → (pktLenOk (windowBytes s) && pktCrcOk (windowBytes s)) = false →
    exec .mbxDoorbellSubmit s = .next (({ s with ctl := { s.ctl with reqBusy := true } }).bump 0x0003 0 1)) ∧
  (∀ s : State, s.ctl.feReady = true → (pktLenOk (windowBytes s) && pktCrcOk (windowBytes s)) = true →
    exec .mbxDoorbellSubmit s = .next (arrive (pktOp (windowBytes s)) (pktReq 0 0 (windowBytes s)) 0 0
      { s with ctl := { s.ctl with reqBusy := true } })) ∧
  (∀ (c : Cmd) (r : Req) (s : State), cmdOf s c.op = some c → bwOp c.op = true →
    arrive c.op r 0 0 s = reachHeld (serve c r s)) ∧
  (∀ (op : Nat) (r : Req) (s : State), bwOp op = false → s.ctl.feReady = true → sourceOpen s false (sn r) = true →
    serving s = true → arrive op r 0 0 s = queueIn (received r s) op r 0 0) ∧
  (∀ (c : Cmd) (r : Req) (s : State), cmdOf s c.op = some c → c.op ≠ 0x6007 → c.op ≠ 0x3102 →
    takePacket c.op r s = act s c r)

/-! ### The rules of the shared operations -/

/-- The check values of the checks: CRC-32C (R36), CRC-32, and the CRC-8 of the Tide Table (R487), over "123456789". -/
def Obligations.CrcCheckValues : Prop :=
  crc32c (ascii "123456789") = 0xE3069283 ∧ crc32 (ascii "123456789") = 0xCBF43926 ∧ crc8tt (ascii "123456789") = 0x4B ∧
  crc16 (ascii "123456789") = 0x29B1

/-- A record that finds the event queue full is not queued and is counted in `EVENT_LOST`; one that finds space is queued last, with
the next sequence. An acknowledge frees the records up to its sequence and no other; when records have been lost and space is back,
one `EVENT_OVERFLOW` of severity 1 with their number follows at once, so before any later record (R67, R68, R70). -/
def Obligations.EventQueue : Prop :=
  (∀ (s : State) (code sev src : Nat) (d : List Byte),
    (4096 ≤ s.ctl.events.length →
      (raise s code sev src d).ctl.events = s.ctl.events ∧ (raise s code sev src d).ctl.nextEvent = s.ctl.nextEvent ∧
      (countersFit s → (raise s code sev src d).cnt 0x0003 66 8 = (s.cnt 0x0003 66 8 + 1) % 2 ^ 64)) ∧
    (s.ctl.events.length < 4096 →
      (raise s code sev src d).ctl.nextEvent = s.ctl.nextEvent + 1 ∧ ∃ e : EventRec,
        (raise s code sev src d).ctl.events = s.ctl.events ++ [e] ∧ e.seq = s.ctl.nextEvent ∧ e.code = code ∧ e.sev = sev ∧
        e.src = src ∧ e.tidemark = s.tidemark ∧ e.detail = padTo 8 d)) ∧
  (∀ (s : State) (q : Nat),
    let kept := s.ctl.events.filter fun e => q < e.seq
    (s.ctl.lost = 0 → (ackEvents s q).ctl.events = kept) ∧
    (s.ctl.lost ≠ 0 → kept.length < 4096 → (ackEvents s q).ctl.lost = 0 ∧ ∃ e : EventRec,
      (ackEvents s q).ctl.events = kept ++ [e] ∧ e.seq = s.ctl.nextEvent ∧ e.code = 0x0003 ∧ e.sev = 1 ∧
      e.detail = padTo 8 (be 4 (sat 32 s.ctl.lost))))

/-- A reply that finds the SPI queue full takes the place of the oldest reply not shown in the reply window, and `RPL_LOST` counts;
the packet shown stays, and no event packet is lost (R40). -/
def Obligations.SpiQueueFull : Prop :=
  ∀ (s : State) (p : Packet), repliesFit s → countersFit s → p.dest = 0 → p.event = false →
    s.ctl.spiQueue.length = 32 →
    let t := sendPacket s p
    t.ctl.spiQueue.length = 32 ∧ t.ctl.spiQueue.head? = s.ctl.spiQueue.head? ∧ t.ctl.spiQueue.getLast? = some p ∧
    t.ctl.spiQueue.filter (·.event) = s.ctl.spiQueue.filter (·.event) ∧
    (∃ x ∈ s.ctl.spiQueue.drop 1, x.event = false ∧
      t.ctl.spiQueue = s.ctl.spiQueue.take 1 ++ (s.ctl.spiQueue.drop 1).erase x ++ [p]) ∧
    t.cnt 0x0003 0 7 = (s.cnt 0x0003 0 7 + 1) % 2 ^ 64

/-- A counter wraps at 64 bits, alone of all counters; a clear takes all the counters of its block to 0 and no other (R674). -/
def Obligations.CountersWrapAndClear : Prop :=
  (∀ (s : State) (op blk idx n k : Nat), countersFit s → (s.bumpBy op blk idx n).counters.get 0 k =
    if k = ckey op blk idx then (s.counters.get 0 k + n) % 2 ^ 64 else s.counters.get 0 k) ∧
  (∀ (s : State) (op blk k : Nat), (s.clearCnt op blk).counters.get 0 k =
    if ckey op blk 0 ≤ k ∧ k < ckey op blk 256 then 0 else s.counters.get 0 k)

/-- A safety-relevant fault sets its latch and so asserts `FAULT_N`, enters the fault record first with the next fault sequence and
class 3, keeps at most the 64 newest entries, and raises its event of severity 3 (R513, R515, R81). A clear leaves every latch whose
condition is still present, and `FAULT_N` stays asserted while one is set (R515). -/
def Obligations.SafetyFaultLatches : Prop :=
  ∀ (s : State) (k src : Nat) (d : List Byte),
    let t := safetyFault s k src d
    faultN t = true ∧ t.integ.latches.testBit k = true ∧ (∀ j, j ≠ k → t.integ.latches.testBit j = s.integ.latches.testBit j) ∧
    t.integ.faultSeq = s.integ.faultSeq + 1 ∧
    (∃ e : FaultEntry, t.integ.record = (e :: s.integ.record).take 64 ∧ e.seq = s.integ.faultSeq + 1 ∧ e.code = 0x0901 + k ∧
      e.cls = 3 ∧ e.src = src ∧ e.keeperTime = s.keeper ∧ e.tidemark = s.tidemark ∧ e.detail = padTo 4 d) ∧
    (s.ctl.events.length < 4096 → ∃ e : EventRec, t.ctl.events = s.ctl.events ++ [e] ∧ e.code = 0x0901 + k ∧ e.sev = 3 ∧ e.src = src) ∧
    (∀ mask, k < 16 → (conditions s).testBit k = true → s.integ.latches.testBit k = true →
      (clearLatches s mask).integ.latches.testBit k = true ∧ faultN (clearLatches s mask) = true)

/-- Bytes written to an MRAM region read back, and every byte outside them reads as before (R595, R598). Where it rests on the
model's choices, they are log entry 7. -/
def Obligations.MramReadAfterWrite : Prop :=
  ∀ (s : State) (i off : Nat) (bs : List Byte), Memory.wf s.nvm.mem →
    (s.regionWrite i off bs).regionRead i off bs.length = bs ∧
    (∀ a, (a < regionStart i + off ∨ regionStart i + off + bs.length ≤ a) →
      mramByte (s.regionWrite i off bs).nvm.mem a = mramByte s.nvm.mem a)

/-! ### Rules stated whole -/

/-- A staged command takes 16 bytes and its parameters, rounded up to a multiple of 8; one that does not fit in the 2 MiB is answered
RANGE by the last check of R47, and a staged command that is refused leaves the epoch as it was. -/
def Obligations.StagingMemory : Prop :=
  (∀ r : Req, stagedSize r % 8 = 0 ∧ 16 + r.params.length ≤ stagedSize r ∧ stagedSize r < 16 + r.params.length + 8) ∧
  (∀ (s : State) (c : Cmd) (r : Req), s.epoch.state < 2 → (c.gate && (c.names s r).any (blockShut s)) = false →
    (step9Staged s c r = some (.range, []) ↔ 2 * 1024 * 1024 < (s.epoch.staged.map fun x => stagedSize x.req).sum + stagedSize r)) ∧
  (∀ (s : State) (op : Nat) (r : Req) (d : List Byte), (refuse s op r .range d).epoch = s.epoch)

/-- An open epoch of a source (0xFE stands for a start-up profile, which sends no packet) that has received nothing from its owner for
its idle timeout ends: nothing stays staged, and Headland at READY
queues `EPOCH_DONE` with status EPOCH_ROLLED_BACK and failed target 0xFFFF_FFFF. -/
def Obligations.EpochIdleAborts : Prop :=
  ∀ s : State, s.epoch.state = 1 → s.epoch.owner ≠ 0xFE → s.rst.headland = 2 → s.ctl.events.length < 4096 →
    ∃ t, exec .epochIdleTimeout s = .next t ∧ t.epoch.state = 0 ∧ t.epoch.staged = [] ∧ t.cfg = s.cfg ∧
      ∃ e : EventRec, t.ctl.events = s.ctl.events ++ [e] ∧ e.code = 0x0002 ∧
        e.detail = padTo 8 (be 2 Status.epochRolledBack.code ++ be 4 0xFFFFFFFF)

/-- No opcode of Breakwater is staged: with STAGE set its packet fails step 5 of R47, whatever the epoch, and is answered
NOT_PERMITTED when steps 2 to 4 pass. -/
def Obligations.BreakwaterUnstaged : Prop :=
  ∀ (pre : Precond) (c : Cmd) (r : Req) (s : State), c ∈ cmds pre → c.bw = true → staged r = true →
    permitted s c r = false ∧
    (s.ctl.feReady = true → sourceOpen s c.bw (sn r) = true → authOk (received r s) c.op r = true →
      r.flags.getLsbD 7 = false → r.version = 1 → serve c r s = refuse (received r s) c.op r .notPermitted [])

/-- One epoch at a time, owned by the source that opened it: a command staged by another source is answered NOT_PERMITTED, and
`EPOCH_OPEN` while an epoch is open BUSY. -/
def Obligations.OneEpoch : Prop :=
  (∀ (c : Cmd) (r : Req) (s : State), s.ctl.feReady = true → sourceOpen s c.bw (sn r) = true →
    (c.bw = true ∨ s.rst.headland = 2 ∧ s.ctl.cmdQueue = []) → authOk (received r s) c.op r = true → r.flags.getLsbD 7 = false →
    r.version = 1 → staged r = true → s.epoch.state ≠ 0 → s.epoch.owner ≠ sn r →
    serve c r s = refuse (received r s) c.op r .notPermitted []) ∧
  (∀ (r : Req) (s : State), s.ctl.feReady = true → sourceOpen s false (sn r) = true → s.rst.headland = 2 → s.ctl.cmdQueue = [] →
    authOk (received r s) 0x0010 r = true → r.flags &&& 0xFC = 0 → r.version = 1 → r.rsvd = 0 → tw r = 0 → r.params.length = 4 →
    p32 r 0 ≠ 0 → p32 r 0 ≤ 3600 → s.epoch.state ≠ 0 →
    exec (.epochOpen r) s = .next (refuse (received r s) 0x0010 r .busy [])) ∧
  (∀ (r : Req) (s : State), Taken epochOpenCmd r s → s.epoch.state = 0 ∧
    ∃ t, exec (.epochOpen r) s = .next t ∧ t.epoch.state = 1 ∧ t.epoch.owner = sn r ∧ t.epoch.staged = [])

/-- The first parameter check that fails names the status, INVALID_PARAM before RANGE: an epoch's idle timeout (R60), the start and
the count of a fault record read (R81), an NVM read of a region (R595), the operating point (R543) and Undertow's settings. -/
def Obligations.ParameterRefusals : Prop :=
  ∀ (s : State) (r : Req),
    epochOpenCmd.check s r =
      (if p32 r 0 = 0 then some .invalidParam else if 3600 < p32 r 0 then some .range else none) ∧
    readFaultRecordCmd.check s r = (if 63 < p16 r 0 ∨ 32 < p16 r 2 then some .range else none) ∧
    nvmReadCmd.check s r = (if p16 r 6 ≠ 0 then some .invalidParam else if 1024 < p16 r 4 then some .range
      else if p16 r 4 ≠ 0 ∧ regionSize (ti r) < p32 r 0 + p16 r 4 then some .range else none) ∧
    dvfsConfigCmd.check s r = (if p16 r 2 ≠ 0 then some .invalidParam
      else if p8 r 0 = 1 then if p8 r 1 = 0 then none else some .invalidParam
      else if p8 r 0 = 2 ∧ 1 ≤ p8 r 1 ∧ p8 r 1 ≤ 3 then none else some .invalidParam) ∧
    calConfigCmd.check s r = (if p8 r 3 ≠ 0 ∨ p8 r 0 = 0 ∨ 2 < p8 r 0 ∨ p8 r 1 = 0 ∨ 1 < p8 r 2 then some .invalidParam
      else if 20 < p8 r 1 then some .range else none)

/-- A VS50 header is valid exactly when its SYNC is within Hamming distance 2 of 0xF9A8, its HCRC is that of bits 16 to 47, and its
TYPE is not 0b11. -/
def Obligations.HeaderValid : Prop :=
  ∀ w : BitVec 64, (parseHdr w).isSome = true ↔
    popcount 16 (bits w.toNat 63 48 ^^^ 0xF9A8) ≤ 2 ∧ bits w.toNat 15 8 = crc8h (be 4 (bits w.toNat 47 16)) ∧
      bits w.toNat 47 46 ≠ 3

/-! ### Commands of the host: what a request that passes every check of R47 does -/

/-- Identity, status, echo, event and fault-record opcodes of the control path (R55, R67 to R70, R75, R81, R674). Where it
rests on the model's choices, they are log entry 8. -/
def Obligations.HostSessionCommands : Prop :=
  Reads .identityRead identityReadCmd identityData ∧
  Reads .deviceStatus deviceStatusCmd deviceStatusData ∧
  (Reads .echo echoCmd fun _ r => r.params) ∧
  Reads .readCoreStatus readCoreStatusCmd coreStatusData ∧
  Reads .controlCountersRead controlCountersReadCmd controlCountersData ∧
  (Does .controlCountersClear controlCountersClearCmd fun s _ => eachN s (List.range 67) fun s k => s.clearCnt 0x0003 k) ∧
  (Does .transportConfig transportConfigCmd fun s r => updDev s fun d =>
    { d with etherType := p16 r 0, cmdMac := pN r 2 6, inband := p64 r 8, mgmtOn := p8 r 16 == 1 }) ∧
  (Does .eventRoute eventRouteCmd fun s r =>
      updDev s fun d => { d with route := p8 r 0, routeLink := p8 r 1, routeMac := pN r 2 6 }) ∧
  (Does .eventMask eventMaskCmd fun s r => updDev s fun d => { d with evMask := p8 r 0 }) ∧
  (Reads .eventRead eventReadCmd fun s r =>
    (((s.ctl.events.filter fun e => p32 r 0 ≤ e.seq).take 31).map EventRec.bytes).flatten) ∧
  (Does .eventAck eventAckCmd fun s r => ackEvents s (p32 r 0)) ∧
  (Reads .readFaultRecord readFaultRecordCmd fun s r =>
      ((((s.integ.record.take 64).drop (p16 r 0)).take (p16 r 2)).map FaultEntry.bytes).flatten)

/-- Authentication and epochs (R56 to R64, R82 to R87, R568, R569, R678): policy, keys, open, commit, abort, status, boot profile.
Where it rests on the model's choices, they are log entries 3, 4, 64, 65, 111, 112 and 122. -/
def Obligations.KeyAndEpochCommands : Prop :=
  (Does .authPolicySet authPolicySetCmd fun s r => updDev s fun d => { d with policy := p8 r 0, active := some (p8 r 1) }) ∧
  (Does .authKeyProgram authKeyProgramCmd fun s r =>
    updDev (setSlot s (p8 r 0) { programmed := true, revoked := false, key := pN r 4 16 }) fun d =>
      { d with active := if d.active.isNone then some (p8 r 0) else d.active }) ∧
  (Does .authKeyRevoke authKeyRevokeCmd fun s r =>
    let k := p8 r 0
    let s1 := setSlot s k { s.fuses.slot k with revoked := true }
    if s.cfg.dev.active = some k then
      updDev s1 fun d => { d with active := if (s.fuses.slot (1 - k)).usable then some (1 - k) else none }
    else s1) ∧
  (Answers .epochOpen epochOpenCmd (fun s _ => (.ok, be 4 ((s.epoch.id + 1) % 2 ^ 32) ++ be 4 (2 * 1024 * 1024))) fun s r =>
    { s with epoch := { s.epoch with
        state := 1, owner := sn r, id := (s.epoch.id + 1) % 2 ^ 32, idle := p32 r 0, staged := [], draft := none } }) ∧
  (Accepts .epochCommit epochCommitCmd fun s r =>
    { s with epoch := { s.epoch with state := 2, timeout := p16 r 4, tag := tagN r,
                                     waiting := (s.epoch.staged.flatMap (·.blocks)).eraseDups } }) ∧
  (Does .epochAbort epochAbortCmd fun s r => endEpoch s 0x0012 (tagN r) 0xFFFFFFFF .epochRolledBack) ∧
  Reads .epochStatus epochStatusCmd epochStatusData ∧
  (Accepts .bootProfileApply bootProfileApplyCmd fun s r =>
    let region := (profileRegion s (p8 r 0)).getD 3
    profileBegins (region - 3) (tagN r) (stageProfile s region))

/-- Overrides and resets (R76 to R80, R550 to R556, R573 to R580). A release of an override that another source enters in the same
keeper cycle does nothing, and what a commit waits for at a port that is then held applies at once (R77, R65). Where it rests on
the model's choices, they are log entries 28, 85, 89 and 125. -/
def Obligations.OverrideAndResetCommands : Prop :=
  (∀ (r : Req) (s : State), Taken safeStateCmd r s →
    let s0 := replied safeStateCmd r s .ok []
    let entered := { s0 with ctl := { s0.ctl with safeAt := some (s0.keeper, sn r) } }
    (p8 r 0 = 1 → s.ctl.safeState = true → exec (.safeState r) s = .next (reachHeld entered)) ∧
    (p8 r 0 = 1 → s.ctl.safeState = false → exec (.safeState r) s = .next (reachHeld (
      let s1 := { entered with ctl := { entered.ctl with safeState := true } }
      overrideChanged (safeLanes (eachN s1 (List.range 128) fun s p => quietPort s p 5)) 0 1))) ∧
    (p8 r 0 ≠ 1 → s.ctl.safeState = true → sameCycle s r s.ctl.safeAt = false → exec (.safeState r) s = .next (reachHeld (
      let s1 := { s0 with ctl := { s0.ctl with safeState := false } }
      overrideChanged (eachN s1 (List.range 128) leaveQuiet) 0 0))) ∧
    (p8 r 0 ≠ 1 → (s.ctl.safeState = false ∨ sameCycle s r s.ctl.safeAt = true) →
      exec (.safeState r) s = .next (reachHeld s0))) ∧
  (∀ (r : Req) (s : State), Taken portQuietCmd r s →
    let s0 := replied portQuietCmd r s .ok []
    let on := (portMask r 4).filter fun p => !(s.port p).quietHold
    let off := (portMask r 4).filter fun p => (s.port p).quietHold && !sameCycle s r (s.port p).quietAt
    let noted := eachN s0 (portMask r 4) fun s p => s.updPort p fun x => { x with quietAt := some (s.keeper, sn r) }
    (p8 r 0 = 1 → exec (.portQuiet r) s = .next (reachHeld (if on.isEmpty then noted else overrideChanged
      (eachN noted on fun s p => quietPort (s.updPort p fun x => { x with quietHold := true }) p 5) 1 1))) ∧
    (p8 r 0 ≠ 1 → exec (.portQuiet r) s = .next (reachHeld (if off.isEmpty then s0 else overrideChanged
      (eachN s0 off fun s p => leaveQuiet (s.updPort p fun x => { x with quietHold := false }) p) 1 0)))) ∧
  (∀ (r : Req) (s : State), Taken domainResetCmd r s → exec (.domainReset r) s =
    .next (askReset (heard r s) (tw r) 3 false (some (waiterOf 0xF003 r, 0)) (some r))) ∧
  (Does .deviceWarmReset deviceWarmResetCmd fun s _ => { s with rst := { s.rst with warmDue := 1 } }) ∧
  (∀ (r : Req) (s : State), Taken resetBlockCmd r s →
    let held := s.rst.jobs.any fun j => j.target == tw r && j.hold
    (p8 r 0 ≠ 3 → exec (.resetBlock r) s = .next (askReset (replied resetBlockCmd r s .accepted []) (tw r) 4 (p8 r 0 == 2)
      (some (waiterOf 0x6001 r, if p8 r 0 = 2 then 1 else 0)) none)) ∧
    (p8 r 0 = 3 → held = true → exec (.resetBlock r) s =
      .next (askRelease (replied resetBlockCmd r s .accepted []) (tw r) (some (waiterOf 0x6001 r, 2)))) ∧
    (p8 r 0 = 3 → held = false → exec (.resetBlock r) s = .next (unrecordHold (replied resetBlockCmd r s .ok []) (tw r)))) ∧
  (∀ (r : Req) (s : State), Taken resetDomainCmd r s →
    let held := s.rst.jobs.any fun j => j.target == tw r && j.hold
    (p8 r 0 ≠ 3 → exec (.resetDomain r) s = .next (askReset (replied resetDomainCmd r s .accepted []) (tw r) 3 (p8 r 0 == 2)
      (some (waiterOf 0x6002 r, if p8 r 0 = 2 then 1 else 0)) none)) ∧
    (p8 r 0 = 3 → held = true → exec (.resetDomain r) s =
      .next (askRelease (replied resetDomainCmd r s .accepted []) (tw r) (some (waiterOf 0x6002 r, 2)))) ∧
    (p8 r 0 = 3 → held = false → exec (.resetDomain r) s = .next (unrecordHold (replied resetDomainCmd r s .ok []) (tw r)))) ∧
  Reads .resetStatus resetStatusCmd resetStatusData ∧
  (Reads .resetCountersRead resetCountersReadCmd fun s _ => s.cblock 0x6010 0 0 0 9) ∧
  (Does .resetCountersClear resetCountersClearCmd fun s _ => s.clearCnt 0x6010 0) ∧
  Reads .bootStatus bootStatusCmd bootStatusData ∧
  (Does .watchdogConfig watchdogConfigCmd fun s r =>
      updDev s fun d => { d with wdOn := p8 r 0 == 1, wdAction := p8 r 1, wdTimeout := p16 r 2 }) ∧
  (Does .firmwareSelect firmwareSelectCmd fun s r =>
      { s with rst := { s.rst with sel := if p8 r 0 = 3 then none else some (p8 r 0 - 1) } })

/-- The integrity chain (R513 to R519). Where it rests on the model's choices, they are log entry 83. -/
def Obligations.IntegrityCommands : Prop :=
  (Does .integrityConfig integrityConfigCmd fun s r =>
      updDev s fun d => { d with thrBuffer := p8 r 0, thrStream := p8 r 1, thrSignal := p8 r 2, thrMeta := p8 r 3,
                                        thrCarry := p8 r 4 }) ∧
  Reads .integrityStatus integrityStatusCmd integrityStatusData ∧
  (Answers .integrityFaultClear integrityFaultClearCmd (fun s r =>
      (.ok, be 2 (clearLatches s (p16 r 0)).integ.latches ++ zeros 2))
    fun s r => clearLatches s (p16 r 0)) ∧
  (Reads .faultLogRead faultLogReadCmd fun s r =>
    ((((List.range (min s.nvm.ringNext 2048)).drop (p16 r 0)).take (p16 r 2)).map (ringEntry s)).flatten) ∧
  (Reads .integrityCountersRead integrityCountersReadCmd fun s _ => s.cblock 0x0905 0 0 0 8) ∧
  (Does .integrityCountersClear integrityCountersClearCmd fun s _ => s.clearCnt 0x0905 0) ∧
  (Does .faultInject faultInjectCmd fun s r =>
    if p8 r 1 = 0 then s
    else { s with integ := { s.integ with
      inject := s.integ.inject ++ [{ point := p8 r 0, target := p32 r 4, count := p8 r 1 }] } })

/-- Line ports and their start-up (R104 to R125, R234 to R253). Where it rests on the model's choices, they are log entries
100, 104, 113 and 117. -/
def Obligations.PortCommands : Prop :=
  (∀ (r : Req) (s : State), Taken portModeSetCmd r s → (atBoundary (heard r s) (ti r) = true →
    exec (.portModeSet r) s = .next (closeWaiter (modeNow (replied portModeSetCmd r s .accepted []) (ti r) r) (waiterOf 0x1001 r)
      (tw r) .ok)) ∧ (atBoundary (heard r s) (ti r) = false →
    exec (.portModeSet r) s = .next { replied portModeSetCmd r s .accepted [] with
      modeJobs := (replied portModeSetCmd r s .accepted []).modeJobs ++ [{ req := r }] })) ∧
  Reads .portModeGet portModeGetCmd portModeData ∧
  (Does .portAdmin portAdminCmd fun s r => eachN s (portMask r 4) fun s p => setAdmin s p (p8 r 0 == 2)) ∧
  Reads .portStatusRead portStatusReadCmd (fun s r => ((portMask r 0).map (portStatusEntry s)).flatten) ∧
  (Reads .portCountersRead portCountersReadCmd fun s r =>
  s.block 0x1010 (tw r) (ti r) 0 ((List.range 18).map fun i =>
    (s.cnt 0x1010 (ti r) i + if i = 16 then upMs s (ti r) else 0) % 2 ^ 64)) ∧
  (Does .portCountersClear portCountersClearCmd fun s r => eachN s (portMask r 0) clearPortCounters) ∧
  Reads .coveStatus coveStatusCmd coveStatusData ∧
  (Does .startConfig startConfigCmd fun s r =>
      s.updPcfg (ti r) fun c => { c with start := { flags := p8 r 0, downshift := p8 r 1, margin := i16 r 2 } }) ∧
  Reads .startStatus startStatusCmd startStatusData ∧
  (Reads .startCountersRead startCountersReadCmd fun s r => s.cblock 0x1303 (tw r) (ti r) 0 12) ∧
  (Does .startCountersClear startCountersClearCmd fun s r => eachN s (portMask r 0) fun s p => s.clearCnt 0x1303 p) ∧
  Reads .relinkStoreRead relinkStoreReadCmd relinkReadData ∧
  (Does .relinkStoreClear relinkStoreClearCmd fun s r => eachN s (portMask r 0) clearRelink) ∧
  (Does .startRestart startRestartCmd startRestartRun)

/-- VS50 and the receive signal processing (R165 to R170, R188 to R216). Where it rests on the model's choices, they are log
entries 50 and 51. -/
def Obligations.Vs50AndDspCommands : Prop :=
  (Does .vs50Config vs50ConfigCmd fun s r =>
      applyVs50 s (ti r) { lpi := p8 r 0, amp := p8 r 1, flags := p8 r 2, degrade := i16 r 4 }) ∧
  Reads .vs50Status vs50StatusCmd vs50StatusData ∧
  (Reads .vs50CountersRead vs50CountersReadCmd fun s r => s.cblock 0x1103 (tw r) (ti r) 0 14) ∧
  (Does .vs50CountersClear vs50CountersClearCmd fun s r => eachN s (portMask r 0) fun s p => s.clearCnt 0x1103 p) ∧
  (Does .vs50OamSend vs50OamSendCmd fun s r => updVs s (ti r) fun v => { v with
    oamQueue := v.oamQueue ++ [{ type := p8 r 0, payload := r.params.drop 4, handle := some (p8 r 1) }] }) ∧
  (Answers .vs50OamRead vs50OamReadCmd (fun s r => (.ok, (((s.port (ti r)).vs.oamRxQueue.take (p16 r 0)).map fun m =>
      be 1 m.type ++ zeros 3 ++ be 8 m.tidemark ++ padTo 12 m.payload).flatten)) fun s r =>
    updVs s (ti r) fun v => { v with oamRxQueue := v.oamRxQueue.drop (p16 r 0) }) ∧
  (Does .dspConfig dspConfigCmd fun s r =>
    updDsp (s.updPcfg (ti r) fun c => { c with dsp := dspOf r }) (ti r) fun d => { d with
      anchor := if (p8 r 0).testBit 0 then d.anchor else none, moving := if (p8 r 0).testBit 1 then d.moving else none }) ∧
  Reads .dspStatus dspStatusCmd dspStatusData ∧
  (Does .bundleGroupSet bundleGroupSetCmd fun s r =>
    let s1 := { s with cfg := { s.cfg with bundles := s.cfg.bundles.set 0 (ti r) (p32 r 0) } }
    eachN s1 (portsOf (coveT (ti r))) fun s p =>
      if (s.port p).st = .quiet ∨ (s.port p).st = .down then applyGroup s p else s) ∧
  (Reads .bundleGroupGet bundleGroupGetCmd fun s r => be 4 (s.cfg.bundles.get 0 (ti r))) ∧
  Reads .xtalkStatus xtalkStatusCmd xtalkData ∧
  (Does .echoWindowSet echoWindowSetCmd fun s r => applyPins s (ti r) (p8 r 0) ((List.range 8).map (pinOf r))) ∧
  (∀ (r : Req) (s : State), Taken anchorControlCmd r s →
    (∀ m, p8 r 0 = 1 → (s.port (ti r)).health.margin = some m → exec (.anchorControl r) s =
      .next (captureAnchor (replied anchorControlCmd r s .ok []) (ti r) m)) ∧
    (p8 r 0 = 2 → exec (.anchorControl r) s = .next (
      let s1 := updDsp (heard r s) (ti r) fun d => { d with revertBy := d.revertBy ++ [r] }
      if streamAbsent s (ti r) then revertNow s1 (ti r) else s1)) ∧
    (p8 r 0 = 3 → exec (.anchorControl r) s = .next (updDsp (replied anchorControlCmd r s .ok []) (ti r) fun d =>
      { d with anchor := none }))) ∧
  (Reads .dspCountersRead dspCountersReadCmd fun s r => s.cblock 0x1210 (tw r) (ti r) 0 10) ∧
  (Does .dspCountersClear dspCountersClearCmd fun s r => eachN s (portMask r 0) fun s p => s.clearCnt 0x1210 p) ∧
  (Reads .tapRead tapReadCmd fun s r =>
    let l := (tapSection s (ti r) (p8 r 0)).2
    ((List.range (p16 r 4)).map fun i => beI 2 (l.getD (p16 r 2 + i) 0)).flatten)

/-- 10BASE-T1S multidrop (R289 to R295). Where it rests on the model's choices, they are log entries 59 and 60. -/
def Obligations.MultidropCommands : Prop :=
  (Does .mdConfig mdConfigCmd fun s r =>
      mdApply s (ti r) { flags := p8 r 0, node := p8 r 1, count := p8 r 2, toTimer := p8 r 3, burst := p8 r 4,
                                burstTimer := p8 r 5, squelch := p16 r 6, holdOff := p16 r 8 }) ∧
  Reads .mdStatus mdStatusCmd mdStatusData ∧
  (Reads .mdCountersRead mdCountersReadCmd fun s r => s.cblock 0x1403 (tw r) (ti r) 0 12) ∧
  (Does .mdCountersClear mdCountersClearCmd fun s r => eachN s (portMask r 0) fun s p => s.clearCnt 0x1403 p) ∧
  (Reads .mdNodeTableRead mdNodeTableReadCmd fun s r =>
      ((List.range (p8 r 1)).map fun i => mdNodeEntry s (ti r) (p8 r 0 + i)).flatten) ∧
  (Does .mdNodeTableClear mdNodeTableClearCmd fun s r =>
    eachN s (portMask r 0) fun s p => updMd s p fun m => { m with nodes := [] })

/-- Link health, Sounding and the cable test (R297 to R339). Where it rests on the model's choices, they are log entries 53 to
58. -/
def Obligations.HealthCommands : Prop :=
  (Does .healthConfig healthConfigCmd fun s r =>
    updHealth (s.updPcfg (ti r) fun c => { c with health := {
      flags := p8 r 0, alarm := i16 r 2, hyst := p16 r 4, drop := i16 r 6, persist := p16 r 8, fec := p32 r 10 } }) (ti r)
      fun h => { h with dropSince := none, fecSince := none }) ∧
  Reads .healthStatus healthStatusCmd healthStatusData ∧
  (Reads .healthCountersRead healthCountersReadCmd fun s r => s.cblock 0x1503 (tw r) (ti r) 0 27) ∧
  (Does .healthCountersClear healthCountersClearCmd fun s r => eachN s (portMask r 0) fun s p => s.clearCnt 0x1503 p) ∧
  (Does .soundingConfig soundingConfigCmd fun s r => s.updPcfg (ti r) fun c => { c with sound := {
    flags := p8 r 0, snaps := p8 r 1, interval := p16 r 2, velocity := p16 r 4, detect := p8 r 6, change := p8 r 7, window := p16 r 8
    confirm := p8 r 10, timeout := p16 r 12 } }) ∧
  (Accepts .soundingRun soundingRunCmd fun s r => startSound s (ti r) ((p8 r 0).testBit 0) (some (waiterOf 0x1511 r))) ∧
  (Reads .soundingResultRead soundingResultReadCmd fun s r => resultData s (s.port (ti r)).health.runStatus (s.port (ti r)).health.result) ∧
  (Reads .soundingProfileRead soundingProfileReadCmd fun s r =>
    ((((((s.port (ti r)).health.result.map (·.profile)).getD []).drop (p16 r 0)).take (p16 r 2)).map fun v =>
      beI 2 (clampTap v)).flatten) ∧
  (Does .soundingBaselineSet soundingBaselineSetCmd fun s r =>
    if p8 r 0 = 1 then setBaseline s (ti r) ((s.port (ti r)).health.result.map baselineOf) else setBaseline s (ti r) none) ∧
  (Reads .soundingBaselineRead soundingBaselineReadCmd fun s r => match s.baselines.get none (ti r) with
      | some b => baselineBytes b
      | none => []) ∧
  (Does .soundingBaselineLoad soundingBaselineLoadCmd fun s r => setBaseline s (ti r) (some (baselineIn r))) ∧
  (Accepts .cableTestRun cableTestRunCmd fun s r =>
    beginCable s (ti r) { flags := p8 r 0, amp := p8 r 1, stage := 0, partner := false, waiter := waiterOf 0x1520 r }) ∧
  (Reads .cableTestResult cableTestResultCmd fun s r => resultData s (s.port (ti r)).health.cableStatus (s.port (ti r)).health.cableResult) ∧
  (Reads .cableTestProfileRead cableTestProfileReadCmd fun s r =>
    ((((((s.port (ti r)).health.cableResult.map (·.profile)).getD []).drop (p16 r 0)).take (p16 r 2)).map fun v =>
      be 2 v.toNat).flatten)

/-- Power modes, Slack and wake (R340 to R365). Where it rests on the model's choices, they are log entries 37, 87 and 100. -/
def Obligations.PowerCommands : Prop :=
  (Does .portPowerConfig portPowerConfigCmd fun s r =>
      applyPower s (ti r) { flags := p8 r 0, delay := p16 r 2, wakeMv := p16 r 4 }) ∧
  (∀ (r : Req) (s : State), Taken portSlackCmd r s →
    let left := (portMask r 4).filter fun p => ((s.port p).st == .slack) != (p8 r 0 == 1)
    (portMask r 4 = [] → exec (.portSlack r) s = .next (replied portSlackCmd r s .ok [])) ∧
    (portMask r 4 ≠ [] → left = [] → exec (.portSlack r) s =
      .next (closeWaiter (replied portSlackCmd r s .accepted []) (waiterOf 0x1602 r) 0 .ok)) ∧
    (left ≠ [] → exec (.portSlack r) s = .next (
      let s1 := updPower (replied portSlackCmd r s .accepted []) fun p =>
        { p with slackJobs := p.slackJobs ++ [{ waiter := waiterOf 0x1602 r, left }] }
      eachN s1 left fun s p => if p8 r 0 = 1 then slackRequest s p 1 else wakePort s p 2))) ∧
  Reads .portPowerStatus portPowerStatusCmd portPowerStatusData ∧
  (Accepts .devicePowerSet devicePowerSetCmd devicePowerSetRun) ∧
  Reads .devicePowerStatus devicePowerStatusCmd devicePowerStatusData ∧
  (Does .wakeConfig wakeConfigCmd fun s r =>
      { s with cfg := { s.cfg with dev := { s.cfg.dev with wakeFlags := p8 r 0, wakePulse := p16 r 2 } } }) ∧
  (Reads .powerCountersRead powerCountersReadCmd fun s r =>
  let p := ti r
  s.block 0x1610 (tw r) p 0 ((List.range 10).map fun i =>
    (s.cnt 0x1610 p i + if i < 7 then 0 else (powerMs s p).getD (i - 7) 0) % 2 ^ 64)) ∧
  (Does .powerCountersClear powerCountersClearCmd fun s r => eachN s (portMask r 0) clearPowerCounters)

/-- Host lanes and host links (R366 to R411). Where it rests on the model's choices, they are log entries 21 to 23. -/
def Obligations.HostLinkCommands : Prop :=
  (Does .hostLinkConfig hostLinkConfigCmd fun s r => setBond s (ti r) ((List.range 8).map (p8 r))) ∧
  (Does .hostLaneConfig hostLaneConfigCmd fun s r =>
      setLaneCfg s (ti r) { s.lcfg (ti r) with flags := p8 r 0, preset := p8 r 1, margin := i16 r 2 }) ∧
  (Does .hostLinkMacConfig hostLinkMacConfigCmd fun s r =>
      { s with cfg := { s.cfg with links := s.cfg.links.set {} (ti r) { maxFrame := p16 r 0, flush := p16 r 2 } } }) ∧
  (Does .hostAdmin hostAdminCmd fun s r => eachN s (laneMask r 4) fun s m => setLaneAdmin s m (p8 r 0 == 2)) ∧
  (Accepts .hostEbb hostEbbCmd fun s r =>
    let ks := linksTouched s (laneMask r 4)
    let act := if p8 r 0 = 1 then ks.filter fun k => (s.link k).st = .up else ks.filter fun k => (s.link k).st = .ebb
    let w := waiterOf 0x2005 r
    if act.isEmpty then closeWaiter s w 0 .ok
    else
      eachN { s with ebbJobs := s.ebbJobs ++ [{ waiter := w, enter := p8 r 0 == 1, left := act }] } act fun s k =>
        if p8 r 0 = 1 then ebbCommand s k else ebbWake s k 1) ∧
  (Does .hostTest hostTestCmd fun s r =>
    if p8 r 0 = 0 then eachN s (laneMask r 4) endLaneTest
    else
      let s1 := eachN s (linksTouched s (laneMask r 4)) fun s k => linkDrop s k 7
      eachN (eachN s1 (laneMask r 4) fun s m => startLaneTest s m (p8 r 0) (p8 r 1)) (linksTouched s (laneMask r 4)) linkRest) ∧
  Reads .hostLaneStatus hostLaneStatusCmd laneStatusData ∧
  Reads .hostLinkStatus hostLinkStatusCmd linkStatusData ∧
  (Reads .hostLaneCountersRead hostLaneCountersReadCmd fun s r => s.cblock 0x2010 (tw r) (ti r) 0 12) ∧
  (Does .hostLaneCountersClear hostLaneCountersClearCmd fun s r => eachN s (laneMask r 0) fun s m => s.clearCnt 0x2010 m) ∧
  (Reads .hostLinkCountersRead hostLinkCountersReadCmd fun s r => s.cblock 0x2012 (tw r) (ti r) 0 20) ∧
  (Does .hostLinkCountersClear hostLinkCountersClearCmd fun s r => eachN s (laneMask r 0) fun s k => s.clearCnt 0x2012 k) ∧
  (Accepts .eyeScanStart eyeScanStartCmd fun s r =>
    if p8 r 9 = 2 then complete (endScan s (ti r) 1) 0x2020 (tagN r) (tw r) .ok
    else s.updLane (ti r) fun x => { x with scan := some {
      eyes := p8 r 0, dwell := p8 r 1, phase0 := i8 r 2, phases := p8 r 3, volt0 := i8 r 4, volts := p8 r 5, pStride := p8 r 6,
      vStride := p8 r 7, target := p8 r 8, status := 2, points := [], waiter := waiterOf 0x2020 r } }) ∧
  (Reads .eyeScanRead eyeScanReadCmd fun s r => match heldScan s (ti r) with
    | none => be 1 0xFF ++ zeros 3 ++ (List.replicate 6 (be 2 0xFF)).flatten
    | some x => be 1 x.status ++ be 1 x.eyes ++ be 2 x.points.length ++ eyeFields x eyeWidth ++ eyeFields x eyeHeight ++
        (((x.points.drop (p16 r 0)).take (p16 r 2)).map (be 4)).flatten)

/-- The switch fabric (R412 to R444). Where it rests on the model's choices, they are log entries 13 and 14. -/
def Obligations.FabricCommands : Prop :=
  (Does .fabricConfig fabricConfigCmd (fun s r =>
      updFabricCfg s fun f => { f with scrub := p8 r 0 == 1, scrubMs := p16 r 2 })) ∧
  (Reads .fabricStatus fabricStatusCmd fun s _ => ((List.range 4).map (sliceEntry s)).flatten) ∧
  (Does .queueConfig queueConfigCmd (fun s r => updFabricCfg s fun f => queueSet f r)) ∧
  (Does .schedulerConfig schedulerConfigCmd (fun s r =>
        let c : SchedCfg := { strict := p8 r 2, weights := (List.range 8).map fun t => p8 r (4 + t) }
        let s1 := updFabricCfg s fun f => { f with scheds := f.scheds.set {} (p16 r 0) c }
        s1.updEgr (p16 r 0) fun x => { x with deficit := List.replicate 8 0, turn := 0 })) ∧
  (Does .shaperConfig shaperConfigCmd (fun s r =>
        let s1 := settleCredit s (p16 r 0)
        let s2 := updFabricCfg s1 fun f => { f with shapers := f.shapers.set 0 (qn (p16 r 0) (p8 r 2)) (p32 r 4) }
        s2.updEgr (p16 r 0) fun x => { x with credit := x.credit.set (p8 r 2) 0 })) ∧
  (Does .cutThroughConfig cutThroughConfigCmd (fun s r =>
      updFabricCfg s fun f => { f with ctInPorts := pN r 0 16, ctInLinks := p64 r 16,
                                                   ctOutPorts := pN r 24 16, ctOutLinks := p64 r 40 })) ∧
  Reads .queueStatus queueStatusCmd (fun s r => ((List.range 8).map (queueEntry s (p16 r 0))).flatten) ∧
  Reads .queueCountersRead queueCountersReadCmd (fun s r => s.cblock 0x3011 (tw r) (qn (p16 r 0) (p8 r 2)) (p32 r 0) 9) ∧
  (Does .queueCountersClear queueCountersClearCmd (fun s r =>
      eachN s (maskList 8 (p8 r 2)) fun s t => clearQueue s (qn (p16 r 0) t))) ∧
  (Reads .sliceCountersRead sliceCountersReadCmd fun s r => s.cblock 0x3013 (tw r) (ti r) 0 8) ∧
  (Does .sliceCountersClear sliceCountersClearCmd fun s r => s.clearCnt 0x3013 (ti r)) ∧
  (∀ (r : Req) (s : State), Taken sliceGateCmd r s →
    (p8 r 0 = 1 → gateAsked s (24 + ti r) = true → exec (.sliceGate r) s = .next (replied sliceGateCmd r s .ok [])) ∧
    (p8 r 0 = 1 → gateAsked s (24 + ti r) = false → exec (.sliceGate r) s = .next (
      let s1 := (heard r s).updSlice (ti r) fun x => { x with stopped := true }
      { s1 with rst := { s1.rst with gating := s1.rst.gating ++ [(ti r, 0x3020, r, false)] } })) ∧
    (p8 r 0 ≠ 1 → exec (.sliceGate r) s = .next (ungateIsland (replied sliceGateCmd r s .ok []) (24 + ti r))))

/-- Streams: the table, destinations, per-stream filtering and FRER (R445 to R465, R470). Where it rests on the model's
choices, they are log entries 11, 12, 15, 16, 79, 114 and 116. -/
def Obligations.StreamCommands : Prop :=
  (Does .streamTableConfig streamTableConfigCmd (fun s r =>
      updStreamCfg s fun c => { c with seed0 := p32 r 0, seed1 := p32 r 4 })) ∧
  (Does .streamEntryWrite streamEntryWriteCmd fun s r =>
    match writeEntry s.strm.excluded s.freeCtr s.cfg.streams (entryOf r) with
    | none => s
    | some (c, m) =>
      (updStrm (updStreamCfg s fun _ => c) fun x =>
        { x with moves := max x.moves m, lastHit := x.lastHit.set 0 (p32 r 44) 0,
                 ecc := x.ecc.filter fun b => ((ofHandle c (p32 r 44)).map fun y => y.1 / 4 != b).getD true }).draw) ∧
  (Does .streamEntryDelete streamEntryDeleteCmd fun s r => match ofHandle s.cfg.streams (p32 r 0) with
      | none => s
      | some (p, _) => updStreamCfg s fun c => { c with table := c.table.set none p none }) ∧
  (Reads .streamEntryRead streamEntryReadCmd fun s r => match ofHandle s.cfg.streams (p32 r 0) with
      | some (_, e) => entryBytes s e
      | none => []) ∧
  (Reads .streamLookup streamLookupCmd fun s r =>
      match if p8 r 0 = 0 then none else lookup s.cfg.streams (p8 r 0) (pN r 4 40) (p16 r 2) with
      | none => be 4 0xFFFFFFFF ++ zeros 4
      | some (p, e) =>
        if p < stash0 then be 4 e.handle ++ be 1 (p / 2048) ++ be 2 (p / 4 % 512) ++ be 1 (p % 4)
        else be 4 e.handle ++ zeros 3 ++ be 1 (4 + p - stash0)) ∧
  (Reads .streamTableStatus streamTableStatusCmd fun s _ =>
  be 4 (entries s.cfg.streams).length ++ be 1 ((entries s.cfg.streams).filter fun x => stash0 ≤ x.1).length ++ zeros 1 ++
    be 2 s.strm.moves ++ be 4 (sat 32 s.strm.failed) ++ be 4 (s.strm.ecc ++ s.strm.excluded).eraseDups.length) ∧
  (Does .destWrite destWriteCmd (fun s r =>
      updStreamCfg s fun c => { c with dests := c.dests.set {} (p16 r 0) { mask := pN r 4 24, tide := p8 r 2 == 1 } })) ∧
  (Does .ingressProfileSet ingressProfileSetCmd (fun s r =>
      updStreamCfg s fun c => { c with profiles := c.profiles.set {} (p16 r 0) (profileOf r) })) ∧
  (Does .qciFilterSet qciFilterSetCmd (fun s r =>
      let f : FilterCfg := { maxSdu := p16 r 2, gate := p16 r 4, meter := p16 r 6, block := p8 r 8 == 1 }
      updStrm (updStreamCfg s fun c => { c with filters := c.filters.set {} (p16 r 0) f }) fun x =>
        { x with blocked := x.blocked.filter (· != p16 r 0) })) ∧
  (Does .qciMeterSet qciMeterSetCmd (fun s r =>
      let m : MeterCfg := { coupling := (p8 r 2).testBit 0, dropYellow := (p8 r 2).testBit 1, allRed := (p8 r 2).testBit 2,
                            cir := p32 r 4, eir := p32 r 8, cbs := p32 r 12, ebs := p32 r 16 }
      let t : MeterRun := { c := m.cbs * tokenUnit, e := m.ebs * tokenUnit, at_ := s.now }
      updStrm (updStreamCfg s fun c => { c with meters := c.meters.set none (p16 r 0) (some m) }) fun x =>
        { x with meters := x.meters.set {} (p16 r 0) t })) ∧
  (Does .qciGateSet qciGateSetCmd (fun s r =>
        let g : SGateCfg := { tb := p8 r 4, on := p8 r 5 == 1, baseS := pN r 6 6, baseNs := p32 r 12, cycle := p32 r 16,
                              list := sgateList r 20 (p16 r 2) }
        updStreamCfg s fun c => { c with gates := c.gates.set none (p16 r 0) (some g) })) ∧
  Reads .qciCountersRead qciCountersReadCmd (fun s r => s.cblock 0x3113 (tw r) (p16 r 0) (p32 r 0) 7) ∧
  (Does .qciCountersClear qciCountersClearCmd fun s r =>
      eachN s ((List.range (p16 r 2)).map (p16 r 0 + ·)) fun s k => s.clearCnt 0x3113 k) ∧
  (Does .frerSeqgenSet frerSeqgenSetCmd (fun s r =>
      if p8 r 2 = 1 then updStrm s fun x => { x with gens := x.gens.set 0 (p16 r 0) 0 } else s)) ∧
  (Does .frerRecoverySet frerRecoverySetCmd (fun s r =>
      updStrm (updStreamCfg s fun c => { c with recs := c.recs.set none (p16 r 0) (some (recOf r)) }) fun x =>
      { x with recs := x.recs.set {} (p16 r 0) {} })) ∧
  Reads .frerCountersRead frerCountersReadCmd (fun s r => s.cblock 0x3122 (tw r) (p16 r 0) (p32 r 0) 8) ∧
  (Does .frerCountersClear frerCountersClearCmd fun s r =>
      eachN s ((List.range (p16 r 2)).map (p16 r 0 + ·)) fun s k => s.clearCnt 0x3122 k) ∧
  Reads .ingressCountersRead ingressCountersReadCmd (fun s r => s.cblock 0x3150 (tw r) (p16 r 0) (p32 r 0) 9) ∧
  (Does .ingressCountersClear ingressCountersClearCmd fun s r =>
      eachN s ((List.range (p16 r 2)).map (p16 r 0 + ·)) fun s k => s.clearCnt 0x3150 k)

/-- Gate control, preemption and time (R466 to R478). Where it rests on the model's choices, they are log entries 72 and 73.
-/
def Obligations.GateAndTimeCommands : Prop :=
  (Does .gclLoad gclLoadCmd fun s r => updGclCfg s (p16 r 0) fun g => { g with
    loaded := (List.range (p16 r 4)).foldl (fun t i =>
      t.set none (p16 r 2 + i) (some (p8 r (8 + 8 * i), p8 r (9 + 8 * i), p32 r (12 + 8 * i)))) g.loaded }) ∧
  (Does .gclSet gclSetCmd fun s r =>
    let s1 := if ccReached s (p16 r 0) then configChange s (p16 r 0) else s
    let t := changeTime (s1.base (p8 r 4) / 4) (pN r 6 6 * 1000000000 + p32 r 12) (p32 r 16)
    updGclCfg s1 (p16 r 0) fun g => { g with
      admin := { tb := p8 r 4, on := p8 r 5 == 1, baseS := pN r 6 6, baseNs := p32 r 12, cycle := p32 r 16,
                 ext := p32 r 20, list := (loadedRun g.loaded).take (p16 r 2) }
      waiting := true, ccS := t / 1000000000, ccNs := t % 1000000000 }) ∧
  (Reads .gclStatus gclStatusCmd (fun s r =>
      let c := s.cfg.streams.gcl.get {} (p16 r 0)
      let g := operOf s (p16 r 0)
      be 1 (b2n g.oper.on + 2 * b2n c.waiting) ++ be 1 g.oper.tb ++ be 2 g.cur ++ be 6 c.ccS ++ be 4 c.ccNs ++
        be 4 g.oper.cycle ++ be 8 g.tooLong ++ zeros 6)) ∧
  (Reads .gclRead gclReadCmd (fun s r => ((((gclOf s r).drop (p16 r 4)).take (p16 r 6)).map fun x =>
      be 1 x.1 ++ be 1 x.2.1 ++ zeros 2 ++ be 4 x.2.2).flatten)) ∧
  (Does .preemptConfig preemptConfigCmd (fun s r =>
      let c : PreemptCfg := { mask := p8 r 2, on := (p8 r 3).testBit 0, noVerify := (p8 r 3).testBit 1, frag := p8 r 4,
                              time := p8 r 5 }
      let s1 := updStreamCfg s fun x => { x with preempt := x.preempt.set {} (p16 r 0) c }
      if portLive s (p16 r 0) then preemptUp s1 (p16 r 0) else s1)) ∧
  (Reads .preemptStatus preemptStatusCmd (fun s r =>
      let x := s.strm.preempt.get {} (p16 r 0)
      be 1 x.verify ++ be 1 (b2n x.active) ++ zeros 6)) ∧
  Reads .preemptCountersRead preemptCountersReadCmd (fun s r => s.cblock 0x3142 (tw r) (p16 r 0) (p32 r 0) 6) ∧
  (Does .preemptCountersClear preemptCountersClearCmd fun s r => eachN s (portMask r 0) fun s p => s.clearCnt 0x3142 p) ∧
  (Reads .timeRead timeReadCmd fun s _ =>
  be 8 s.now ++ ((List.range 4).map fun i => be 8 (s.base i)).flatten ++ be 1 (timeFlags s) ++ zeros 7) ∧
  (Does .timeAdjust timeAdjustCmd fun s r =>
    if p8 r 1 = 1 then setBase (realign s (p8 r 0)) (p8 r 0) { value := p64 r 8, at_ := s.now, rate := (s.strm.bases.getD (p8 r 0) {}).rate }
    else if p8 r 1 = 2 then stepBase s (p8 r 0) (signed 64 (p64 r 8))
    else rateBase s (p8 r 0) (signed 32 (p32 r 4))) ∧
  (Does .gptpConfig gptpConfigCmd (fun s r =>
      let c : GptpCfg := { flags := p8 r 1, domain := p8 r 2, prio1 := p8 r 3, prio2 := p8 r 4, logSync := i8 r 5,
                           logPdelay := i8 r 6 }
      gptpElect (updStreamCfg s fun x => { x with gptp := x.gptp.set {} (p8 r 0) c }) (p8 r 0))) ∧
  (Does .gptpPortConfig gptpPortConfigCmd (fun s r =>
      let c : GptpPortCfg := { role := p8 r 4, forced := p8 r 5 == 1, asym := i16 r 6 }
      gptpElect (updStreamCfg s fun x => { x with gptpPorts := x.gptpPorts.set {} (p8 r 0 * 192 + p16 r 2) c }) (p8 r 0))) ∧
  (Reads .gptpStatus gptpStatusCmd (fun s r =>
      let g := s.strm.gptp.get {} (p8 r 0)
      be 1 g.state ++ be 2 g.slavePos ++ zeros 1 ++ beI 8 g.offset ++ beI 4 g.rate ++ be 8 g.gm ++
        be 4 ((g.syncAt.map s.secsSince).getD 0) ++ zeros 4)) ∧
  (Reads .gptpCountersRead gptpCountersReadCmd (fun s r =>
      let blk := p8 r 0 * 192 + p16 r 2
      s.block 0x3213 0 blk (p32 r 0) ((List.range 5).map (s.cnt 0x3213 blk) ++
        [if p16 r 2 = 0 then s.cnt 0x3213 0 5 else 0]))) ∧
  (Does .ppsConfig ppsConfigCmd (fun s r =>
      updStreamCfg s fun c => { c with pps := { flags := p8 r 0, tb := p8 r 1, period := p16 r 2, width := p32 r 4 } })) ∧
  (Reads .ppsInRead ppsInReadCmd fun s _ => match s.strm.edge with
    | none => zeros 48
    | some e => be 4 e.seq ++ be 4 e.valid ++ be 8 e.ticker ++ (e.bases.map (be 8)).flatten)

/-- The Tide Table (R479 to R502). Where it rests on the model's choices, they are log entries 74, 75 and 115. -/
def Obligations.TideTableCommands : Prop :=
  (Does .ttSourceBind ttSourceBindCmd fun s r => updTideCfg s fun c =>
      { c with binds := c.binds.set none (p32 r 0) (if p8 r 7 = 1 then some (p16 r 4, p8 r 6) else none) }) ∧
  (Does .ttLayoutSet ttLayoutSetCmd (fun s r =>
      let l := ttLayoutOf r
      if s.cfg.tide.layouts.get none (p16 r 0) = some l then s
      else
        let s1 := updTideCfg s fun c => { c with layouts := c.layouts.set none (p16 r 0) (some l) }
        let s2 := updTide s1 fun t => { t with layouts := t.layouts.set {} (p16 r 0) {} }
        (defsOf s.cfg.tide (p16 r 0)).foldl (fun s d => resetSig s d.signal) s2)) ∧
  (Does .ttLayoutDelete ttLayoutDeleteCmd fun s r =>
    let l := p16 r 0
    let s1 := if (s.cfg.tide.layouts.get none l).isSome then
      (defsOf s.cfg.tide l).foldl (fun s d => resetSig s d.signal) s else s
    let s2 := updTideCfg s1 fun c => { c with
      layouts := c.layouts.set none l none, composes := c.composes.set none l none, templates := c.templates.set [] l []
      defs := c.defs.dropRange (l * 64) (l * 64 + 64) }
    updTide s2 fun t => { t with layouts := t.layouts.set {} l {}, composes := t.composes.set {} l {} }) ∧
  (Does .ttSignalDefine ttSignalDefineCmd fun s r => (defsIn r).foldl (fun s x =>
    let o := s.cfg.tide.defs.get none x.1
    if o = some x.2 then s
    else
      let s1 := updTideCfg s fun c => { c with defs := c.defs.set none x.1 (some x.2) }
      if (s.cfg.tide.layouts.get none (p16 r 0)).isSome then (o.toList.map (·.signal) ++ [x.2.signal]).foldl resetSig s1
      else s1) s) ∧
  (Does .ttComposeSet ttComposeSetCmd (fun s r =>
      updTideCfg s fun t => { t with composes := t.composes.set none (p16 r 0) (some (composeOf r)) })) ∧
  (Does .ttComposeTemplate ttComposeTemplateCmd fun s r => updTideCfg s fun c =>
    let o := c.templates.get [] (p16 r 0)
    let n := patch (padTo (max o.length (p16 r 2 + p16 r 4)) o) (p16 r 2) (r.params.drop 8)
    { c with templates := c.templates.set [] (p16 r 0) n }) ∧
  (Does .ttDigestRouteSet ttDigestRouteSetCmd (fun s r =>
      let c : DigestCfg := { on := p8 r 1 == 1, cls := p8 r 2, link := p8 r 3, etherType := p16 r 4, da := pN r 6 6,
                             maxLen := p16 r 12, flush := p16 r 14 }
      let s1 := updTideCfg s fun t => { t with routes := t.routes.set {} (p8 r 0) c }
      if c.on then s1 else updRoute s1 (p8 r 0) fun x => { x with recs := [] })) ∧
  Reads .ttSignalRead ttSignalReadCmd (fun s r => ((List.range (p16 r 4)).map fun i => sigEntry s (p32 r 0 + i)).flatten) ∧
  (Does .ttSignalWrite ttSignalWriteCmd fun s r =>
    let s1 := (writesIn r).foldl (fun s x => updSig s x.1 fun o =>
      { o with value := x.2, tm := s.tidemark, count := (o.count + 1) % 2 ^ 64, since := s.now,
               state := 65 + 16 * b2n !s.timeValid + 32 * b2n (s.stest.sigOut.contains x.1) }) s
    (changedComposes s s1).foldl (fun s l => composeTrigger s 1 l) s1) ∧
  (Reads .ttLayoutStatus ttLayoutStatusCmd (fun s r =>
      let x := s.tide.layouts.get {} (p16 r 0)
      let rx := (s.cfg.tide.layouts.get none (p16 r 0)).isSome
      let tx := (s.cfg.tide.composes.get none (p16 r 0)).isSome
      be 1 (if rx then 1 else if tx then 2 else 0) ++ be 1 x.check ++ be 1 (x.alive.getD 0) ++ zeros 5 ++ be 8 x.committed ++
        be 8 x.fails ++ be 8 (if tx then (s.tide.composes.get {} (p16 r 0)).sent else x.dups))) ∧
  (Reads .ttStatus ttStatusCmd fun s _ =>
  let c := s.cfg.tide
  be 2 (c.layouts.length + c.composes.length) ++ be 2 c.binds.length ++
    be 4 (c.defs.filter fun x => (c.layouts.get none (x.1 / 64)).isSome).length ++ be 2 s.tide.full ++
    be 2 (maskOf ((s.tide.routes.filter fun x => x.2.lost != 0).map (·.1))) ++ zeros 4) ∧
  (Does .ttComposeSend ttComposeSendCmd fun s r => composeTrigger s 2 (p16 r 0)) ∧
  (Reads .ttCountersRead ttCountersReadCmd fun s r =>
  if ti r < 16 then s.cblock 0x4020 (tw r) (ti r) 0 21
  else s.block 0x4020 (tw r) 16 0 ((List.range 21).map fun i => ((List.range 16).map fun e => s.cnt 0x4020 e i).sum % 2 ^ 64)) ∧
  (Does .ttCountersClear ttCountersClearCmd fun s r =>
  if ti r < 16 then s.clearCnt 0x4020 (ti r) else eachN s (List.range 17) fun s e => s.clearCnt 0x4020 e)

/-- Clocks, operating points and calibration (R520 to R547, R581 to R594). Where it rests on the model's choices, they are log
entries 25 and 38. -/
def Obligations.ClockAndCalibrationCommands : Prop :=
  Reads .clockStatus clockStatusCmd clockStatusData ∧
  (Does .dvfsConfig dvfsConfigCmd fun s r =>
      dvfsRestart (updDev s fun d => { d with dvfsMode := p8 r 0, dvfsPoint := p8 r 1 })) ∧
  (Does .avsConfig avsConfigCmd fun s r =>
      updClk (updDev s fun d => { d with avsAddr := p8 r 0, avsFlags := p8 r 1, avsPage := p8 r 2 })
    fun c => { c with pageDue := p8 r 2 != 0xFF }) ∧
  (∀ (r : Req) (s : State), Taken islandGateCmd r s →
    (p8 r 0 = 1 → gateAsked s (ti r) = true → exec (.islandGate r) s = .next (replied islandGateCmd r s .ok [])) ∧
    (p8 r 0 = 1 → gateAsked s (ti r) = false → ¬(24 ≤ ti r ∧ ti r < 28) → exec (.islandGate r) s =
      .next (updClk (replied islandGateCmd r s .ok []) fun c => { c with gateReq := setBit c.gateReq (ti r) })) ∧
    (p8 r 0 = 1 → gateAsked s (ti r) = false → 24 ≤ ti r ∧ ti r < 28 → exec (.islandGate r) s = .next (
      let s1 := (heard r s).updSlice (ti r - 24) fun x => { x with stopped := true }
      { s1 with rst := { s1.rst with gating := s1.rst.gating ++ [(ti r - 24, 0x5005, r, false)] } })) ∧
    (p8 r 0 ≠ 1 → exec (.islandGate r) s = .next (ungateIsland (replied islandGateCmd r s .ok []) (ti r)))) ∧
  (Does .clockFlagsClear clockFlagsClearCmd fun s r => updClk s fun c => { c with
    clkFail := minusBits c.clkFail (minusBits (p32 r 0) (failingIslands s)), forced := minusBits c.forced (p32 r 4) }) ∧
  (Reads .clockCountersRead clockCountersReadCmd fun s _ =>
  s.block 0x5010 0 0 0 ((List.range 6).map (s.cnt 0x5010 0) ++ [timeAtMs s 1, timeAtMs s 2, timeAtMs s 3])) ∧
  (Does .clockCountersClear clockCountersClearCmd fun s _ =>
  updClk (s.clearCnt 0x5010 0) fun c => { c with timeAt := [], pointAt := s.now }) ∧
  (Does .calConfig calConfigCmd fun s r =>
      { s with cfg := { s.cfg with dev := { s.cfg.dev with calMode := p8 r 0, calDelta := p8 r 1, calFlags := p8 r 2 } } }) ∧
  (Accepts .calRun calRunCmd fun s r =>
    let w := waiterOf 0x7002 r
    if (calBlocks r).isEmpty then closeWaiter s w 0 .ok
    else
      let s1 := eachN s (linksTouched s (laneMask r 16)) fun s k => linkDrop s k 7
      let s2 := eachN s1 (calBlocks r) calEnter
      { s2 with calib := { s2.calib with jobs := s2.calib.jobs ++ [{ waiter := w, left := calBlocks r, status := 0 }] } }) ∧
  Reads .calStatus calStatusCmd calStatusData ∧
  (Accepts .calStore calStoreCmd fun s r => beginStore s (some (waiterOf 0x7004 r))) ∧
  (Reads .calCountersRead calCountersReadCmd fun s r =>
  s.cblock 0x7005 (tw r) (if tgtDom (tw r) = 1 then ti r else 128 + ti r) 0 8) ∧
  (Does .calCountersClear calCountersClearCmd fun s r => eachN s (calBlocks r) fun s b => s.clearCnt 0x7005 b)

/-- The MRAM (R595 to R606). A false flag says that the words read back as written, a true one that they do not. Where it
rests on the model's choices, they are log entries 20 and 84. -/
def Obligations.NvmCommands : Prop :=
  Reads .nvmSlotStatus nvmSlotStatusCmd slotStatusData ∧
  (Reads .nvmRead nvmReadCmd fun s r => s.regionRead (ti r) (p32 r 0) (p16 r 4)) ∧
  (Does (.nvmWriteBegin · false) (nvmWriteBeginCmd false) fun s r =>
    let s1 := eraseSlot s (ti r)
    { s1 with nvm := { s1.nvm with session := some { region := ti r, src := sn r, len := p32 r 0, closing := none } } }) ∧
  (Answers (.nvmWriteBegin · true) (nvmWriteBeginCmd true) (fun _ _ => (.nvmFail, [])) fun s r =>
    verifyFail (eraseSlot s (ti r))) ∧
  (Does (.nvmWrite · false) (nvmWriteCmd false) fun s r => s.regionWrite (ti r) (32 + p32 r 0) (r.params.drop 8)) ∧
  (Answers (.nvmWrite · true) (nvmWriteCmd true) (fun _ _ => (.nvmFail, [])) fun s r =>
    verifyFail (s.regionWrite (ti r) (32 + p32 r 0) (r.params.drop 8))) ∧
  (Accepts .nvmWriteEnd nvmWriteEndCmd fun s r =>
    { s with nvm := { s.nvm with session := s.nvm.session.map fun x => { x with closing := some (tagN r, p32 r 0) } } }) ∧
  (Does .nvmInvalidate nvmInvalidateCmd fun s r => eraseSlot s (ti r)) ∧
  (Reads .nvmCountersRead nvmCountersReadCmd fun s _ => s.cblock 0x7016 0 0 0 4) ∧
  (Does .nvmCountersClear nvmCountersClearCmd fun s _ => s.clearCnt 0x7016 0)

/-- Self-test, repair, loopbacks and test patterns (R607 to R634). Where it rests on the model's choices, they are log entries
35, 36, 40, 41, 80 and 88. -/
def Obligations.SelfTestCommands : Prop :=
  (∀ (pre : Precond) (r : Req) (s : State), Taken (selftestRunCmd pre) r s →
    (precondFail s (testIsland (tw r)) pre = none → exec (.selftestRun r pre) s = .next (
      let s1 := setTest (replied (selftestRunCmd pre) r s .accepted []) (tw r) (some {
        kind := p8 r 0, flags := p8 r 1, stage := 1, completed := 0, forced := false, waiter := waiterOf 0x8001 r, ended := none })
      if tgtDom (tw r) = 7 then s1.updSlice (ti r) fun x => { x with stopped := true } else s1)) ∧
    (∀ cause d, precondFail s (testIsland (tw r)) pre = some (cause, d) → exec (.selftestRun r pre) s = .next (
      let s1 := replied (selftestRunCmd pre) r s .bistRefused d
      { s1 with stest := { s1.stest with refusal := s1.stest.refusal.set 0 (tw r) cause } }))) ∧
  Reads .selftestStatus selftestStatusCmd selftestStatusData ∧
  (Does .selftestAbort selftestAbortCmd fun s r => markTest s (tw r) 6) ∧
  (Reads .selftestResultRead selftestResultReadCmd (fun s r =>
      let x := s.stest.results.get {} (tw r * 4 + p8 r 0)
      resultBytes x ++ ((x.entries.drop (p8 r 1)).take (p16 r 2)).flatten)) ∧
  (Reads .repairStatus repairStatusCmd fun s r => ((sliceBanks (ti r)).map fun b =>
  let x := s.stest.banks.get {} b
  be 1 (s.fuses.repair.get [] b).length ++ be 1 x.soft.length ++ be 1 x.retired.length ++
    be 1 (b2n x.spareFailed + 2 * b2n (!(unfused s b).isEmpty))).flatten) ∧
  (∀ (pre : Precond) (r : Req) (s : State), Taken (repairFuseCmd pre) r s →
    (p32 r 0 = 0 → exec (.repairFuse r pre) s = .next (replied (repairFuseCmd pre) r s .ok [])) ∧
    (p32 r 0 ≠ 0 → exec (.repairFuse r pre) s = .next (
      let s1 := replied (repairFuseCmd pre) r s .accepted []
      { s1 with stest := { s1.stest with fuseJob := some (ti r, p32 r 0, waiterOf 0x8011 r) } }))) ∧
  (Does .portLoopback portLoopbackCmd fun s r =>
    let p := ti r
    if p8 r 0 = 0 then
      if (s.port p).st = .test then
        (leaveTest s p).updPort p fun x => { x with breaking := (s.port p).test.action == 4 && x.st == .down }
      else s
    else startLoop s p { action := p8 r 0, generator := p8 r 1, mode := p8 r 2, length := p16 r 4, count := p32 r 8 }) ∧
  (Does .portTestMode portTestModeCmd fun s r =>
    let p := ti r
    if p8 r 0 = 0 then (if (s.port p).st = .test then leaveTest s p else s)
    else startLoop s p { action := 5, mode := p8 r 1, testMode := p8 r 2, checker := p8 r 3 == 1, amp := p8 r 4, ffe := p8 r 5 }) ∧
  (Reads .portTestCountersRead portTestCountersReadCmd fun s r => s.cblock 0x8022 (tw r) (ti r) 0 8) ∧
  (Does .portTestCountersClear portTestCountersClearCmd fun s r => eachN s (portMask r 0) fun s p => s.clearCnt 0x8022 p)

/-! ### Events of the device and of its surroundings: the next state of each where its condition holds -/

/-- Power, resets and the start-up (R548 to R572, R579). A cold or pin reset of the reach of a start in progress is recorded and
takes effect when that start reaches READY or Headland state 4, if a firmware image runs (R552). Where it rests on the model's
choices, they are log entries 29, 30, 34, 39, 68, 90 and 146. -/
def Obligations.StartUpEvents : Prop :=
  ∀ s : State,
    exec .powerOnRelease s = .next { s with rst := { s.rst with powered := true } } ∧
    (∀ por, (por = true ∨ startHolds s 0 = false) → exec (.coldResetAssert por) s = .next (
      let s1 := deviceReset s 0
      { s1 with rst := { s1.rst with powered := s.rst.powered && !por, pgood := s.rst.pgood && por } })) ∧
    (startHolds s 0 = true → exec (.coldResetAssert false) s = .next
      { s with rst := { s.rst with due := some 0, pgood := false } }) ∧
    (s.rst.powered = true → ¬(s.rst.asserted = true ∧ s.rst.reach = 0) → startHolds s 1 = false → exec .pinResetAssert s = .next (
      let s1 := deviceReset s 1
      { s1 with rst := { s1.rst with resetN := false } })) ∧
    (s.rst.powered = true → startHolds s 1 = true → exec .pinResetAssert s = .next
      { s with rst := { s.rst with due := some (min 1 (s.rst.due.getD 1)), resetN := false } }) ∧
    (∀ b, s.rst.powered = true → s.rst.asserted = true → s.rst.reach = 0 →
      exec (.coldStart b) s = .next (beginBoot s 0 b.toNat)) ∧
    (∀ b, s.rst.asserted = false → s.rst.due.isSome = true → exec (.coldStart b) s = .next
      { s with rst := { s.rst with pgood := true, resetN := true, bootselPins := b.toNat } }) ∧
    (∀ b, s.rst.powered = true → s.rst.asserted = true → s.rst.reach = 1 →
      exec (.pinStart b) s = .next ((beginBoot s 1 b.toNat).bump 0x6010 0 0)) ∧
    (s.rst.warmDue ≠ 0 → replyWaits s 0xF004 = false → s.rst.powered = true → s.rst.asserted = false → (s.rst.starting = false ∨ 3 ≤ s.rst.headland) →
      exec .warmResetAssert s = .next (deviceReset s 2)) ∧
    (s.rst.asserted = true → s.rst.reach = 2 → exec .warmStart s = .next (
      let s1 := repairFromLog ((beginBoot s 2 s.rst.bootsel).bump 0x6010 0 1)
      updClk { s1 with rst := { s1.rst with calDone := true } } fun c => { c with pmStage := 1 })) ∧
    (s.rst.starting = true → s.rst.asserted = false → s.rst.fusesLoaded = false → exec .fuseLoadDone s = .next (
      updClk { s with rst := { s.rst with fusesLoaded := true } } fun c => { c with pmStage := 1 })) ∧
    (∀ (a b : Bool) (v : BitVec 32) (slot : Nat), s.ctl.feReady = true → s.rst.fwChecked = false → s.rst.headland = 0 →
      s.rst.starting = true → chosenSlot s = some slot → imagePasses s slot a = true →
      exec (.firmwareSignatureDone a b v) s = .next (runImage s slot 0 v.toNat)) ∧
    (∀ j : ResetJob, resetJob s 1 = some j → j.phase = 1 → exec .headlandResetRelease s = .next (
      let s1 := updJobs (s.bump 0x6010 0 2) (fun k => k.target == 1) fun k => { k with phase := 2, strongest := 3 }
      scanSlots { s1 with rst := { s1.rst with
        startAt := s.now, headland := 0, fwChecked := false, boot := { kind := 3, profResult := 5, cal := 2 } } })) ∧
    (s.rst.headland = 1 → s.rst.starting = true → exec .headlandReady s = .next (startReady s)) ∧
    (∀ j : ResetJob, s.rst.headland = 1 → s.rst.starting = false → resetJob s 1 = some j → j.phase = 2 →
      exec .headlandReady s = .next (endEpisode (raisePoint (flushOwed (headlandUp s 3))) 1)) ∧
    (s.rst.headland = 2 → s.cfg.dev.wdOn = true → exec .watchdogExpiry s = .next (watchdogExpired s)) ∧
    (s.rst.headland = 1 → s.cfg.dev.wdOn = true → exec .startupTimerExpiry s = .next (watchdogExpired s)) ∧
    (∀ (t : BitVec 32) (j : ResetJob), resetJob s t.toNat = some j → j.phase = 2 → t ≠ 1 →
      exec (.resetStartupDone t) s = .next (endEpisode s t.toNat))

/-- The mailbox, the event route, the epoch and its commit (R39, R40, R60 to R64, R69, R683). A commit that has failed returns each
applied block at that block's next boundary (R62). Where it rests on the model's
choices, they are log entries 64, 66 and 112. -/
def Obligations.ControlEvents : Prop :=
  ∀ s : State,
    exec .mbxDoorbellRelease s = .next { s with ctl := { s.ctl with spiQueue := s.ctl.spiQueue.drop 1 } } ∧
    (∀ a bs, s.ctl.reqBusy = true → exec (.requestWindowWrite a bs) s = .next (s.bump 0x0003 0 6)) ∧
    (∀ (a : BitVec 11) (bs : List Byte), s.ctl.reqBusy = false → exec (.requestWindowWrite a bs) s =
      .next { s with ctl := { s.ctl with window := windowWrite s.ctl.window a.toNat bs } }) ∧
    (s.ctl.feReady = true → routeReady s = true → unsent s ≠ [] → exec .eventNotify s = .next (notifyEvents s)) ∧
    (∀ up, exec (.managementLaneLinkChange up) s = .next { s with ctl := { s.ctl with mgmtUp := up } }) ∧
    (s.epoch.state = 1 → s.epoch.owner ≠ 0xFE →
      exec .epochIdleTimeout s = .next (endEpoch s 0 0 0xFFFFFFFF .epochRolledBack)) ∧
    (s.epoch.state = 2 → exec .commitPrepareDone s = .next (prepared s appliesNow)) ∧
    (∀ b : BitVec 32, boundaryOpen s b.toNat = true → modeJobsAt s b.toNat = [] → s.epoch.state = 3 → s.epoch.failing = none →
      s.epoch.waiting.contains b.toNat = true →
      exec (.commitBoundaryApply b) s = .next (reach s [b.toNat] appliesNow)) ∧
    (∀ b : BitVec 32, boundaryOpen s b.toNat = true → modeJobsAt s b.toNat = [] → s.epoch.state = 3 → s.epoch.failing ≠ none →
      s.epoch.applied.contains b.toNat = true → exec (.commitBoundaryApply b) s = .next (returnBlocks s [b.toNat])) ∧
    (∀ b : BitVec 32, boundaryOpen s b.toNat = true → modeJobsAt s b.toNat ≠ [] →
      exec (.commitBoundaryApply b) s = .next (atCommitBoundary
        (endModeJobs ((modeJobsAt s b.toNat).foldl (fun s j => modeNow s (tgtNum b.toNat) j.req) s) b.toNat .ok) b.toNat)) ∧
    (let s1 := reachFree s appliesNow
     2 ≤ s1.epoch.state → s1.epoch.failing = none →
      exec (.commitTimeout none) s = .next (rollback s1 (s1.epoch.waiting.headD 0xFFFFFFFF) appliesNow)) ∧
    (∀ p : PortId, exec (.commitTimeout (some p)) s = .next (endModeJobs (reachFree s appliesNow) (portT p.val) .epochRolledBack))

/-- References, PLLs, islands, the PMBus sequencer and operating points (R521 to R543). Where it rests on the model's choices,
they are log entries 31, 32 and 38. -/
def Obligations.ClockEvents : Prop :=
  ∀ s : State,
    (∀ d, s.rst.asserted = false → s.rst.fusesLoaded = true → s.clk.pmStage = 0 → exec (.pmbusWriteDone true d) s =
      .next (updClk s fun c => { c with pmStage := 1, pmTries := 0 })) ∧
    (∀ d : BitVec 8, s.rst.asserted = false → s.rst.fusesLoaded = true → s.clk.pmStage = 1 → bits d.toNat 7 5 = 0 →
      exec (.pmbusWriteDone true d) s = .next (updClk s fun c => { c with pmStage := 2, pmTries := 0, voutMode := d.toNat })) ∧
    (∀ d : BitVec 8, s.rst.asserted = false → s.rst.fusesLoaded = true → s.clk.pmStage = 1 → bits d.toNat 7 5 ≠ 0 →
      exec (.pmbusWriteDone true d) s = .next (startHalt s 3)) ∧
    (∀ d, s.rst.asserted = false → s.rst.fusesLoaded = true → s.clk.pmStage = 2 → exec (.pmbusWriteDone true d) s =
      .next (updClk s fun c => { c with pmStage := 3 })) ∧
    (∀ d, s.rst.asserted = false → s.rst.fusesLoaded = true → s.clk.pmStage = 2 →
      exec (.pmbusWriteDone false d) s = .next (startRetry s 1 2 true)) ∧
    (∀ (mv : BitVec 16), s.clk.pmStage = 3 → settles (pointTarget s 3) mv.toNat true true = true →
      exec (.dvfsSettled mv) s = .next (dvfsGo (tryFeReady (updClk (setRail s 0 mv.toNat) fun c =>
        { c with pmStage := 4, startDone := true, startHalt := false, settledOnce := true, vTarget := pointTarget s 3 })))) ∧
    (∀ (mv : BitVec 16) (t : Trans), s.clk.pmStage ≠ 3 → s.clk.trans = some t → t.stage = 1 → t.fromPt < t.toPt →
      settles (pointTarget s t.toPt) mv.toNat false true = true →
      exec (.dvfsSettled mv) s = .next (
        let s2 := updClk (setRail s 0 mv.toNat) fun c =>
          { c with trans := none, settledOnce := true, vTarget := pointTarget s t.toPt }
        dvfsGo (raise (s2.bump 0x5010 0 3) 0x5004 0 0
          (be 1 t.fromPt ++ be 1 t.toPt ++ be 2 (sat 16 ((s.now - t.startedAt) / 4000)) ++ be 2 mv.toNat)))) ∧
    (∀ mv : BitVec 16, s.clk.pmStage = 3 →
      exec (.dvfsSettleTimeout mv) s = .next (startRetry (setRail s 0 mv.toNat) 2 2 true)) ∧
    (∀ (mv : BitVec 16) (t : Trans), s.clk.pmStage ≠ 3 → s.clk.trans = some t → t.stage = 1 →
      exec (.dvfsSettleTimeout mv) s = .next (transRetry (setRail s 0 mv.toNat) t 2)) ∧
    (s.cfg.dev.dvfsMode ≠ 1 → exec .loadWindowEnd s = .next (
      let fits := s.clk.point < 3 ∧ demandFits 8 (s.clk.point + 1) (greatest s 0 4) (greatest s 4 4) (greatest s 8 8)
      { s with fabric := { s.fabric with fitRun := min (if fits then s.fabric.fitRun + 1 else 0) 100, load := [] } })) ∧
    (s.cfg.dev.dvfsMode = 1 → s.power.mode ≠ 3 → s.power.transition ≠ 2 → s.rst.headland ≠ 0 →
      demandFits 9 s.clk.point (greatest s 0 4) (greatest s 4 4) (greatest s 8 8) = false → s.clk.point = 3 →
      exec .loadWindowEnd s = .next (dvfsGo (updClk { s with fabric := { s.fabric with fitRun := 0, load := [] } } fun c =>
          { c with stepUp := decide (dvfsCeil s < 3) }))) ∧
    (∀ i k n, k ≤ i → i < k + n → s.fabric.load.get 0 i ≤ greatest s k n) ∧
    (∀ (c : Fin 29) (st : Bool), s.rst.powered = true → clockRuns s c.val = true → c.val ≠ 24 → c.val ≠ 25 → c.val ≠ 27 →
      exec (.clockFail c st) s = .next (clockLoss
        (raise ((markFailed s c.val).bump 0x5010 0 0) 0x5001 2 0 (be 1 (clockCode c.val) ++ be 1 (b2n st))) c.val)) ∧
    (∀ (c : Fin 29) (st : Bool), s.rst.powered = true → clockRuns s c.val = true → (c.val = 24 ∨ c.val = 25 ∨ c.val = 27) →
      exec (.clockFail c st) s = .next (clockLoss (safetyFault (refPresent
        (raise ((markFailed s c.val).bump 0x5010 0 0) 0x5001 2 0 (be 1 (clockCode c.val) ++ be 1 (b2n st))))
        6 0 (be 1 (clockCode c.val))) c.val)) ∧
    (∀ f : BitVec 16, s.rst.powered = true → s.rst.asserted = false → (s.clk.lref = 0 ∨ s.clk.lref = 3) →
      exec (.lrefStable f) s = .next (refPresent (updClk s fun k =>
        { k with lref := 1, keeperFreq := f.toNat, failed := clrBit k.failed 27 }))) ∧
    (s.clk.lref = 0 → s.rst.asserted = false → s.rst.starting = true → exec .lrefStartTimeout s = .next (
      let s1 := updClk s fun k => { k with
        lref := 3, failed := setBit k.failed 27, clkFail := k.clkFail ||| maskOf (clockIslands 27)
        onKeeper := minusBits k.onKeeper (maskOf (clockIslands 27)), suspended := true }
      tryFeReady (eachN (safetyFault (refPresent s1) 6 0 (be 1 0xFD)) (List.range 128) leaveQuiet))) ∧
    (s.rst.powered = true → s.rst.asserted = false → s.clk.href = 0 →
      exec .hrefPresent s = .next (eachN (updClk s fun k => { k with href := 1 }) (List.range 64) leaveQuietLane)) ∧
    (∀ c : Fin 27, c.val < 16 → s.rst.powered = true → s.rst.asserted = false → s.clk.lref = 1 →
      s.clk.locked.testBit c.val = false → exec (.pllLock c) s = .next (islandsBack (updClk s fun k =>
        { k with locked := setBit k.locked c.val, suspended := k.suspended && c.val != 24 }) c.val)) ∧
    (s.rst.powered = true → s.rst.asserted = false → s.rst.starting = true → s.clk.startDone = true → s.clk.lref = 1 →
      s.clk.locked.testBit 24 = false → exec (.pllLock 24) s = .next (tryFeReady (islandsBack (updClk s fun k =>
        { k with locked := setBit k.locked 24, suspended := k.suspended && false }) 24))) ∧
    (∀ c : Fin 30, s.clk.failed.testBit c.val = true → c.val ≠ 27 → exec (.clockReturn c) s = .next (refPresent
      (raise (updClk s fun k => { k with
        failed := clrBit k.failed c.val, lref := k.lref, href := if c.val = 28 then 1 else k.href })
        0x5002 0 0 (be 1 (clockCode c.val))))) ∧
    (∀ (i : Fin 31) (t : Nat), s.rst.powered = true → s.rst.asserted = false → s.clk.locked.testBit (pllOf i.val) = false →
      s.clk.onKeeper.testBit i.val = false → keeperTarget i.val = some t → exec (.clockForcedSwitch i) s = .next (
        let s1 := updClk s fun k => { k with onKeeper := setBit k.onKeeper i.val, forced := setBit k.forced i.val }
        let s2 := raise (s1.bump 0x5010 0 1) 0x5003 1 (islandT i.val) (be 1 i.val ++ be 1 1)
        keeperHold ((s2.stest.running.filter fun e => islandOf e.1 == some i.val).foldl (fun s e => markTest s e.1 5) s2) t)) ∧
    (∀ f : BitVec 16, s.clk.lref = 1 → within f.toNat 9000 11000 = false → s.clk.failed.testBit 29 = false →
      exec (.keeperFreqFault f) s = .next (raise ((updClk s fun k => { k with
        keeperFreq := f.toNat, clkFail := setBit k.clkFail 31, failed := setBit k.failed 29 }).bump 0x5010 0 0)
        0x5001 2 0 (be 1 31 ++ be 1 0))) ∧
    (∀ i : Fin 31, s.clk.gateReq.testBit i.val = true → s.clk.trans = none → s.power.transition = 0 → i.val < 24 →
      gateLost s i.val = false → exec (.islandGateEffect i) s = .next (parkGated (updClk s fun c => { c with
        gateReq := clrBit c.gateReq i.val, gated := setBit c.gated i.val }))) ∧
    (∀ i : Fin 31, s.clk.gateReq.testBit i.val = true → s.clk.trans = none → s.power.transition = 0 → gateLost s i.val = true →
      exec (.islandGateEffect i) s = .next (gateGiveUp s i.val)) ∧
    (∀ i : Fin 31, exec (.bridgesOpen i) s = .next (updClk s fun c => { c with shut := clrBit c.shut i.val }))

/-- Undertow's runs, triggers, measurements and steps, the calibration at a start, and what ends an NVM sequence (R581 to
R606). Where it rests on the model's choices, they are log entries 20, 25 and 26. -/
def Obligations.CalibrationAndNvmEvents : Prop :=
  ∀ s : State,
    (∀ b : CalBlock, s.cfg.dev.calMode = 1 → exec (.undertowRunStart b) s = .next (beginRun s b.val)) ∧
    (∀ (k : Fin 24) (v : Int), s.cfg.dev.calMode = 2 → 4 * s.cfg.dev.calDelta ≤ (v - s.calib.refs.get 0 k.val).natAbs →
      exec (.undertowTempTrigger k v) s = .next (eachN
        { s with calib := { s.calib with sensors := s.calib.sensors.set 0 k.val v } } (sensorBlocks k.val) beginRun)) ∧
    (∀ (k : Fin 24) (v : Int), (s.cfg.dev.calMode ≠ 2 ∨ (v - s.calib.refs.get 0 k.val).natAbs < 4 * s.cfg.dev.calDelta) →
      exec (.undertowTempTrigger k v) s =
        .next { s with calib := { s.calib with sensors := s.calib.sensors.set 0 k.val v } }) ∧
    (∀ (b : CalBlock) (rs : List ItemResult), (s.cal b.val).running = true → (s.cal b.val).measured = false →
      exec (.undertowMeasureDone b rs) s = .next (
        let js := rs.filter fun r => hasItem b.val r.item.val && !quietItem b.val r.item.val
        runCheck ((js.foldl (fun s r => judgeItem s b.val r) s).updCal b.val fun y => { y with
          item6 := y.item6 && !(js.any fun r => r.item.val == 6), measured := true
          pending := maskOf ((List.range 7).filter (quietItem b.val)) }) b.val)) ∧
    (∀ (b : CalBlock) (x y : Nat) (r : ItemResult), (s.cal b.val).pending.testBit r.item.val = true →
      undertowOn s b.val = true → quietChance s b.val = true → x ≤ 15 → y ≤ 15 →
      exec (.quietOpportunityMeasure b x y r) s = .next (runCheck (judgeItem
        (s.updCal b.val fun x => { x with pending := clrBit x.pending r.item.val }) b.val r) b.val)) ∧
    (∀ (b : CalBlock) (x y : Nat) (r : ItemResult), (s.cal b.val).pending.testBit r.item.val = true →
      undertowOn s b.val = true → quietChance s b.val = true → (15 < x ∨ 15 < y) →
      exec (.quietOpportunityMeasure b x y r) s = .next (calFail s b.val r.item.val 3)) ∧
    (∀ b : CalBlock, let s1 := commitFirst s (calT b.val)
      (∀ (i v : Nat) (n : Int) (l : List (Nat × Nat × Int)), stepsByBoundary s1 b.val = true →
        (s1.cal b.val).steps = (i, v, n) :: l → 0 < n → exec (.undertowStep b) s = .next (runCheck (applySteps
          (s1.updCal b.val fun x => { x with steps := if n = 1 then l else (i, v, n - 1) :: l }) b.val i v 1) b.val)) ∧
      (stepsByBoundary s1 b.val = false → exec (.undertowStep b) s = .next (runCheck (applyAll s1 b.val) b.val)) ∧
      (s.epoch.state ≠ 3 → modeJobsAt s (calT b.val) = [] → s1 = s)) ∧
    (∀ d, exec (.calStoreDone d) s = .next (endStore s d)) ∧
    (∀ (out : List (CalBlock × Fin 7)) (rs : List Int), s.rst.starting = true → s.rst.reach ≠ 2 → s.rst.bistDone = true →
      s.rst.calDone = false → (calUsable s 5 || calUsable s 6) = false →
      ∃ t, exec (.calibrationRestoreDone out rs) s = .next t ∧ t.rst.boot.cal = 1 ∧ t.calib.startAll = true) ∧
    (∀ (out : List (CalBlock × Fin 7)) (rs : List Int), s.rst.starting = true → s.rst.reach ≠ 2 → s.rst.bistDone = true →
      s.rst.calDone = false → (calUsable s 5 || calUsable s 6) = true → exec (.calibrationRestoreDone out rs) s = .next (
        let s1 := { s with
          rst := { s.rst with calDone := true }
          calib := { s.calib with sensors := (rs.take 24).zipIdx.foldl (fun t x => t.set 0 x.2 x.1) s.calib.sensors
                                  refs := (rs.take 24).zipIdx.foldl (fun t x => t.set 0 x.2 x.1) s.calib.refs
                                  blocks := [] } }
        tryFirmware (toForeground (out.foldl (fun s x => calFail s x.1.val x.2.val 4) s1) ((out.map (·.1.val)).eraseDups)))) ∧
    (∀ b : CalBlock, b.val < 128 → s.calib.foreground.contains b.val = true → (s.port b.val).st ≠ .test →
      exec (.foregroundCalDone b []) s = .next (
        let s1 := (s.bump 0x7005 b.val 7).updCal b.val fun x => { x with values := [], steps := [], source := 1 }
        tryFirmware (autoStore (calJobDone
          { s1 with calib := { s1.calib with foreground := s1.calib.foreground.erase b.val } } b.val .ok)))) ∧
    (∀ (x : NvmSession) (tag want : Nat), s.nvm.session = some x → x.closing = some (tag, want) →
      crc32c (s.regionRead x.region 32 x.len) ≠ want → exec (.nvmWriteEndDone false) s = .next (
        complete { s with nvm := { s.nvm with session := none } } 0x7014 tag (tgt 10 x.region) .nvmFail)) ∧
    (∀ (x : NvmSession) (tag want : Nat), s.nvm.session = some x → x.closing = some (tag, want) →
      crc32c (s.regionRead x.region 32 x.len) = want → exec (.nvmWriteEndDone false) s = .next (
        complete (writeSlotHeader { s with nvm := { s.nvm with session := none } } x.region (nextSlotSeq s x.region) x.len)
          0x7014 tag (tgt 10 x.region) .ok)) ∧
    (∀ x : NvmSession, s.nvm.session = some x → x.closing = none →
      exec .nvmSessionIdleTimeout s = .next (abandonSession s 1))

/-- Tests, drains and repair, and the ends of an agent's sequences (R359, R577, R612 to R623, R633). Where it rests on the
model's choices, they are log entries 34 and 36. -/
def Obligations.SelfTestEvents : Prop :=
  ∀ s : State,
    (∀ (t : BitVec 32) (o : TestOutcome) (j : TestJob), s.stest.running.get none t.toNat = some j →
      (j.stage = 2 ∨ j.ended.isSome = true) → exec (.selftestStepDone t o) s = .next (finishTest s t.toNat j o)) ∧
    (∀ (t : BitVec 32) (pre : Precond) (j : TestJob), s.stest.running.get none t.toNat = some j → j.stage = 2 →
      (precondFail s (testIsland t.toNat) pre).isSome = true →
      exec (.selftestPreconditionCheck t pre) s = .next (markTest s t.toNat 5)) ∧
    (∀ t : BitVec 32, drainIdle s t.toNat = true → exec (.drainComplete t) s = .next (drainEnd s t.toNat false)) ∧
    (∀ t : BitVec 32, exec (.drainTimeout t) s = .next (drainEnd s t.toNat true)) ∧
    (∀ (pre : Precond) (sl : List TestOutcome) (b g : List Nat), s.rst.starting = true → s.rst.asserted = false →
      s.rst.fwChecked = true → s.rst.bistDone = false → (∀ i < 4, precondFail s (24 + i) pre = none) →
      exec (.memoryBistDone pre sl b g) s = .next (bistEnds { s with rst := { s.rst with bistDone := true } } sl b g)) ∧
    (s.stest.logDue = true → s.nvm.off = false → exec (.repairLogWriteDone true) s = .next (
      writeLog { s with stest := { s.stest with logDue := false } } true)) ∧
    (s.stest.logDue = true → s.nvm.off = false → exec (.repairLogWriteDone false) s = .next (
      (writeLog { s with stest := { s.stest with logDue := false } } false).bump 0x7016 0 1)) ∧
    (∀ (n i mask : Nat) (w : Waiter), s.stest.fuseJob = some (i, mask, w) → exec (.agentSequenceComplete n) s = .next (
      fuseBanks { s with stest := { s.stest with fuseJob := none } } w (sliceT i) n ((maskList 32 mask).map (i * 32 + ·)))) ∧
    (∀ n : Nat, s.stest.fuseJob = none → s.power.transition = 0 → (s.power.job.map (·.mode)) = some 4 →
      exec (.agentSequenceComplete n) s = .next (offDone s))

/-- Rails, temperature, keeper parity, windows, the fault ring and the scrubber (R415, R503, R514 to R517, R642, R647, R661).
Where it rests on the model's choices, they are log entries 24 and 108. -/
def Obligations.IntegrityEvents : Prop :=
  ∀ s : State,
    (∀ (k : Fin 8) (mv : Nat), railInRange s k.val mv = false → s.elec.outMask.testBit k.val = false → s.rst.pgood = true →
      exec (.railLimit k mv) s = .next (
        let s1 := setRail s k.val mv
        let mask := setBit s.elec.outMask k.val
        safetyFault (setPresent { s1 with elec := { s1.elec with outMask := mask } } 10 (mask != 0)) 10 0
          (be 1 k.val ++ be 2 (sat 16 mv)))) ∧
    (∀ (k : Fin 8) (mv : Nat), railInRange s k.val mv = true → exec (.railLimit k mv) s = .next (
      let s1 := setRail s k.val mv
      let mask := clrBit s.elec.outMask k.val
      setPresent { s1 with elec := { s1.elec with outMask := mask } } 10 (mask != 0))) ∧
    (∀ (k : Fin 8) (mv : Nat), ∃ t, exec (.railUndervoltage k mv) s = .next t ∧ t.elec.rails = s.elec.rails.set 0 k.val mv ∧
      t.elec.underMask = if mv < (railRange k.val).2.2 then setBit s.elec.underMask k.val else clrBit s.elec.underMask k.val) ∧
    (∀ (k : Fin 30) (v : Int), 500 < v → s.calib.sensors.get 0 k.val ≤ 500 → exec (.thermalLimit k v) s = .next (
      let s1 := { s with calib := { s.calib with sensors := s.calib.sensors.set 0 k.val v } }
      safetyFault (setPresent s1 9 (s1.calib.sensors.any fun e => 500 < e.2)) 9 0 (be 1 k.val ++ be 1 (sat 8 (v / 4).toNat)))) ∧
    (∀ w : BitVec 32, exec (.keeperParity w) s = .next (safetyFault s 11 0 (be 4 w.toNat))) ∧
    (exec .integrityWindowEnd s = .next { s with integ := { s.integ with
      window := [], made := 0
      thr := [s.cfg.dev.thrBuffer, s.cfg.dev.thrStream, s.cfg.dev.thrSignal, s.cfg.dev.thrMeta, s.cfg.dev.thrCarry] } }) ∧
    (∀ (e : FaultEntry) (l : List FaultEntry), uncopied s = e :: l → s.nvm.off = false →
      exec (.faultRecordCopy true) s = .next (ringCopy s e)) ∧
    (∀ (e : FaultEntry) (l : List FaultEntry), uncopied s = e :: l → s.nvm.off = false →
      exec (.faultRecordCopy false) s = .next (s.bump 0x0905 0 7)) ∧
    (∀ (b : Fin 128) (r : Fin 8192) (n : Nat), s.cfg.fabric.scrub = true → islandShut s (24 + b.val / 32) = false →
      exec (.scrubRead b r n false false true) s =
        .next ((s.bumpBy 0x3013 (b.val / 32) 2 n).bump 0x3013 (b.val / 32) 7)) ∧
    (∀ (b : Fin 128) (r : Fin 8192) (n : Nat) (live : Bool), s.cfg.fabric.scrub = true → islandShut s (24 + b.val / 32) = false →
      exec (.scrubRead b r n true live false) s =
        .next (uncorrectable (s.bumpBy 0x3013 (b.val / 32) 2 n) b.val r.val (b2n live)))

/-- Link up and down at a line port, its start-up, and its egress flush (R107 to R110, R124, R222 to R239, R250). A request
for a coefficient left unanswered for 1 ms fails training with reason 4 (R236), and of the causes that wait in the queue the lowest
reason counts (R238). Where it rests on the model's choices, they are log entries 99, 101, 105, 135 and 136. -/
def Obligations.LinkEvents : Prop :=
  ∀ (p : PortId) (s : State),
    let lowest := fun r => (s.pending.filterMap (causeOf s p.val)).foldl min r
    ((s.port p.val).st = .down → (s.port p.val).breaking = false → (s.port p.val).silence = false →
      (s.pcfg p.val).mode.set = true → exec (.portStartupBegin p) s = .next (startNow s p.val)) ∧
    ((s.port p.val).st = .down → (s.port p.val).breaking = true → exec (.breakIntervalExpiry p) s =
      .next (startNow (s.updPort p.val fun x => { x with breaking := false }) p.val)) ∧
    ((s.port p.val).st = .down → (s.port p.val).silence = true → exec (.startupRetry p) s =
      .next (startNow (s.updPort p.val fun x => { x with silence := false }) p.val)) ∧
    ((s.port p.val).resMode ≠ 2 → exec (.lossOfSignal p) s = .next (loseLink s p.val 1)) ∧
    ((s.port p.val).resMode ≠ 9 → (s.port p.val).resMode ≠ 2 → exec (.pcsLockLost p) s = .next (loseLink s p.val 2)) ∧
    (∀ eee, (s.port p.val).st = .training → (s.port p.val).resMode ≠ 2 → (s.port p.val).resMode ≠ 9 →
      exec (.linkUp p eee) s = .next (updPw (goUp s p.val) p.val fun w => { w with
        eee := (if (s.pcfg p.val).mode.neg = 1 then (s.port p.val).start.partnerEee.testBit (s.port p.val).resMode else eee) &&
          (s.port p.val).start.use.flags.testBit 0 })) ∧
    (∀ eee, (s.port p.val).st = .training → (s.port p.val).resMode = 9 → (s.port p.val).start.phase = 8 →
      (s.port p.val).start.dataSent = true → (s.port p.val).start.dataSeen = true →
      ∃ t, exec (.linkUp p eee) s = .next t ∧ t.pending = s.pending) ∧
    ((s.port p.val).st = .training → (s.port p.val).resMode ≠ 2 → (s.port p.val).resMode ≠ 9 →
      exec (.trainingPhaseTimeout p) s = .next (startFail s p.val (lowest 7))) ∧
    ((s.port p.val).st = .training → (s.port p.val).resMode = 9 → (s.port p.val).start.phase = 6 →
      exec (.trainingPhaseTimeout p) s = .next (startFail s p.val (lowest 1))) ∧
    (inPhase s p.val 1 = true → (s.port p.val).resRole = 2 → (s.pcfg p.val).mode.neg = 1 → (s.port p.val).start.blk = none →
      exec (.noAnswerTimeout p) s = .next (startFail s p.val (lowest 3))) ∧
    (inPhase s p.val 2 = true → (s.port p.val).resRole = 1 → (∀ b, (s.port p.val).start.blk = some b → b.phase ≠ 2) →
      exec (.noAnswerTimeout p) s = .next (startFail s p.val (lowest 3))) ∧
    ((s.port p.val).st = .training → (s.port p.val).resMode ≠ 2 → (s.port p.val).resMode ≠ 9 →
      exec (.partnerLostTimeout p) s = .next (startFail s p.val (lowest 2))) ∧
    ((s.port p.val).st = .training → (s.port p.val).resMode = 9 → (s.port p.val).start.phase = 1 → (s.port p.val).resRole = 2 →
      (s.port p.val).vs.lock = 2 → exec (.partnerLostTimeout p) s = .next (startFail s p.val (lowest 2))) ∧
    ((s.port p.val).st = .training → (s.port p.val).start.reqOut.isSome = true →
      exec (.coeffRequestTimeout p) s = .next (startFail s p.val (lowest 4))) ∧
    (∀ loss, (s.port p.val).start.reqOut = none → (∀ a, (s.port p.val).start.reqAt = some a → a + 200000 ≤ s.now) →
      inPhase s p.val 5 = true → (s.port p.val).start.presetAsked = false →
      exec (.coeffRequestSend p loss) s = .next (updStart ((updStart s p.val fun t => { t with
        reqTgl := !t.reqTgl, reqOut := some (0, 3, presetFor loss), presetAsked := true, reqAt := some s.now }).bump 0x1303 p.val 10)
        p.val fun t => { t with loss := some loss })) ∧
    (inPhase s p.val 7 = true → (s.port p.val).resRole = 1 → (∀ i ∈ s.pending, causeOf s p.val i ≠ some 2) →
      exec (.relinkTimeout p) s = .next (enterPhase s p.val 3)) ∧
    (∀ b : CtlBlock, (s.port p.val).start.blk = some b → inPhase s p.val (s.port p.val).start.phase = true →
      (s.port p.val).resRole = 1 → within (s.port p.val).start.phase 5 7 = true → (s.port p.val).start.rxReady = true →
      b.phase = (s.port p.val).start.phase → b.flags.testBit 7 = true →
      exec (.trainingPhaseChange p) s = .next (enterPhase s p.val (phaseAfter (s.port p.val).start.phase))) ∧
    (∀ b : CtlBlock, (s.port p.val).start.blk = some b → inPhase s p.val 5 = true → (s.port p.val).start.phase = 5 →
      (s.port p.val).resRole = 2 → b.phase = 6 → exec (.trainingPhaseChange p) s = .next (enterPhase s p.val 6)) ∧
    (∀ echo next, inPhase s p.val 1 = true → (s.port p.val).resRole = 1 → (s.port p.val).start.left = 0 →
      exec (.halfDuplexPhaseEnd p echo next) s = .next (enterPhase s p.val 2)) ∧
    (∀ x : Negotiated, (s.port p.val).st = .negotiating →
      let s1 := (learn s p.val x).1
      let own := (s.port p.val).start.base.getD (basePage s p.val (s.port p.val).start.use)
      let mode := highest (offered s p.val &&& (s1.port p.val).start.partnerAdv)
      (resolveRole own x.base x.nonce = none → exec (.negotiationComplete p x) s = .next (startFail s1 p.val 5)) ∧
      (∀ m, resolveRole own x.base x.nonce = some m → mode = 0 →
        exec (.negotiationComplete p x) s = .next (startFail s1 p.val 6)) ∧
      (∀ m, resolveRole own x.base x.nonce = some m → mode ≠ 0 → exec (.negotiationComplete p x) s =
        .next (resolved s1 p.val mode (if mode = 1 then 0 else if m then 1 else 2))) ∧
      (own.forced = true → x.base.forced = true → own.master = x.base.master → resolveRole own x.base x.nonce = none) ∧
      (own.forced = true → (x.base.forced = false ∨ own.master ≠ x.base.master) →
        resolveRole own x.base x.nonce = some own.master) ∧
      (x.base.np = false → (learn s p.val x).2 = none ∧
        (s1.port p.val).start.partnerAdv = x.base.tech.toNat &&& 0x1FA)) ∧
    (portLive s p.val = false → overridden s p.val = false →
      exec (.egressFlushTimeout p) s = .next (flushEgress s p.val (countFlush · p.val)))

/-- Frames, low-power idle and OAM of VS50 (R134 to R170). Where it rests on the model's choices, they are log entries 42, 92,
96, 97 and 126. -/
def Obligations.Vs50Events : Prop :=
  ∀ (p : PortId) (s : State),
    (∀ hdr region margin, (s.port p.val).resMode = 9 → portLive s p.val = true → (s.port p.val).vs.lock = 0 →
      exec (.vs50FrameRx p hdr region margin) s = .next (rxSearch s p.val hdr)) ∧
    (∀ hdr region margin, (s.port p.val).resMode = 9 → portLive s p.val = true → (s.port p.val).vs.lock = 1 →
      (s.port p.val).vs.inverted = false → parseHdr hdr = none → exec (.vs50FrameRx p hdr region margin) s =
        .next (updVs s p.val fun v => { v with lock := 0, confirm := 0 })) ∧
    (∀ hdr region margin h, (s.port p.val).resMode = 9 → portLive s p.val = true → (s.port p.val).vs.lock = 1 →
      (s.port p.val).vs.inverted = false → parseHdr hdr = some h → ∃ t, exec (.vs50FrameRx p hdr region margin) s = .next t ∧
        (t.port p.val).vs.confirm = (s.port p.val).vs.confirm + 1 ∧
        (t.port p.val).vs.lock = if (s.port p.val).vs.confirm = 3 then 2 else 1) ∧
    (∀ hdr region margin, (s.port p.val).resMode = 9 → portLive s p.val = true → (s.port p.val).vs.lock = 2 →
      (s.port p.val).vs.inverted = false → (s.port p.val).vs.rxLpi ≠ 2 →
      exec (.vs50FrameRx p hdr region margin) s = .next (rxLocked s p.val (parseHdr hdr) region margin)) ∧
    (∀ words type phase, (s.port p.val).resMode = 9 → portLive s p.val = true → driversOff s = false →
      let s1 := wantAmp (applyAnnounced (updVs s p.val fun v => { v with txWords := v.txWords ++ words }) p.val) p.val
      txKind s1 p.val = some (type, phase) → exec (.vs50FrameTx p words) s = .next (txFrame s1 p.val type phase)) ∧
    (∀ words, driversOff s = true → exec (.vs50FrameTx p words) s = .next s) ∧
    (vs50Live s p.val = true → lpiInUse s p.val = true → 2 ≤ (s.port p.val).vs.lpiFrames → (s.port p.val).vs.txLpi = 0 →
      exec (.lpiSleepEntry p) s = .next (setTxLpi (s.bump 0x1103 p.val 8) p.val 1)) ∧
    (vs50Live s p.val = true → (s.port p.val).vs.txLpi = 1 → 16 ≤ (s.port p.val).vs.txCount →
      exec (.lpiSleepEnd p) s = .next (setTxLpi s p.val 2)) ∧
    (vs50Live s p.val = true → (s.port p.val).vs.txLpi = 2 → 512 ≤ (s.port p.val).vs.txCount →
      exec (.lpiQuietEnd p) s = .next (setTxLpi s p.val 3)) ∧
    (vs50Live s p.val = true → (s.port p.val).vs.txLpi = 3 → 24 ≤ (s.port p.val).vs.txCount →
      exec (.lpiRefreshEnd p) s = .next (setTxLpi s p.val 2)) ∧
    (vs50Live s p.val = true → (s.port p.val).power.macLpi = false → exec (.lpiWakeStart p) s = .next (wakeTx s p.val)) ∧
    (vs50Live s p.val = true → (s.port p.val).vs.txLpi = 4 → 24 ≤ (s.port p.val).vs.txCount →
      exec (.lpiWakeEnd p) s = .next (slackGo (setTxLpi s p.val 0) p.val)) ∧
    (vs50Live s p.val = true → (s.port p.val).vs.rxLpi = 2 → (s.port p.val).vs.rxExpect + 2 < (s.port p.val).vs.rxCount →
      (s.port p.val).vs.missed = 0 → exec (.refreshMissed p) s = .next (updVs (s.bump 0x1103 p.val 10) p.val fun v =>
        { v with missed := 1, rxExpect := v.rxExpect + 536 })) ∧
    (vs50Live s p.val = true → (s.port p.val).vs.rxLpi = 2 → (s.port p.val).vs.rxExpect + 2 < (s.port p.val).vs.rxCount →
      (s.port p.val).vs.missed ≠ 0 → exec (.refreshMissed p) s = .next (loseLink (s.bump 0x1103 p.val 10) p.val 2)) ∧
    (vs50Live s p.val = true → (s.port p.val).vs.lock = 2 → (s.port p.val).vs.rf = true →
      exec (.partnerRfTimeout p) s = .next (loseLink s p.val 2)) ∧
    (vs50Live s p.val = true → exec (.oamStatusSend p) s = .next (updVs s p.val fun v => { v with statusDue := true })) ∧
    (∀ w lost, (s.port p.val).vs.oamWord = some (w, lost) → (lost = true ∨ fld w 14 2 ≠ crc16 (w.take 14)) →
      exec (.oamWordRx p) s = .next ((updVs s p.val fun v => { v with oamWord := none }).bump 0x1103 p.val 5)) ∧
    (∀ w, (s.port p.val).vs.oamWord = some (w, false) → fld w 14 2 = crc16 (w.take 14) → (s.port p.val).vs.oamCur = none →
      byteAt w 0 ≠ 0 → (byteAt w 1).testBit 7 ≠ (s.port p.val).vs.rxTgl →
      exec (.oamWordRx p) s = .next (oamAccept (updVs (updVs s p.val fun v => { v with oamWord := none }) p.val fun v =>
        { v with rxTgl := !v.rxTgl }) p.val (byteAt w 0) ((w.drop 2).take 12)))

/-- Windows, anchors, steps, cancellers and transmit adjustment (R171 to R216). Where it rests on the model's choices, they are log
entries 36, 43 to 50, 132, 133 and 142. -/
def Obligations.DspEvents : Prop :=
  ∀ (p : PortId) (s : State),
    (∀ w : GaugeWin, (s.port p.val).st = .test → (s.port p.val).dsp.st = 0 →
      (testWindow s p.val w.test).port p.val = { s.port p.val with test := ((testWindow s p.val w.test).port p.val).test } ∧
      exec (.gaugeWindowEnd p w) s = .next (testWindow s p.val w.test)) ∧
    (∀ w : GaugeWin, (s.port p.val).st ≠ .test → (s.port p.val).dsp.st ≠ 0 → (s.port p.val).dsp.st ≠ 2 → (s.port p.val).dsp.st ≠ 3 →
      (s.port p.val).health.margin = none → ∃ t, exec (.gaugeWindowEnd p w) s = .next t ∧ t.freeCtr = s.freeCtr + 1 ∧
        (t.port p.val).dsp.suspend = (s.port p.val).dsp.suspend - 1 ∧
        (t.port p.val).dsp.taps = adaptWindow s p.val w (gaugeRx s p.val w.rx) (gaugeTx s p.val w.tx)
          ((List.range 3).map fun k => gaugeNext s p.val k (w.aggr.getD k noStream)) ∧
        (t.port p.val).health.absent =
          (portLive s p.val && 3 ≤ (s.port p.val).resMode && !(gaugeRx s p.val w.rx).present)) ∧
    (revertDue s p.val = true → s.epoch.state ≠ 3 → modeJobsAt s (portT p.val) = [] →
      exec (.anchorReversion p) s = .next (revertNow s p.val)) ∧
    (revertDue s p.val = true → revertDue (commitFirst s (portT p.val)) p.val = true →
      exec (.anchorReversion p) s = .next (revertNow (commitFirst s (portT p.val)) p.val)) ∧
    ((s.port p.val).dsp.st = 1 → bfHold s p.val = false → 16 ≤ (s.port p.val).dsp.ctleWait → 16 ≤ (s.port p.val).dsp.ctleUp →
      (s.port p.val).dsp.taps.ctle < ctleTop (s.port p.val).resMode → portLive s p.val = false → exec (.ctleStep p) s =
        .next (updDsp s p.val fun d => { d with
          taps := { d.taps with ctle := (s.port p.val).dsp.taps.ctle + 1 }, ctleUp := 0, ctleDown := 0, ctleWait := 0 })) ∧
    ((s.port p.val).dsp.st = 2 → bfHold s p.val = false → 256 ≤ (s.port p.val).dsp.ctleWait → (s.port p.val).dsp.ctleUp < 16 →
      16 ≤ (s.port p.val).dsp.ctleDown → 0 < (s.port p.val).dsp.taps.ctle → portLive s p.val = true → exec (.ctleStep p) s =
        .next ((updDsp s p.val fun d => { d with
          taps := { d.taps with ctle := (s.port p.val).dsp.taps.ctle - 1 }, ctleUp := 0, ctleDown := 0, ctleWait := 0 }).bump
            0x1210 p.val 9)) ∧
    (∀ segs cancelled next removed, (s.port p.val).dsp.st = 2 → portLive s p.val = true →
      cycleWins s p.val ≤ (s.port p.val).dsp.scoutWins →
      exec (.scoutCycleEnd p segs cancelled next removed) s = .next (
        let es := scouted s p.val segs
        let cs := next.filter fun c => aggrEligible s p.val c.aggr.val (s.port p.val).dsp.group
        let last := match cs.getLast?, es.getLast? with
          | some c, _ => (c.taps.drop 448).take 64
          | none, some g => g.taps.take 64
          | none, none => (s.port p.val).dsp.scout
        let s1 := updDsp s p.val fun d => { d with
          scout := last, scoutWins := 0
          taps := { d.taps with nexts := d.taps.nexts.mapIdx fun k n => { n with removed := min 60 (removed.getD k 0) } } }
        residualEcho (planReplace (seedNexts (placeWindow (soundSnapshot s1 p.val es) p.val es cancelled) p.val
          (s.port p.val).dsp.group cs) p.val cs) p.val es)) ∧
    (∀ taps w a, (s.port p.val).dsp.moving = some { win := w, start := a, taps, left := 0 } →
      ((s.port p.val).dsp.st = 2 ∨ (s.port p.val).dsp.st = 3) → exec (.echoWindowTakeover p) s = .next (
        let new : EchoWin := { start := some a, taps }
        raise (updDsp (s.bump 0x1210 p.val 5) p.val fun d => { d with
          moving := none, taps := { d.taps with wins := d.taps.wins.mapIdx fun i x => if i = w then new else x } })
          0x1204 0 (portT p.val) (be 1 w ++ zeros 1 ++
            be 2 (((s.port p.val).dsp.taps.wins.getD w {}).start.getD 0xFFFF) ++ be 2 a))) ∧
    (∀ k a off taps, (s.port p.val).dsp.replacing = some (k, a, off, taps) →
      aggrEligible s p.val a (s.port p.val).dsp.group = true → (s.port p.val).dsp.st < 4 →
      exec (.aggressorReplace p) s = .next (raise ((staleNext (updNext (updDsp s p.val fun d => { d with replacing := none })
        p.val k fun _ => { aggr := some a, st := 3, offset := off, taps }) p.val k).bump 0x1210 p.val 6) 0x1203 0 (portT p.val)
        (be 1 k ++ be 1 (((s.port p.val).dsp.taps.nexts.getD k {}).aggr.getD 0xFF) ++ be 1 a))) ∧
    (∀ k : Fin 3, exec (.nextSeedEnd p k) s =
      .next (updNext s p.val k.val fun n => if n.st = 3 then { n with st := 1 } else n)) ∧
    (committedGroup s p.val ≠ (s.port p.val).dsp.group → exec (.bundleGroupApply p) s = .next (applyGroup s p.val)) ∧
    (∀ r, vs50Live s p.val = true → (s.pcfg p.val).vs.flags.testBit 2 = true → (s.port p.val).dsp.st = 2 →
      (s.port p.val).dsp.adjustFrom ≤ s.now → (s.port p.val).vs.adjustDue = none → (s.port p.val).vs.adjustOut = none →
      stepRule (s.port p.val).dsp.recent 16 (s.port p.val).dsp.repPre (s.port p.val).dsp.repPost
        (s.port p.val).dsp.suppressed = some r →
      exec (.txAdjustRequest p) s = .next (updVs (s.bump 0x1210 p.val 8) p.val fun v => { v with adjustDue := some r }))

/-- 10BASE-T1S reception, PLCA and collisions (R265 to R290). Where it rests on the model's choices, they are log entries 59, 60 and
137. -/
def Obligations.MultidropEvents : Prop :=
  ∀ (p : PortId) (s : State),
    (∀ (level : BitVec 8) mv, t1sOn s p.val = true → ((s.port p.val).md.rx = 0 ∨ (s.port p.val).md.rx = 3) →
      (s.pcfg p.val).md.squelch < mv → exec (.preambleDetect p level mv) s = .next (updMd s p.val fun m => { m with
        rx := 1, level := level.toInt, strength := none
        preOpp := if (s.port p.val).md.plca = 1 then curOpp s p.val else 0xFF })) ∧
    (∀ strength : BitVec 8, t1sOn s p.val = true → (s.port p.val).md.rx = 1 → (s.port p.val).md.plca = 1 →
      strength ≠ 0x80 → exec (.ssdDetect p strength false) s = .next (updMd s p.val fun m => { m with
        rx := 2, strength := some strength.toInt, lastStrength := some strength.toInt
        rxOpp := (s.port p.val).md.preOpp, opp := (s.port p.val).md.preOpp, open_ := false })) ∧
    (t1sOn s p.val = true → (s.port p.val).md.rx = 1 → (s.port p.val).md.plca = 1 →
      exec (.ssdDetect p 0x80 true) s = .next (updMd s p.val fun m => { m with
        rx := 2, strength := none, lastStrength := none, opp := (s.port p.val).md.rxOpp, open_ := false })) ∧
    (t1sOn s p.val = true → (s.port p.val).md.rx = 1 →
      exec (.ssdSearchTimeout p) s = .next (mdArm (s.bump 0x1403 p.val 4) p.val)) ∧
    (∀ rise : BitVec 8, t1sOn s p.val = true → (s.port p.val).md.rx = 1 → 18 ≤ rise.toNat →
      exec (.rxRearm p rise) s = .next (mdArm (s.bump 0x1403 p.val 5) p.val)) ∧
    (∀ rise : BitVec 8, t1sOn s p.val = true → (s.port p.val).md.rx = 2 → 12 ≤ rise.toNat → (s.port p.val).resMode = 1 →
      (s.port p.val).md.plca ≠ 1 → 255 ≤ (s.port p.val).md.rxOpp → exec (.rxOverlap p rise) s =
        .next (mdGap (nextOpp (updMd (s.bump 0x1403 p.val 6) p.val fun m => { m with rx := 3 }) p.val s.now) p.val)) ∧
    (segmentOn s p.val = true → (s.port p.val).md.node = 0 → exec (.beaconRx p) s = .next (foreignBeacon s p.val)) ∧
    (segmentOn s p.val = true → (s.port p.val).md.node ≠ 0 → (s.port p.val).md.node = (s.pcfg p.val).md.node →
      (s.port p.val).st = .up → (s.port p.val).md.plca ≠ 1 →
      exec (.beaconRx p) s = .next (mdCycle (plcaActive s p.val) p.val)) ∧
    (segmentOn s p.val = true → (s.port p.val).md.plca = 2 → (s.port p.val).md.node = 0 → (s.port p.val).st = .training →
      exec (.plcaListenTimeout p) s =
        .next (plcaActive (updMd (goUp s p.val) p.val fun m => { m with beaconAt := none }) p.val)) ∧
    (segmentOn s p.val = true → (s.port p.val).md.plca = 1 → (s.port p.val).md.node ≠ 0 → (s.port p.val).st = .up →
      (s.pcfg p.val).md.flags.testBit 0 = false → exec (.beaconLossTimeout p) s = .next (loseLink (setPlca
        (updMd (s.bump 0x1403 p.val 10) p.val fun m => { m with open_ := false, used := false, beaconAt := none })
        p.val 0) p.val 2)) ∧
    (segmentOn s p.val = true → (s.port p.val).md.plca = 1 → (s.port p.val).md.node = 0 → (s.port p.val).st = .up →
      (s.pcfg p.val).md.node = 0 → exec (.plcaCycleStart p) s = .next (mdCycle (updMd s p.val fun m => { m with
        count := (s.pcfg p.val).md.count, toTimer := (s.pcfg p.val).md.toTimer }) p.val)) ∧
    (segmentOn s p.val = true → (s.port p.val).md.plca = 1 → (s.port p.val).st = .up → (s.port p.val).md.retry = false →
      exec (.txOpportunity p) s = .next (updMd (s.bump 0x1403 p.val 1) p.val fun m => { m with
        opp := (s.port p.val).md.node, oppAt := s.now, open_ := true, used := false, bursts := (s.pcfg p.val).md.burst
        burstTimer := (s.pcfg p.val).md.burstTimer })) ∧
    (∀ (rise : BitVec 8) (f : MacFrame), (s.egr p.val).mac = some f → f.started = true → t1sOn s p.val = true →
      (s.port p.val).resMode = 1 → (s.port p.val).md.attempts < 15 → exec (.txCollision p rise) s = .next (
        (updMd (nextOpp (s.bump 0x1403 p.val 7) p.val s.now) p.val fun m => { m with
          attempts := m.attempts + 1, retry := false, backoff := true, open_ := false }).updEgr p.val
          fun x => { x with mac := some { f with started := false } })) ∧
    (∀ (rise : BitVec 8) (f : MacFrame), (s.egr p.val).mac = some f → f.started = true → t1sOn s p.val = true →
      (s.port p.val).resMode = 1 → 15 ≤ (s.port p.val).md.attempts → exec (.txCollision p rise) s = .next (
        (leaveRing (updMd ((nextOpp (s.bump 0x1403 p.val 7) p.val s.now).bump 0x1403 p.val 8) p.val fun m => { m with
          attempts := 0, open_ := false, retry := false, backoff := false }) p.val none).updEgr p.val
          fun x => { x with mac := none })) ∧
    (t1sOn s p.val = true → (s.port p.val).md.backoff = true → rxBusy s p.val = false → (s.port p.val).resMode = 1 → exec (.csmaBackoffExpiry p) s =
      .next (macStart (updMd s p.val fun m => { m with backoff := false }) p.val))

/-- Margin, FEC windows, health drops, Sounding and the cable test (R296 to R339). Where it rests on the model's choices, they
are log entries 53 to 58. -/
def Obligations.HealthEvents : Prop :=
  ∀ (p : PortId) (s : State),
    (∀ (snr : Int) errs, portLive s p.val = true → (s.port p.val).resMode = 9 → ∃ t, exec (.marginIntervalEnd p snr errs) s =
      .next t ∧ (t.port p.val).health.margin = some (snr - referenceSnr 9) ∧ (t.port p.val).health.snr = some snr ∧
      (t.port p.val).health.worst = some (min (snr - referenceSnr 9) ((s.port p.val).health.worst.getD (snr - referenceSnr 9)))) ∧
    (∀ ports, exec (.fecWindowEnd ports) s = .next (eachN (ports.foldl countReportFec s) (List.range 128) fecEnd)) ∧
    (portLive s p.val = true → (s.pcfg p.val).health.flags.testBit 1 = true → (s.port p.val).health.dropSince.isSome = true →
      expectsSilence s p.val = false → (s.port p.val).health.absent = false → (s.port p.val).restart = none →
      exec (.healthDrop p false) s = .next (
        let h := (s.port p.val).health
        let s1 := raise (s.bump 0x1503 p.val 23) 0x1503 2 (portT p.val)
          (be 1 0 ++ margin16 h.margin ++ zeros 1 ++ be 4 (sat 32 h.lastUnc))
        loseLink (faultEntry s1 0x1503 2 (portT p.val) (be 1 0 ++ margin16 h.margin ++ zeros 1)) p.val 9)) ∧
    ((s.pcfg p.val).sound.flags.testBit 0 = true → soundFree s p.val = true →
      exec (.soundingPeriodicStart p) s = .next (startSound s p.val false none)) ∧
    (∀ r, (s.port p.val).health.run = some r → r.left = 0 → s.rst.headland = 2 → r.asBase = false → r.waiter = none →
      exec (.soundingDone p) s = .next (
        let x := storeRun s p.val r (rhoProfile r (s.port p.val).start.loss)
        raise ((updHealth x.1 p.val fun h => { h with run := none }).bump 0x1503 p.val 24) 0x1504 0 (portT p.val)
          (be 1 0 ++ be 1 x.2 ++ be 4 (s.port p.val).health.runs))) ∧
    (∀ r, (s.port p.val).health.run = some r → r.left ≠ 0 → exec (.soundingRunTimeout p) s = .next (endSound s p.val 1)) ∧
    (∀ partner c, (s.port p.val).health.cable = some c → c.stage = 0 → exec (.cableTestStimulusStart p partner) s =
      .next (updHealth s p.val fun h => { h with cable := some { c with stage := 1, partner } })) ∧
    (∀ c, (s.port p.val).health.cable = some c → c.stage = 1 → exec (.cableTestStimulusEnd p) s =
      .next (updHealth s p.val fun h => { h with cable := some { c with stage := 2 } })) ∧
    (∀ rho c, (s.port p.val).health.cable = some c → c.stage = 2 → exec (.cableTestDone p rho) s = .next (
      let x := cableOutcome s p.val c rho
      let s1 := (updHealth s p.val fun h => { h with cable := none, cableResult := some x, cableStatus := 0 }).bump 0x1503 p.val 26
      closeWaiter (leaveTest (raise s1 0x1506 0 (portT p.val) (be 1 0 ++ be 1 x.mode ++ be 2 x.dist ++ be 4 x.seq)) p.val)
        c.waiter (portT p.val) .ok))

/-- Slack and its handshake, wakes, Parked and the device's power mode (R340 to R360). Where it rests on the model's choices, they
are log entries 33, 87, 101, 139 and 140. -/
def Obligations.PowerEvents : Prop :=
  ∀ (p : PortId) (s : State),
    (portLive s p.val = true → lpiUsable s p.val = true → txIdle s p.val = true → (s.port p.val).resMode = 9 →
      exec (.lpiAssert p) s = .next (s.updPort p.val fun x => { x with power := { x.power with macLpi := true } })) ∧
    (portLive s p.val = true → lpiUsable s p.val = true → txIdle s p.val = true → (s.port p.val).resMode ≠ 9 →
      exec (.lpiAssert p) s = .next (setLpi (s.updPort p.val fun x => { x with power := { x.power with macLpi := true } })
        p.val true (s.port p.val).power.lpiRx)) ∧
    (∀ token : BitVec 16, portLive s p.val = true → (s.port p.val).resMode ≠ 2 →
      let counted := (s.bump 0x1010 p.val 0).bumpBy 0x1010 p.val 1 64
      exec (.slackRequestRx p token) s = .next (slackIn counted p.val 1 token.toNat) ∧
      exec (.slackAcceptRx p token) s = .next (slackIn counted p.val 2 token.toNat) ∧
      exec (.slackRefuseRx p token) s = .next (slackIn counted p.val 3 token.toNat)) ∧
    ((s.port p.val).power.handshake = 1 → (s.port p.val).power.sent ≠ 0 → (s.port p.val).power.sent < 10 →
      exec (.slackRequestResend p) s =
        .next (slackTx ((updPw s p.val fun x => { x with sent := x.sent + 1 }).bump 0x1610 p.val 1) p.val 1
          (s.port p.val).power.token)) ∧
    ((s.port p.val).power.handshake = 1 → 10 ≤ (s.port p.val).power.sent →
      exec (.slackRequestResend p) s = .next (slackRefused s p.val 1)) ∧
    ((s.port p.val).power.handshake = 2 → (s.port p.val).power.sent ≠ 0 →
      exec (.slackAcceptSilence p) s = .next (enterSlack s p.val 2)) ∧
    (∀ mv, (s.port p.val).st = .slack → (s.port p.val).power.waking = 0 → (s.port p.val).power.held = none →
      (s.pcfg p.val).power.wakeMv < mv →
      (s.cfg.dev.wakeFlags.testBit 1 = true → s.cfg.dev.wakeFlags.testBit 3 = false → ∃ t, exec (.lineWake p mv) s = .next t ∧
        t.elec.wakeDriven = true) ∧
      (s.cfg.dev.wakeFlags.testBit 1 = false → s.cfg.dev.wakeFlags.testBit 0 = false → exec (.lineWake p mv) s = .next (
        if s.cfg.dev.wakeFlags.testBit 3 then unparkBegin (wakePort s p.val 1) 3 p.val else wakePort s p.val 1))) ∧
    (∀ mv, mv ≤ (s.pcfg p.val).power.wakeMv → exec (.lineWake p mv) s = .next s) ∧
    (∀ mv, (s.port p.val).st = .slack → (s.port p.val).power.waking = 2 → mv < (s.pcfg p.val).power.wakeMv →
      exec (.lineWakeQuiet p mv) s = .next (startNow s p.val)) ∧
    ((s.port p.val).st = .slack → (s.port p.val).power.waking = 1 → exec (.wakeBurstEnd p) s = .next (startNow s p.val)) ∧
    (∀ ns, s.elec.wakeDriven = false → s.elec.wakeFrom ≤ s.now → 10000 ≤ ns → exec (.wakeNAssert ns) s = .next (
      let s1 := eachN s (List.range 128) fun s p => if (s.pcfg p).power.flags.testBit 2 then wakePort s p 3 else s
      if s.cfg.dev.wakeFlags.testBit 2 then unparkBegin s1 2 0xFF else s1)) ∧
    (∀ ns, (s.elec.wakeDriven = true ∨ s.now < s.elec.wakeFrom ∨ ns < 1000) → exec (.wakeNAssert ns) s = .next s) ∧
    (s.elec.wakeDriven = true → exec .wakeNPulseEnd s = .next { s with elec := { s.elec with
      wakeDriven := false, wakeFrom := s.now + 40000 } }) ∧
    (s.elec.wakeDriven = false → exec .wakeNPulseEnd s = .next s) ∧
    (s.power.transition = 2 → s.power.parkStage = 0 → s.power.refused = false →
      (∀ q < 128, portLive s q = false ∧ (s.port q).power.handshake = 0) → (∀ i < 4, sliceIdle s i = true) →
      exec .parkedHandshakeEnd s = .next (updPower (eachN s (List.range 4) fun s i =>
        s.updSlice i fun x => { x with stopped := true }) fun p => { p with parkStage := 1 })) ∧
    (s.power.transition = 2 → s.power.parkStage = 0 → s.power.refused = true → exec .parkedHandshakeEnd s =
      .next (powerJobEnd (updPower s fun p => { p with transition := 0, refused := false }) .notPermitted)) ∧
    (s.power.transition = 1 → exec .devicePowerTimeout s = .next (powerJobEnd s .range))

/-- Training, FOM intervals, steps, links, Ebb and eye scans of the host side (R366 to R411). Where it rests on the model's choices,
they are log entries 21 to 23, 86, 141 and 142. -/
def Obligations.HostLaneEvents : Prop :=
  ∀ (m : LaneId) (k : LinkId) (s : State),
    (∀ foms req tx, (s.lane m.val).st = .training → 16 ≤ (s.lane m.val).okRun →
      exec (.laneTrainingComplete m foms req tx) s = .next ((setLane s m.val .up).updLane m.val fun x => { x with
        ctle := (bestCtle (foms.take 287)).1, lfGain := (bestCtle (foms.take 287)).2
        tx := if (s.lcfg m.val).flags.testBit 2 then (List.range 5).map fun i => tx.getD i 0
          else presetTaps (s.lcfg m.val).preset
        precode := b2n (if (s.lcfg m.val).flags.testBit 2 then req else (s.lcfg m.val).flags.testBit 4) +
          2 * b2n ((s.lcfg m.val).flags.testBit 3) })) ∧
    ((s.lane m.val).st = .training →
      exec (.laneTrainingTimeout m) s = .next (laneDown (s.bump 0x2010 m.val 2) m.val)) ∧
    (∀ x : LaneReport, (s.lane m.val).st = .training → exec (.fomIntervalEnd m x) s =
      .next ((countReport s m.val x).updLane m.val fun y =>
        judgeFom (s.lcfg m.val).margin x.snr (postRuns (laneAdapts s.freeCtr x y))).draw) ∧
    (∀ c, (s.lane m.val).st = .up → (s.lane m.val).revertDue = some c → exec (.hostCtleStep m) s =
      .next ((s.updLane m.val fun y => { y with
        ctle := c, revertDue := none, ctleHold := true, postLow := 0, postHigh := 0 }).bump 0x2010 m.val 5)) ∧
    ((s.lane m.val).st = .up → (s.lane m.val).revertDue = none → (s.lane m.val).ctleHold = false →
      (s.lane m.val).stepFrom = none →
      (4 ≤ (s.lane m.val).postLow → (s.lane m.val).ctle < 40 → exec (.hostCtleStep m) s =
        .next (ctleStep s m.val ((s.lane m.val).ctle + 1))) ∧
      ((s.lane m.val).postLow < 4 → 4 ≤ (s.lane m.val).postHigh → 0 < (s.lane m.val).ctle → exec (.hostCtleStep m) s =
        .next (ctleStep s m.val ((s.lane m.val).ctle - 1)))) ∧
    exec (.hostCtleHoldEnd m) s = .next (s.updLane m.val fun x => { x with ctleHold := false }) ∧
    (∀ (skew : BitVec 16) order, s.linkWidth k.val ≠ 0 → (s.link k.val).st ≠ .up → skew.toNat ≤ 180 →
      order.length = s.linkWidth k.val → (∀ i < s.linkWidth k.val, i ∈ order) →
      (∀ n ∈ s.linkLanes k.val, (s.lane n).st = .up ∧ (s.lane n).rebond = false) →
      exec (.hostLinkUp k skew order) s = .next (
        let s1 := (s.updLink k.val fun x => { x with
          st := .up, lock := 3, skew := skew.toNat, order, since := s.now, rxCut := false }).bump 0x2012 k.val 17
        ebbLeft (raise s1 0x2001 0 (linkT k.val)
          (be 1 (s.linkWidth k.val) ++ be 1 (if (s.link k.val).wakeCause = 0 then 0 else 1))) k.val)) ∧
    ((s.link k.val).st = .up → (autoEbb s k.val = false ∨ s.linkWidth k.val ≠ 0) →
      exec (.hostLinkDown k [] true false) s = .next (linkRetrain (s.bump 0x2012 k.val 16) k.val 2) ∧
      exec (.hostLinkDown k [] false true) s = .next (linkRetrain s k.val 2)) ∧
    (∀ am fec, (s.link k.val).st ≠ .up → s.linkOf m.val = some k.val → s.linkLanes k.val = [m.val] → (s.lane m.val).st = .up →
      exec (.hostLinkDown k [m] am fec) s = .next (laneDown (s.bump 0x2010 m.val 0) m.val)) ∧
    ((s.link k.val).st = .up → autoEbb s k.val = true → exec (.ebbAutoEntry k) s =
      .next (ebbEnter (eachN s (s.linkLanes k.val) fun s m => s.bump 0x2010 m 0) k.val 2)) ∧
    (∀ l, s.linkOf m.val = some l → autoEbb s l = true → exec (.ebbSignalDetect m) s = .next (ebbWake s l 2)) ∧
    (∀ l, (s.lane m.val).st = .ebb → (s.lane m.val).waking = true →
      s.linkOf m.val = some l → exec (.ebbRetrainTimeout m) s =
        .next (ebbLeft (linkRest (laneDown (s.bump 0x2010 m.val 7) m.val) l) l)) ∧
    (∀ errors x, (s.lane m.val).scan = some x → x.status = 2 → x.points.length < scanTotal x →
      exec (.eyeScanPointEnd m errors) s = .next (s.updLane m.val fun y =>
        { y with scan := some { x with points := x.points ++ [sat 32 errors] } })) ∧
    (∀ x, (s.lane m.val).scan = some x → x.status = 2 → x.points.length = scanTotal x →
      exec (.eyeScanDone m) s = .next (endScan s m.val 0)) ∧
    ((s.link k.val).st ≠ .up → s.ctl.safeState = false →
      exec (.linkEgressFlush k) s = .next (flushEgress s (128 + k.val) (countFlush · (128 + k.val))))

/-- Frames into and out of the fabric (R102, R114 to R116, R276, R426 to R437). Where it rests on the model's choices, they are log
entries 61, 70, 81, 106, 123 and 143. -/
def Obligations.FrameEvents : Prop :=
  ∀ (e : Fin 192) (s : State),
    (∀ x : RxFrame, (e.val < 128 → (s.port e.val).st ≠ .test ∧ 2 < (s.port e.val).resMode) → egressLive s e.val = true →
      exec (.frameRx e.castSucc x) s = .next (liveRx s e.val x)) ∧
    (∀ x : RxFrame, exec (.frameRx 192 x) s = .next (mgmtFrame s x)) ∧
    (∀ x : RxFrame, e.val < 128 → (s.port e.val).st = .test →
      exec (.frameRx e.castSucc x) s = .next (testRx (cutRx s e.val x) e.val x)) ∧
    (∀ x : RxFrame, e.val < 128 → (s.port e.val).st ≠ .test → 2 < (s.port e.val).resMode → egressLive s e.val = true →
      (drainingPos s e.val = false ∨ x.began = true) → x.codeErr = true →
      let y := packetRx s e.val x
      exec (.frameRx e.castSucc x) s = .next (badFrame (countFrags y.1 e.val 1 y.2) e.val 1 y.2) ∧ y.2.codeErr = true) ∧
    (∀ x : RxFrame, e.val < 128 → (s.port e.val).st ≠ .test → 2 < (s.port e.val).resMode → egressLive s e.val = true →
      drainingPos s e.val = true → x.began = false →
      exec (.frameRx e.castSucc x) s = .next ((packetRx s e.val x).1.bump 0x6010 0 8)) ∧
    (∀ (started : Bool) (x : ReadErr) (t : Nat) (ds : List Nat) (turn : Nat), egressOpen s e.val = true →
      (e.val < 128 → 2 < (s.port e.val).resMode) →
      let s1 := (List.range 8).foldl (fun s t => dropLong e.val t (s.queue (qn e.val t)).length s) s
      schedule s1 e.val = some (t, ds, turn) → macFree s1 e.val t = true → exec (.frameDequeue e started x) s =
        .next (dequeueClass (s1.updEgr e.val fun x => { x with deficit := ds, turn }) e.val t started x)) ∧
    (∀ x upset under, e.val < 128 → (s.port e.val).st = .test →
      exec (.frameTxComplete e x upset under) s = .next (loopSent s e.val)) ∧
    (∀ x upset under m, (e.val < 128 → (s.port e.val).st ≠ .test) → (s.egr e.val).mac = some m → egressLive s e.val = true →
      exec (.frameTxComplete e x upset under) s = .next (txEnd s e.val m x upset under))

/-- Gates, preemption, FRER timers, time sync and PPS (R459 to R478). Where it rests on the model's choices, they are log entries
78, 82 and 144. -/
def Obligations.StreamAndTimeEvents : Prop :=
  ∀ (e : Fin 192) (s : State),
    (let l := cycleList (operOf s e.val).oper.cycle 0 (operOf s e.val).oper.list
     gatesRun s e.val = true →
      (((operOf s e.val).realign = true ∨ (operOf s e.val).cur + 1 < l.length ∨ cycleExtends s e.val = false) →
        exec (.gateChange e) s = .next (applyEntry s (updGcl (settleCredit s e.val) e.val fun x =>
          { x with cur := if !x.realign && x.cur + 1 < l.length then x.cur + 1 else 0, curAt := s.now, realign := false }) e.val)) ∧
      ((operOf s e.val).realign = false → l.length ≤ (operOf s e.val).cur + 1 → cycleExtends s e.val = true →
        exec (.gateChange e) s = .next s)) ∧
    ((s.cfg.streams.gcl.get {} e.val).waiting = true → exec (.gclConfigChange e) s = .next (
      let c := s.cfg.streams.gcl.get {} e.val
      let s2 := updGcl (updGclCfg s e.val fun g => { g with waiting := false }) e.val fun g =>
        { g with oper := c.admin, cur := 0, curAt := s.now, hold := false, realign := false }
      raise (if gatesRun s2 e.val then applyEntry s s2 e.val else if e.val < 128 then lpiSettle s2 e.val else s2) 0x3104 0 fabricT
        (be 2 e.val ++ be 2 c.admin.list.length))) ∧
    (∀ g : Fin 1024, exec (.streamGateChange g true) s = .next (updStrm s fun x =>
      { x with gates := x.gates.set none g.val ((s.cfg.streams.gates.get none g.val).map fun a => { oper := a, cur := 0 }) })) ∧
    (∀ (g : Fin 1024) (run : SGateRun), s.strm.gates.get none g.val = some run → exec (.streamGateChange g false) s = .next (
      let l := cycleList run.oper.cycle 0 (run.oper.list.map fun x => (x.1, 0, x.2))
      updStrm s fun x => { x with gates := x.gates.set none g.val (some { run with
        cur := if !run.realign && run.cur + 1 < l.length then run.cur + 1 else 0, realign := false }) })) ∧
    (∀ i : Fin 8192, s.cfg.streams.recs.get none i.val ≠ none → (s.strm.recs.get {} i.val).takeAny = false →
      (s.strm.recs.get {} i.val).expiredAt ≠ some s.now → exec (.frerResetTimeout i) s = .next ((updRec s i.val fun y =>
        { y with takeAny := true, seq := 0, history := [], expiredAt := some s.now }).bump 0x3122 i.val 6)) ∧
    (∀ (i : Fin 8192) (c : RecCfg), s.cfg.streams.recs.get none i.val = some c → c.flags.testBit 2 = true →
      exec (.frerLatentTest i) s = .next (
        let d := (latentDiff s i.val - (s.strm.recs.get {} i.val).base).natAbs
        let s1 := if c.latDiff < d then raise s 0x3103 1 fabricT (be 2 i.val ++ be 2 (sat 16 d)) else s
        (updRec s1 i.val fun y => { y with base := latentDiff s i.val }).bump 0x3122 i.val 7)) ∧
    (∀ (p : PortId) (ok : Bool), (s.strm.preempt.get {} p.val).verify = 1 → exec (.preemptVerifyDone p ok) s = .next (
      raise (setPreempt s p.val { verify := if ok then 2 else 3, active := ok }) 0x3105 1 (portT p.val)
        (be 1 p.val ++ be 1 (b2n !ok)))) ∧
    (∀ (i : Fin 4) (off rate : Int), gptpOn s i.val e.val = true → isSlave s i.val e.val = false →
      exec (.gptpMessageRx i e (.sync off rate)) s = .next (s.bump 0x3213 (i.val * 192 + e.val) 0)) ∧
    (∀ (i : Fin 4) (off rate : Int), gptpOn s i.val e.val = true → isSlave s i.val e.val = true →
      exec (.gptpMessageRx i e (.sync off rate)) s =
        .next (gptpSync (s.bump 0x3213 (i.val * 192 + e.val) 0) i.val e.val off rate)) ∧
    (∀ (i : Fin 4), gptpOn s i.val e.val = true →
      exec (.gptpMessageRx i e .pdelayReq) s = .next (s.bump 0x3213 (i.val * 192 + e.val) 2)) ∧
    (∀ (i : Fin 4) (m : GptpMsg), gptpOn s i.val e.val = false →
      exec (.gptpMessageRx i e m) s = .next (s.bump 0x3213 (i.val * 192 + e.val) 4)) ∧
    (∀ i : Fin 4, gptpOn s i.val e.val = true → isMaster s i.val e.val = true → posLive s e.val = true →
      exec (.gptpSyncTx i e) s = .next (s.bump 0x3213 (i.val * 192 + e.val) 1)) ∧
    (∀ i : Fin 4, gptpOn s i.val e.val = true → posLive s e.val = true →
      exec (.gptpPdelayTx i e) s = .next (s.bump 0x3213 (i.val * 192 + e.val) 3)) ∧
    (∀ rise, exec (.ppsOutPulse rise) s =
      .next { s with elec := { s.elec with ppsOut := rise && s.cfg.streams.pps.flags.testBit 0 } }) ∧
    (s.cfg.streams.pps.flags.testBit 1 = true → (∀ x, s.strm.edge = some x → 4000000 ≤ s.now - x.ticker) →
      exec .ppsInEdge s = .next (updStrm s fun x => { x with edge := some {
        seq := ((s.strm.edge.map (·.seq)).getD 0 + 1) % 2 ^ 32, valid := timeFlags s % 16, ticker := s.now
        bases := (List.range 4).map s.base } }))

/-- Copies, stale signals, digests and composed frames of the Tide Table (R484 to R499). Where it rests on the model's choices, they
are log entries 69, 71, 75, 76 and 144. -/
def Obligations.TideTableEvents : Prop :=
  ∀ s : State, tideRuns s = true →
    (∀ (e : Fin 16) parity corrected bad c l, s.tide.inputs.get [] e.val = c :: l →
      exec (.ttCopyProcess e parity corrected bad) s =
        .next (digests (takeCopy (ttCount (popCopy s e.val) e.val 16 corrected) e.val c parity bad))) ∧
    (∀ (n : Fin 131072) l d, ((definedAt s.cfg.tide n.val).bind fun x => s.cfg.tide.layouts.get none x.1) = some l →
      defOf s.cfg.tide n.val = some d → d.flags.testBit 4 = true → (s.sig n.val).state % 4 ≠ 2 →
      exec (.ttSignalStale n) s = .next (digests (storeSig (ttCount s (l.source % 16) 15 1) (l.source % 16) l d
        { s.sig n.val with state := (s.sig n.val).state / 4 * 4 + 2 }))) ∧
    (∀ k : Fin 16, (s.tide.routes.get {} k.val).recs ≠ [] → exec (.ttDigestFlush k) s = .next (sendDigest s k.val)) ∧
    (∀ (l : Fin 16384) c, s.cfg.tide.composes.get none l.val = some c → c.flags.testBit 0 = true →
      exec (.ttComposePeriodic l) s = .next (composeTrigger s 0 l.val)) ∧
    (∀ (l : Fin 16384) c, s.cfg.tide.composes.get none l.val = some c → (s.tide.composes.get {} l.val).held = true →
      exec (.ttComposeHoldEnd l) s = .next (composeSend s 3 l.val c))

/-! ### Pins, the ring and the sequencer -/

/-- What the line pins present, the way of cells between slices, and the bytes on the PMBus: rules that no single command shows. A
port in mode 0x02 keeps its high-impedance tap in every state (R258); one committed to mode 0x01 connects the internal termination in
states 1 to 5 and 7 and follows R103 in state 0 (R259), with the drivers of its power on and no loopback of a test. Between adjacent
slices cells take the one segment; between slices s and s+2 they run through increasing numbers for an even egress position and through
decreasing ones for an odd one (R419); a cell of a cut-through frame joins a ring stop ahead of all others, behind those of earlier
cut-through frames, and none is lost there (R421). A sequence of R542 ends in its PEC exactly where the AVS configuration asks for
it, and its first byte is the address. Where it rests on the model's choices, they are log entries 121, 143 and 145. -/
def Obligations.PinsRingAndSequencer : Prop :=
  (∀ (s : State) (p : Nat), let x := s.port p
    (x.resMode = 2 → (s.pcfg p).mode.neg = 0 → (s.pcfg p).mode.mode = 2 → linePins s p = .tap) ∧
    (x.resMode = 1 → (s.pcfg p).mode.mode = 1 → driversOff s = false →
      (x.st = .down ∨ x.st = .negotiating ∨ x.st = .training ∨ x.st = .up ∨ x.st = .lpi) → linePins s p = .terminated) ∧
    (x.resMode = 1 → (s.pcfg p).mode.mode = 1 → driversOff s = false → x.st = .test → within x.test.action 1 3 = false →
      linePins s p = .terminated) ∧
    ((s.pcfg p).mode.mode ≠ 2 → x.st = .quiet → linePins s p = .disconnected)) ∧
  (∀ i e, i < 4 →
    ringPath i ((i + 1) % 4) e = [2 * i] ∧ ringPath i ((i + 3) % 4) e = [2 * i + 1] ∧ ringPath i i e = [] ∧
    (e % 2 = 0 → ringPath i ((i + 2) % 4) e = [2 * i, 2 * ((i + 1) % 4)]) ∧
    (e % 2 = 1 → ringPath i ((i + 2) % 4) e = [2 * i + 1, 2 * ((i + 3) % 4) + 1])) ∧
  (∀ (c : Crossing) (l : List Crossing), (joinStop c l).Perm (c :: l) ∧
    (l.Pairwise (fun a b => b.cut = true → a.cut = true) →
      (joinStop c l).Pairwise (fun a b => b.cut = true → a.cut = true)) ∧
    (c.cut = false → joinStop c l = l ++ [c])) ∧
  (∀ (avs : Nat × Nat × Nat) (cmd : Nat) (data : List Byte), let b := be 1 (2 * avs.1) ++ be 1 cmd ++ data
    (avs.2.1.testBit 0 = false → pmbusWrite avs cmd data = b) ∧
    (avs.2.1.testBit 0 = true → pmbusWrite avs cmd data = b ++ be 1 (pec b) ∧ pec (b ++ be 1 (pec b)) = 0)) ∧
  (∀ s : State, (s.rst.asserted = true ∨ s.rst.fusesLoaded = false) → pmbusNow s = none)
end

