-- ==== Sys2Proof/Laws/Command.lean ====
section
/-! SUPPORT. What serving a request does (R47): the one lemma that statements about a host opcode cite. -/

namespace Sys2Proof.Machine

theorem flags_clear {r : Req} (h : r.flags &&& 0xFC = 0) :
    r.flags.getLsbD 7 = false ∧ staged r = false ∧ r.flags.toNat &&& 0x78 = 0 := by
  have h1 : ∀ f : BitVec 8, f &&& 0xFC = 0 →
      f.getLsbD 7 = false ∧ f.getLsbD 2 = false ∧ f.toNat &&& 0x78 = 0 := by decide
  exact h1 r.flags h

/-- Every check of R47 passes for a taken request. -/
theorem judge_taken {c : Cmd} {r : Req} {s : State} (h : Taken c r s) : judge (received r s) c r = .run := by
  obtain ⟨_, _, hh, ha, hf, hv, hr, hs, ht, hl, hc, h9⟩ := h
  obtain ⟨h7, hst, h78⟩ := flags_clear hf
  have hp : permitted (received r s) c r = true := by
    have e4 : (received r s).rst = s.rst := rfl
    have h1 : (!c.spiOnly || sn r == 0) = true := by
      cases hsp : c.spiOnly
      · rfl
      · simp [hs hsp]
    rcases hh with hb | ⟨h2, _⟩
    · simp [permitted, h1, hst, hb]
    · simp [permitted, h1, hst, e4, h2]
  have h7' : r.flags[7] = false := h7
  simp [judge, ha, h7', hv, hp, judge69, hst, ht, hl, step8, h78, hr, hc, h9]

/-- A taken request is executed: nothing else of R47 happens to it. -/
theorem serve_taken {c : Cmd} {r : Req} {s : State} (h : Taken c r s) :
    serve c r s = execCmd (received r s) c r := by
  have hj := judge_taken h
  obtain ⟨hf, ho, hh, _⟩ := h
  have hj' : judge (s.bump 0x0003 (sn r) 0) c r = .run := hj
  have hs : (!s.ctl.feReady || !sourceOpen s c.bw (sn r)) = false := by simp [hf, ho]
  simp only [serve, hs, act, hj', received, Bool.false_eq_true, if_false]
  rcases hh with hb | ⟨h2, hq⟩
  · simp [hb]
  · simp [serving, h2, hq]

end Sys2Proof.Machine
end

