-- ==== Sys2Proof/Laws/Tab.lean ====
section
/-! SUPPORT. Laws of sparse tables and of the MRAM: a read after a write, and the canonical form that every write keeps. -/

namespace Sys2Proof.Machine

variable {α : Type} {d : α} {t : Tab α} {k : Nat} {a : α}

/-! ### Reading after a change -/

theorem Tab.get_put_self : Tab.get d (t.put k a) k = a := by
  induction t with
  | nil => simp [Tab.put, Tab.get]
  | cons x t ih =>
    obtain ⟨j, b⟩ := x
    unfold Tab.put
    split
    · simp [Tab.get]
    · split
      · simp [Tab.get]
      · rename_i h1 _
        simp only [Tab.get, if_neg h1]
        exact ih

theorem Tab.get_put_ne {i : Nat} (h : i ≠ k) : Tab.get d (t.put k a) i = Tab.get d t i := by
  induction t with
  | nil => simp [Tab.put, Tab.get, h]
  | cons x t ih =>
    obtain ⟨j, b⟩ := x
    unfold Tab.put
    split
    · rename_i e; subst e; simp [Tab.get, h]
    · split
      · rw [Tab.get, if_neg h]
      · unfold Tab.get; rw [ih]

theorem Tab.get_erase_ne {i : Nat} (h : i ≠ k) : Tab.get d (t.erase k) i = Tab.get d t i := by
  induction t with
  | nil => rfl
  | cons x t ih =>
    obtain ⟨j, b⟩ := x
    unfold Tab.erase
    split
    · rename_i e; subst e; simp [Tab.get, h]
    · split
      · rfl
      · unfold Tab.get; rw [ih]

/-- Below every number of a table in rising order, an unlisted number reads as `d`. -/
theorem Tab.get_below (h : ∀ e ∈ t, k < e.1) : Tab.get d t k = d := by
  induction t with
  | nil => rfl
  | cons x t ih =>
    obtain ⟨j, b⟩ := x
    have hj := h (j, b) (by simp)
    rw [Tab.get, if_neg (by simpa using Nat.ne_of_lt hj)]
    exact ih fun e he => h e (by simp [he])

theorem Tab.get_erase_self (h : t.Pairwise fun x y => x.1 < y.1) : Tab.get d (t.erase k) k = d := by
  induction t with
  | nil => rfl
  | cons x t ih =>
    obtain ⟨j, b⟩ := x
    obtain ⟨h1, h2⟩ := List.pairwise_cons.mp h
    unfold Tab.erase
    split
    · rename_i e; subst e; exact Tab.get_below h1
    · rename_i hne
      split
      · rename_i hlt
        refine Tab.get_below fun e he => ?_
        rcases List.mem_cons.mp he with rfl | he
        · exact hlt
        · exact Nat.lt_trans hlt (h1 e he)
      · rw [Tab.get, if_neg hne]; exact ih h2

variable [DecidableEq α]

theorem Tab.get_set_ne {i : Nat} (h : i ≠ k) : Tab.get d (t.set d k a) i = Tab.get d t i := by
  unfold Tab.set
  split
  · exact Tab.get_erase_ne h
  · exact Tab.get_put_ne h

theorem Tab.get_set_self (h : Tab.wf d t) : Tab.get d (t.set d k a) k = a := by
  unfold Tab.set
  split
  · rename_i e; rw [e]; exact Tab.get_erase_self h.1
  · exact Tab.get_put_self

theorem Tab.get_upd_ne {i : Nat} {f : α → α} (h : i ≠ k) : Tab.get d (t.upd d k f) i = Tab.get d t i := Tab.get_set_ne h

theorem Tab.get_upd_self {f : α → α} (h : Tab.wf d t) : Tab.get d (t.upd d k f) k = f (Tab.get d t k) := Tab.get_set_self h

/-! ### The canonical form -/

omit [DecidableEq α] in
theorem Tab.mem_put {e : Nat × α} (h : e ∈ t.put k a) : e = (k, a) ∨ e ∈ t := by
  induction t with
  | nil => simpa [Tab.put] using h
  | cons x t ih =>
    obtain ⟨j, b⟩ := x
    unfold Tab.put at h
    split at h
    · rcases List.mem_cons.mp h with h | h
      · exact .inl h
      · exact .inr (by simp [h])
    · split at h
      · rcases List.mem_cons.mp h with h | h
        · exact .inl h
        · exact .inr h
      · rcases List.mem_cons.mp h with h | h
        · exact .inr (by simp [h])
        · rcases ih h with h | h
          · exact .inl h
          · exact .inr (by simp [h])

omit [DecidableEq α] in
theorem Tab.mem_erase {e : Nat × α} (h : e ∈ t.erase k) : e ∈ t := by
  induction t with
  | nil => simp [Tab.erase] at h
  | cons x t ih =>
    obtain ⟨j, b⟩ := x
    unfold Tab.erase at h
    split at h
    · simp [h]
    · split at h
      · exact h
      · rcases List.mem_cons.mp h with h | h
        · simp [h]
        · simp [ih h]

omit [DecidableEq α] in
theorem Tab.rise_put (h : t.Pairwise fun x y => x.1 < y.1) : (t.put k a).Pairwise fun x y => x.1 < y.1 := by
  induction t with
  | nil => simp [Tab.put]
  | cons x t ih =>
    obtain ⟨j, b⟩ := x
    obtain ⟨h1, h2⟩ := List.pairwise_cons.mp h
    unfold Tab.put
    split
    · rename_i e; subst e; exact List.pairwise_cons.mpr ⟨h1, h2⟩
    · split
      · rename_i hlt
        refine List.pairwise_cons.mpr ⟨fun e he => ?_, h⟩
        rcases List.mem_cons.mp he with rfl | he
        · exact hlt
        · exact Nat.lt_trans hlt (h1 e he)
      · refine List.pairwise_cons.mpr ⟨fun e he => ?_, ih h2⟩
        rcases Tab.mem_put he with rfl | he
        · simp only; omega
        · exact h1 e he

omit [DecidableEq α] in
theorem Tab.rise_erase (h : t.Pairwise fun x y => x.1 < y.1) : (t.erase k).Pairwise fun x y => x.1 < y.1 := by
  induction t with
  | nil => simp [Tab.erase]
  | cons x t ih =>
    obtain ⟨j, b⟩ := x
    obtain ⟨h1, h2⟩ := List.pairwise_cons.mp h
    unfold Tab.erase
    split
    · exact h2
    · split
      · exact h
      · exact List.pairwise_cons.mpr ⟨fun e he => h1 e (Tab.mem_erase he), ih h2⟩

/-- A write keeps the canonical form. -/
theorem Tab.wf_set (h : Tab.wf d t) : Tab.wf d (t.set d k a) := by
  unfold Tab.set
  split
  · exact ⟨Tab.rise_erase h.1, fun e he => h.2 e (Tab.mem_erase he)⟩
  · rename_i hd
    refine ⟨Tab.rise_put h.1, fun e he => ?_⟩
    rcases Tab.mem_put he with rfl | he
    · exact hd
    · exact h.2 e he

theorem Tab.wf_upd {f : α → α} (h : Tab.wf d t) : Tab.wf d (t.upd d k f) := Tab.wf_set h

omit [DecidableEq α] in
theorem Tab.wf_dropRange {lo hi : Nat} (h : Tab.wf d t) : Tab.wf d (t.dropRange lo hi) :=
  ⟨h.1.filter _, fun e he => h.2 e (List.mem_of_mem_filter he)⟩

/-! ### The MRAM -/

/-- Every write of bytes keeps the MRAM's canonical form. -/
theorem mramWrite_wf {m : List Host.Cell} {a : Nat} {bs : List Byte} (h : Memory.wf m) : Memory.wf (mramWrite m a bs) := by
  induction bs generalizing m a with
  | nil => exact h
  | cons b bs ih => exact ih (Tab.wf_set h)

/-- A byte outside what a write covers reads as before. -/
theorem mramByte_write_out {m : List Host.Cell} {a x : Nat} {bs : List Byte} (h : x < a ∨ a + bs.length ≤ x) :
    mramByte (mramWrite m a bs) x = mramByte m x := by
  induction bs generalizing m a with
  | nil => rfl
  | cons b bs ih =>
    rw [List.length_cons] at h
    refine (ih (by omega)).trans ?_
    exact Tab.get_set_ne (by omega)

/-- A byte that a write covers reads as what was written. -/
theorem mramByte_write_in {m : List Host.Cell} {a i : Nat} {bs : List Byte} (hm : Memory.wf m) (h : i < bs.length) :
    mramByte (mramWrite m a bs) (a + i) = bs[i] := by
  induction bs generalizing m a i with
  | nil => simp at h
  | cons b bs ih =>
    cases i with
    | zero =>
      have h1 : mramByte (mramWrite (Tab.set 0 m a b) (a + 1) bs) a = mramByte (Tab.set 0 m a b) a :=
        mramByte_write_out (.inl (Nat.lt_succ_self a))
      exact h1.trans (Tab.get_set_self hm)
    | succ i =>
      have := ih (m := Tab.set 0 m a b) (a := a + 1) (Tab.wf_set hm) (Nat.lt_of_succ_lt_succ h)
      rw [show a + (i + 1) = a + 1 + i by omega]
      exact this

end Sys2Proof.Machine
end

