-- ==== Sys2Proof/Laws/Keep.lean ====
section
/-! SUPPORT. What a meaning keeps, said once for every operation: the invariant of Safety, the queue of commands, and whatever is
asked of the MRAM, the fuses, the committed configuration and the `SAFE_STATE` override. The other `Keep` files hold one lemma
`keep_f` for each operation `f`; an operation that writes one of the four asks for the right to. -/

namespace Sys2Proof.Machine

/-- What is asked of the parts of the state that few operations write. -/
structure Hold where
  queue : List Instr
  mram : List Host.Cell → Prop := fun _ => True
  fuses : Fuses → Prop := fun _ => True
  cfg : Cfg → Prop := fun _ => True
  safe : Bool → Prop := fun _ => True

/-- Any write of the MRAM is allowed. -/
def Hold.freeM (k : Hold) : Prop := ∀ m a bs, k.mram m → k.mram (mramWrite m a bs)
/-- Any change of the fuses is allowed. -/
def Hold.freeF (k : Hold) : Prop := ∀ a b, k.fuses a → k.fuses b
/-- Any change of the committed configuration is allowed. -/
def Hold.freeC (k : Hold) : Prop := ∀ a b, k.cfg a → k.cfg b
/-- Any change of the `SAFE_STATE` override is allowed. -/
def Hold.freeS (k : Hold) : Prop := ∀ a b, k.safe a → k.safe b

/-- The state holds the invariant and what `k` asks. -/
def Keep (k : Hold) (s : State) : Prop :=
  s.pending = k.queue ∧ s.ctl.events.length ≤ 4096 ∧ repliesFit s ∧ s.integ.record.length ≤ 64 ∧ eventsRise s ∧
    Memory.wf s.nvm.mem ∧ countersFit s ∧ s.epoch.state ≤ 3 ∧ s.rst.headland ≤ 4 ∧ k.mram s.nvm.mem ∧ k.fuses s.fuses ∧
    k.cfg s.cfg ∧ k.safe s.ctl.safeState

/-- A next state holds it. -/
def KeepO (k : Hold) (o : Host.Outcome State Fault Refusal) : Prop := ∀ t, o = .next t → Keep k t
/-- The effect of a command keeps it. -/
def KeepC (k : Hold) (c : Cmd) : Prop := ∀ s r, Keep k s → Keep k (c.run s r).1

variable {k : Hold} {s : State}

theorem keep_iff : Keep k s ↔
    s.pending = k.queue ∧ s.Ok ∧ k.mram s.nvm.mem ∧ k.fuses s.fuses ∧ k.cfg s.cfg ∧ k.safe s.ctl.safeState := by
  unfold Keep State.Ok; tauto

/-- An update of fields that the invariant does not speak of. -/
theorem keep_upd {now fc ep mj clr clk rst cal st el po re ba pw co la li eb fa sm ti} {c : Ctl} {i : Integ} {n : Nvm}
    (h : Keep k s) (h1 : c.events = s.ctl.events) (h2 : c.nextEvent = s.ctl.nextEvent) (h3 : c.spiQueue = s.ctl.spiQueue)
    (h4 : i.record = s.integ.record) (h5 : n.mem = s.nvm.mem) (h6 : c.safeState = s.ctl.safeState)
    (h7 : ep.state = s.epoch.state ∨ ep.state ≤ 3) (h8 : rst.headland = s.rst.headland ∨ rst.headland ≤ 4) :
    Keep k (State.mk s.pending now fc c s.fuses s.cfg ep mj s.counters clr i clk rst n cal st el po re ba pw co la li eb fa
      sm ti) := by
  obtain ⟨hp, a, ⟨b1, b2⟩, c', ⟨d1, d2⟩, e, f, g, k', m, fu, cf, sa⟩ := h
  simp only [Keep, repliesFit, eventsRise, h1, h2, h3, h4, h5, h6]
  exact ⟨hp, a, ⟨b1, b2⟩, c', ⟨d1, d2⟩, e, f, h7.elim (fun e => e ▸ g) id, h8.elim (fun e => e ▸ k') id, m, fu, cf, sa⟩

/-- The same, where the committed configuration is one more of them. -/
theorem keep_updc {now fc cfg ep mj clr clk rst cal st el po re ba pw co la li eb fa sm ti} {c : Ctl} {i : Integ} {n : Nvm}
    (h : Keep k s) (hc : k.freeC) (h1 : c.events = s.ctl.events) (h2 : c.nextEvent = s.ctl.nextEvent)
    (h3 : c.spiQueue = s.ctl.spiQueue) (h4 : i.record = s.integ.record) (h5 : n.mem = s.nvm.mem)
    (h6 : c.safeState = s.ctl.safeState) (h7 : ep.state = s.epoch.state ∨ ep.state ≤ 3)
    (h8 : rst.headland = s.rst.headland ∨ rst.headland ≤ 4) :
    Keep k (State.mk s.pending now fc c s.fuses cfg ep mj s.counters clr i clk rst n cal st el po re ba pw co la li eb fa
      sm ti) := by
  obtain ⟨hp, a, ⟨b1, b2⟩, c', ⟨d1, d2⟩, e, f, g, k', m, fu, cf, sa⟩ := h
  simp only [Keep, repliesFit, eventsRise, h1, h2, h3, h4, h5, h6]
  exact ⟨hp, a, ⟨b1, b2⟩, c', ⟨d1, d2⟩, e, f, h7.elim (fun e => e ▸ g) id, h8.elim (fun e => e ▸ k') id, m, fu, hc _ _ cf, sa⟩

theorem keep_fuses {f : Fuses} (h : Keep k s) (hf : k.freeF) : Keep k { s with fuses := f } := by
  obtain ⟨hp, a, b, c, d, e, f', g, k', m, fu, cf⟩ := h
  exact ⟨hp, a, b, c, d, e, f', g, k', m, hf _ _ fu, cf⟩

theorem keep_safe {v : Bool} (h : Keep k s) (hs : k.freeS) : Keep k { s with ctl := { s.ctl with safeState := v } } := by
  obtain ⟨hp, a, b, c, d, e, f', g, k', m, fu, cf, sa⟩ := h
  exact ⟨hp, a, b, c, d, e, f', g, k', m, fu, cf, hs _ _ sa⟩

/-- Counters may change as long as they fit. -/
theorem keep_counters {cnt clr} (h : Keep k s) (hc : Tab.wf 0 cnt ∧ ∀ e ∈ cnt, e.2 < 2 ^ 64) :
    Keep k { s with counters := cnt, cleared := clr } := by
  obtain ⟨hp, a, b, c, d, e, _, g⟩ := h
  exact ⟨hp, a, b, c, d, e, hc, g⟩

theorem counters_of_keep (h : Keep k s) : Tab.wf 0 s.counters ∧ ∀ e ∈ s.counters, e.2 < 2 ^ 64 := h.2.2.2.2.2.2.1

theorem counters_drop {t : Tab Nat} {lo hi : ℕ} (hc : Tab.wf 0 t ∧ ∀ e ∈ t, e.2 < 2 ^ 64) :
    Tab.wf 0 (t.dropRange lo hi) ∧ ∀ e ∈ t.dropRange lo hi, e.2 < 2 ^ 64 :=
  ⟨Tab.wf_dropRange hc.1, fun e he => hc.2 e (List.mem_of_mem_filter he)⟩

theorem keep_foldl {α : Type} {l : List α} {f : State → α → State} (h : Keep k s) (hf : ∀ s x, Keep k s → Keep k (f s x)) :
    Keep k (l.foldl f s) := by
  induction l generalizing s with
  | nil => exact h
  | cons a l ih => exact ih (hf _ _ h)

theorem keep_foldl1 {α β : Type} {l : List α} {f : State × β → α → State × β} {a : State × β} (h : Keep k a.1)
    (hf : ∀ a x, Keep k a.1 → Keep k (f a x).1) : Keep k (l.foldl f a).1 := by
  induction l generalizing a with
  | nil => exact h
  | cons x l ih => exact ih (hf _ _ h)

theorem keep_eachN {l : List Nat} {f : State → Nat → State} (h : Keep k s) (hf : ∀ s x, Keep k s → Keep k (f s x)) :
    Keep k (eachN s l f) := keep_foldl h hf

theorem keepO_next (h : Keep k s) : KeepO k (.next s) := by
  intro t e; cases e; exact h

end Sys2Proof.Machine
end

