-- ==== Sys2Proof/Laws/KeepOps.lean ====
section
/-! SUPPORT. What the operations of Machine/Ops.lean keep of `Laws.Keep`: one lemma for each. -/

set_option linter.unusedVariables false
set_option linter.unreachableTactic false
set_option linter.unusedTactic false

namespace Sys2Proof.Machine

variable {H : Hold}

theorem keep_State_bumpBy {s : State} {op blk idx n : Nat} (h : Keep H s) : Keep H (s.bumpBy op blk idx n) := by
  have hc := counters_of_keep h
  refine keep_counters h ⟨Tab.wf_upd hc.1, ?_⟩
  intro e he
  unfold Tab.upd Tab.set at he
  split at he
  · exact hc.2 e (Tab.mem_erase he)
  · rcases Tab.mem_put he with rfl | he
    · exact Nat.mod_lt _ (by decide)
    · exact hc.2 e he

theorem keep_State_updPort {s : State} {p : Nat} {f : Port → Port} (h : Keep H s) : Keep H (State.updPort s p f) := by
  unfold State.updPort; try dsimp only
  repeat' first
    | with_reducible
      first
      | assumption | ((conv => arg 2; arg 20); apply keep_upd) | exact rfl | exact .inl rfl
    | (with_reducible apply Or.inr); exact Nat.le_of_ble_eq_true rfl | dsimp only | split

theorem keep_State_bump {s : State} {op : Nat} {blk : Nat} {idx : Nat} (h : Keep H s) : Keep H (State.bump s op blk idx) := by
  unfold State.bump; try dsimp only
  repeat' first
    | with_reducible
      first
      | assumption | apply keep_State_bumpBy
    | dsimp only | split

theorem keep_State_draw {s : State} (h : Keep H s) : Keep H (State.draw s) := by
  unfold State.draw; try dsimp only
  repeat' first
    | with_reducible
      first
      | assumption | ((conv => arg 2; arg 20); apply keep_upd) | exact rfl | exact .inl rfl
    | (with_reducible apply Or.inr); exact Nat.le_of_ble_eq_true rfl | dsimp only | split

theorem keep_pushEvent {s : State} {code sev src op tag : Nat} {detail : List Byte} (h : Keep H s)
    (hl : s.ctl.events.length < 4096) : Keep H (pushEvent s code sev src op tag detail) := by
  obtain ⟨hp, a, b, c, ⟨d1, d2⟩, e⟩ := h
  refine ⟨hp, ?_, b, c, ⟨?_, ?_⟩, e⟩
  · simp only [pushEvent, List.length_append, List.length_singleton]; omega
  · simp only [pushEvent, List.pairwise_append, List.pairwise_singleton, List.mem_singleton, true_and]
    refine ⟨d1, ?_⟩
    rintro x hx _ rfl
    exact d2 x hx
  · simp only [pushEvent, List.mem_append, List.mem_singleton]
    rintro x (hx | rfl)
    · exact Nat.lt_succ_of_lt (d2 x hx)
    · exact Nat.lt_succ_self _

theorem keep_raiseFor {s : State} {code sev src op tag : Nat} {detail : List Byte} (h : Keep H s) :
    Keep H (raiseFor s code sev src op tag detail) := by
  unfold raiseFor
  split
  · exact keep_pushEvent h ‹_›
  · exact keep_State_bump (keep_upd h rfl rfl rfl rfl rfl rfl (.inl rfl) (.inl rfl))

theorem keep_raise {s : State} {code : Nat} {sev : Nat} {src : Nat} {detail : List Byte} (h : Keep H s)
    : Keep H (raise s code sev src detail) := by
  unfold raise; try dsimp only
  repeat' first
    | with_reducible
      first
      | assumption | apply keep_raiseFor
    | dsimp only | split

theorem keep_raiseReady {s : State} {code : Nat} {sev : Nat} {src : Nat} {op : Nat} {tag : Nat} {detail : List Byte} (h
    : Keep H s) : Keep H (raiseReady s code sev src op tag detail) := by
  unfold raiseReady; try dsimp only
  repeat' first
    | with_reducible
      first
      | assumption | apply keep_raiseFor | ((conv => arg 2; arg 20); apply keep_upd) | exact rfl | exact .inl rfl
    | (with_reducible apply Or.inr); exact Nat.le_of_ble_eq_true rfl | dsimp only | split

theorem keep_complete {s : State} {op : Nat} {tag : Nat} {target : Nat} {st : Status} (h : Keep H s)
    : Keep H (complete s op tag target st) := by
  unfold complete; try dsimp only
  repeat' first
    | with_reducible
      first
      | assumption | apply keep_raiseReady
    | dsimp only | split

theorem keep_closeWaiter {s : State} {w : Waiter} {target : Nat} {st : Status} (h : Keep H s)
    : Keep H (closeWaiter s w target st) := by
  unfold closeWaiter; try dsimp only
  repeat' first
    | with_reducible
      first
      | assumption | apply keep_complete
    | dsimp only | split

theorem keep_countStomp {s : State} {e' : Nat} (h : Keep H s) : Keep H (countStomp s e') := by
  unfold countStomp; try dsimp only
  repeat' first
    | with_reducible
      first
      | assumption | apply keep_State_bump
    | dsimp only | split

theorem keep_countDown {s : State} {e' : Nat} (h : Keep H s) : Keep H (countDown s e') := by
  unfold countDown; try dsimp only
  repeat' first
    | with_reducible
      first
      | assumption | apply keep_State_bump
    | dsimp only | split

theorem keep_State_updEgr {s : State} {e' : Nat} {f : Egress → Egress} (h : Keep H s) : Keep H (State.updEgr s e' f) := by
  unfold State.updEgr; try dsimp only
  repeat' first
    | with_reducible
      first
      | assumption | ((conv => arg 2; arg 20); apply keep_upd) | exact rfl | exact .inl rfl
    | (with_reducible apply Or.inr); exact Nat.le_of_ble_eq_true rfl | dsimp only | split

theorem keep_addLoad {s : State} {k' : Nat} {n : Nat} (h : Keep H s) : Keep H (addLoad s k' n) := by
  unfold addLoad; try dsimp only
  repeat' first
    | with_reducible
      first
      | assumption | ((conv => arg 2; arg 20); apply keep_upd) | exact rfl | exact .inl rfl
    | (with_reducible apply Or.inr); exact Nat.le_of_ble_eq_true rfl | with_reducible intro _ | dsimp only | split

theorem keep_cellsWritten {s : State} {i : Nat} {n : Nat} (h : Keep H s) : Keep H (cellsWritten s i n) := by
  unfold cellsWritten; try dsimp only
  repeat' first
    | with_reducible
      first
      | assumption | apply keep_addLoad | apply keep_State_bumpBy
    | with_reducible intro _ | dsimp only | split

theorem keep_cellsRead {s : State} {i : Nat} {n : Nat} (h : Keep H s) : Keep H (cellsRead s i n) := by
  unfold cellsRead; try dsimp only
  repeat' first
    | with_reducible
      first
      | assumption | apply keep_addLoad | apply keep_State_bumpBy
    | with_reducible intro _ | dsimp only | split

theorem keep_enterRing {s : State} {path : List Nat} {c : Crossing} (h : Keep H s) : Keep H (enterRing s path c) := by
  unfold enterRing; try dsimp only
  repeat' first
    | with_reducible
      first
      | assumption | apply keep_addLoad | apply keep_eachN | ((conv => arg 2; arg 20); apply keep_upd) | exact rfl |
          exact .inl rfl
    | (with_reducible apply Or.inr); exact Nat.le_of_ble_eq_true rfl | with_reducible intro _ | dsimp only | split

theorem keep_leaveRing {s : State} {e' : Nat} {cls : Option Nat} (h : Keep H s) : Keep H (leaveRing s e' cls) := by
  unfold leaveRing; try dsimp only
  repeat' first
    | with_reducible
      first
      | assumption | apply keep_eachN | ((conv => arg 2; arg 20); apply keep_upd) | exact rfl | exact .inl rfl
    | (with_reducible apply Or.inr); exact Nat.le_of_ble_eq_true rfl | with_reducible intro _ | dsimp only | split

theorem keep_dropMac {s : State} {e' : Nat} (h : Keep H s) : Keep H (dropMac s e') := by
  unfold dropMac; try dsimp only
  repeat' first
    | with_reducible
      first
      | assumption | apply keep_countStomp | apply keep_countDown | apply keep_leaveRing | apply keep_State_updEgr |
          ((conv => arg 2; arg 20); apply keep_upd) | exact rfl | exact .inl rfl
    | (with_reducible apply Or.inr); exact Nat.le_of_ble_eq_true rfl | with_reducible intro _ | dsimp only | split

theorem keep_State_clearCnt {s : State} {op blk : Nat} (h : Keep H s) : Keep H (s.clearCnt op blk) :=
  keep_counters h (counters_drop (counters_of_keep h))

theorem keep_State_updLink {s : State} {k : Nat} {f : Link → Link} (h : Keep H s) : Keep H (State.updLink s k f) := by
  unfold State.updLink; try dsimp only
  repeat' first
    | with_reducible
      first
      | assumption | ((conv => arg 2; arg 20); apply keep_upd) | exact rfl | exact .inl rfl
    | (with_reducible apply Or.inr); exact Nat.le_of_ble_eq_true rfl | dsimp only | split

theorem keep_State_updLane {s : State} {m : Nat} {f : Lane → Lane} (h : Keep H s) : Keep H (State.updLane s m f) := by
  unfold State.updLane; try dsimp only
  repeat' first
    | with_reducible
      first
      | assumption | ((conv => arg 2; arg 20); apply keep_upd) | exact rfl | exact .inl rfl
    | (with_reducible apply Or.inr); exact Nat.le_of_ble_eq_true rfl | dsimp only | split

theorem keep_State_updSlice {s : State} {i : Nat} {f : Slice → Slice} (h : Keep H s) : Keep H (State.updSlice s i f) := by
  unfold State.updSlice; try dsimp only
  repeat' first
    | with_reducible
      first
      | assumption | ((conv => arg 2; arg 20); apply keep_upd) | exact rfl | exact .inl rfl
    | (with_reducible apply Or.inr); exact Nat.le_of_ble_eq_true rfl | dsimp only | split

theorem keep_setPresent {s : State} {k : Nat} {on : Bool} (h : Keep H s) : Keep H (setPresent s k on) := by
  unfold setPresent; try dsimp only
  repeat' first
    | with_reducible
      first
      | assumption | ((conv => arg 2; arg 20); apply keep_upd) | exact rfl | exact .inl rfl
    | (with_reducible apply Or.inr); exact Nat.le_of_ble_eq_true rfl | dsimp only | split

theorem keep_poolRecover {s : State} {i : Nat} (h : Keep H s) : Keep H (poolRecover s i) := by
  unfold poolRecover; try dsimp only
  repeat' first
    | with_reducible
      first
      | assumption | apply keep_raise | apply keep_State_updSlice
    | with_reducible intro _ | dsimp only | split

theorem keep_releaseFrame {s : State} {q : Nat} {i : Nat} (h : Keep H s) : Keep H (releaseFrame s q i) := by
  unfold releaseFrame; try dsimp only
  repeat' first
    | with_reducible
      first
      | assumption | apply keep_poolRecover | ((conv => arg 2; arg 20); apply keep_upd) | exact rfl | exact .inl rfl
    | (with_reducible apply Or.inr); exact Nat.le_of_ble_eq_true rfl | dsimp only | split

theorem keep_unqueue {s : State} {q : Nat} {i : Nat} (h : Keep H s) : Keep H (unqueue s q i) := by
  unfold unqueue; try dsimp only
  repeat' first
    | with_reducible
      first
      | assumption | apply keep_releaseFrame | ((conv => arg 2; arg 20); apply keep_upd) | exact rfl | exact .inl rfl
    | (with_reducible apply Or.inr); exact Nat.le_of_ble_eq_true rfl | dsimp only | split

theorem keep_State_updPcfg {s : State} {p : Nat} {f : PortCfg → PortCfg} (hc : H.freeC) (h : Keep H s)
    : Keep H (State.updPcfg s p f) := by
  unfold State.updPcfg; try dsimp only
  repeat' first
    | with_reducible
      first
      | assumption | ((conv => arg 2; arg 20); apply keep_upd) | ((conv => arg 2; arg 20); apply keep_updc) | exact rfl
      | exact .inl rfl
    | (with_reducible apply Or.inr); exact Nat.le_of_ble_eq_true rfl | dsimp only | split

theorem keep_faultEntry {s : State} {code cls src : Nat} {detail : List Byte} (h : Keep H s) :
    Keep H (faultEntry s code cls src detail) := by
  unfold faultEntry
  apply keep_State_bump
  obtain ⟨hp, a, b, c, d, e⟩ := h
  exact ⟨hp, a, b, by simp only [List.length_take]; omega, d, e⟩

theorem keep_safetyFault {s : State} {k : Nat} {src : Nat} {detail : List Byte} (h : Keep H s)
    : Keep H (safetyFault s k src detail) := by
  unfold safetyFault; try dsimp only
  repeat' first
    | with_reducible
      first
      | assumption | apply keep_faultEntry | apply keep_State_bump | apply keep_raise
      | ((conv => arg 2; arg 20); apply keep_upd) | exact rfl | exact .inl rfl
    | (with_reducible apply Or.inr); exact Nat.le_of_ble_eq_true rfl | dsimp only | split

theorem keep_rateError {s : State} {w : Nat} {bank : Nat} (h : Keep H s) : Keep H (rateError s w bank) := by
  unfold rateError; try dsimp only
  repeat' first
    | with_reducible
      first
      | assumption | apply keep_safetyFault | ((conv => arg 2; arg 20); apply keep_upd) | exact rfl | exact .inl rfl
    | (with_reducible apply Or.inr); exact Nat.le_of_ble_eq_true rfl | dsimp only | split

theorem keep_flushQueue {s : State} {q : Nat} {count : State → State} (h : Keep H s) (hcount
    : ∀ s, Keep H s → Keep H (count s)) : Keep H (flushQueue s q count) := by
  unfold flushQueue; try dsimp only
  repeat' first
    | with_reducible
      first
      | assumption | apply hcount | apply keep_unqueue | apply keep_foldl | apply keep_foldl1
    | with_reducible intro _ | dsimp only | split

theorem keep_flushEgress {s : State} {e' : Nat} {count : State → State} (h : Keep H s) (hcount
    : ∀ s, Keep H s → Keep H (count s)) : Keep H (flushEgress s e' count) := by
  unfold flushEgress; try dsimp only
  repeat' first
    | with_reducible
      first
      | assumption | apply hcount | apply keep_flushQueue | apply keep_eachN
    | with_reducible intro _ | dsimp only | split

theorem keep_countFlush {s : State} {e' : Nat} (h : Keep H s) : Keep H (countFlush s e') := by
  unfold countFlush; try dsimp only
  repeat' first
    | with_reducible
      first
      | assumption | apply keep_State_bump
    | dsimp only | split

theorem keep_overflowNote {s : State} (h : Keep H s) : Keep H (overflowNote s) := by
  unfold overflowNote
  split
  · rename_i hl
    exact keep_upd (keep_pushEvent h hl.2) rfl rfl rfl rfl rfl rfl (.inl rfl) (.inl rfl)
  · exact h

end Sys2Proof.Machine
end

