-- ==== Sys2Proof/Laws/KeepCommand.lean ====
section
/-! SUPPORT. What the operations of Machine/Command.lean keep of `Laws.Keep`: one lemma for each. -/

set_option linter.unusedVariables false
set_option linter.unreachableTactic false
set_option linter.unusedTactic false

namespace Sys2Proof.Machine

variable {H : Hold}

theorem keep_emitPacket {s : State} {p : Packet} (h : Keep H s) : Keep H (emitPacket s p) := by
  unfold emitPacket; try dsimp only
  repeat' first
    | with_reducible
      first
      | assumption | ((conv => arg 2; arg 20); apply keep_upd) | exact rfl | exact .inl rfl
    | (with_reducible apply Or.inr); exact Nat.le_of_ble_eq_true rfl | with_reducible intro _ | dsimp only | split

theorem keep_linkPacket {s : State} {k' : Nat} {p : Packet} (h : Keep H s) : Keep H (linkPacket s k' p) := by
  unfold linkPacket; try dsimp only
  repeat' first
    | with_reducible
      first
      | assumption | apply keep_emitPacket | apply keep_State_updEgr | ((conv => arg 2; arg 20); apply keep_upd)
      | exact rfl | exact .inl rfl
    | (with_reducible apply Or.inr); exact Nat.le_of_ble_eq_true rfl | with_reducible intro _ | dsimp only | split

theorem keep_sendReplies {s : State} {k' : Nat} (h : Keep H s) : Keep H (sendReplies s k') := by
  unfold sendReplies; try dsimp only
  repeat' first
    | with_reducible
      first
      | assumption | apply keep_emitPacket | apply keep_State_updEgr | apply keep_foldl | apply keep_foldl1
      | ((conv => arg 2; arg 20); apply keep_upd) | exact rfl | exact .inl rfl
    | (with_reducible apply Or.inr); exact Nat.le_of_ble_eq_true rfl | with_reducible intro _ | dsimp only | split

theorem keep_loseReplies {s : State} {k' : Nat} (h : Keep H s) : Keep H (loseReplies s k') := by
  unfold loseReplies; try dsimp only
  repeat' first
    | with_reducible
      first
      | assumption | apply keep_State_updEgr | apply keep_State_bumpBy | ((conv => arg 2; arg 20); apply keep_upd)
      | exact rfl | exact .inl rfl
    | (with_reducible apply Or.inr); exact Nat.le_of_ble_eq_true rfl | with_reducible intro _ | dsimp only | split

theorem keep_sendPacket {s : State} {p : Packet} (h : Keep H s)
    (he : p.event = true → p.dest = 0 → (s.ctl.spiQueue.filter (·.event)).length < 24) : Keep H (sendPacket s p) := by
  unfold sendPacket
  split
  · rename_i hd
    split
    · rename_i hl
      obtain ⟨hp, a, ⟨b1, b2⟩, c, d, e⟩ := h
      refine ⟨hp, a, ⟨?_, ?_⟩, c, d, e⟩
      · simp only [List.length_append, List.length_singleton]; omega
      · simp only [List.filter_append, List.length_append]
        cases hv : p.event
        · simpa [hv] using b2
        · have := he hv hd
          simp only [List.filter_singleton, hv, cond_true, List.length_singleton]; omega
    · rename_i hl
      apply keep_State_bump
      obtain ⟨hp, a, ⟨b1, b2⟩, c, d, e⟩ := h
      have key : ∀ l : List Packet, (l.filter (·.event)).length ≤ 24 → l.length = 32 →
          ((l.drop 1).eraseP fun x => !x.event).length = 30 ∧
          ((l.take 1 ++ (l.drop 1).eraseP fun x => !x.event).filter (·.event)).length ≤ (l.filter (·.event)).length := by
        intro l hf hl
        match l, hl with
        | x :: l, hl =>
          simp only [List.drop_succ_cons, List.drop_zero, List.take_succ_cons, List.take_zero, List.length_cons] at hl ⊢
          have hx : ∃ y ∈ l, (!y.event) = true := by
            by_contra hn
            push Not at hn
            have : l.filter (·.event) = l := List.filter_eq_self.mpr fun y hy => by simpa using hn y hy
            have h2 : (l.filter (·.event)).length ≤ ((x :: l).filter (·.event)).length := by
              rw [List.filter_cons]; split <;> simp
            rw [this] at h2; omega
          obtain ⟨y, hy, hy'⟩ := hx
          refine ⟨?_, ?_⟩
          · rw [List.length_eraseP_of_mem hy hy']; omega
          · apply List.Sublist.length_le
            apply List.Sublist.filter
            exact List.Sublist.cons_cons _ List.eraseP_sublist
      have hl' : s.ctl.spiQueue.length = 32 := by omega
      obtain ⟨k1, k2⟩ := key _ b2 hl'
      refine ⟨hp, a, ⟨?_, ?_⟩, c, d, e⟩
      · simp only [List.length_append, List.length_singleton, k1, List.length_take]; omega
      · simp only [List.filter_append, List.length_append] at k2 ⊢
        cases hv : p.event
        · simp only [List.filter_singleton, hv, cond_false, List.length_nil]; omega
        · have := he hv hd
          simp only [List.filter_singleton, hv, cond_true, List.length_singleton]; omega
  · split
    · exact keep_emitPacket h
    · split
      · exact keep_linkPacket h
      · exact keep_State_bump h

theorem withCmac_event {s : State} {p : Packet} : (withCmac s p).event = p.event := by
  unfold withCmac
  split
  · dsimp only; split <;> rfl
  · rfl

theorem keep_reply {s : State} {op : Nat} {r : Req} {st : Status} {data : List Byte} (h : Keep H s)
    : Keep H (reply s op r st data) := by
  have k : Keep H (if st = .busy then s.bump 0x0003 (sn r) 3 else s) := by
    split
    · exact keep_State_bump h
    · exact h
  unfold reply
  extract_lets s1 p
  split
  · refine keep_sendPacket k fun he => ?_
    exfalso
    split at he
    · simp [p, replyPacket] at he
    · rw [withCmac_event] at he; simp [p, replyPacket] at he
  · exact k

theorem keep_acceptSeq {s : State} {r : Req} (h : Keep H s) : Keep H (acceptSeq s r) := by
  unfold acceptSeq; try dsimp only
  repeat' first
    | with_reducible
      first
      | assumption | ((conv => arg 2; arg 20); apply keep_upd) | exact rfl | exact .inl rfl
    | (with_reducible apply Or.inr); exact Nat.le_of_ble_eq_true rfl | dsimp only | split

theorem keep_refuse {s : State} {op : Nat} {r : Req} {st : Status} {data : List Byte} (h : Keep H s)
    : Keep H (refuse s op r st data) := by
  unfold refuse; try dsimp only
  repeat' first
    | with_reducible
      first
      | assumption | apply keep_State_bump | apply keep_raise | apply keep_reply | apply keep_State_draw
    | dsimp only | split

theorem keep_stageIn {s : State} {c : Cmd} {r : Req} (h : Keep H s) : Keep H (stageIn s c r) := by
  unfold stageIn; try dsimp only
  repeat' first
    | with_reducible
      first
      | assumption | ((conv => arg 2; arg 20); apply keep_upd) | exact rfl | exact .inl rfl
    | (with_reducible apply Or.inr); exact Nat.le_of_ble_eq_true rfl | dsimp only | split

theorem keep_stageCmd {s : State} {c : Cmd} {r : Req} (h : Keep H s) : Keep H (stageCmd s c r) := by
  unfold stageCmd; try dsimp only
  repeat' first
    | with_reducible
      first
      | assumption | apply keep_reply | apply keep_stageIn | apply keep_acceptSeq
    | dsimp only | split

theorem keep_execCmd {s : State} {c : Cmd} {r : Req} (h : Keep H s) (hc : KeepC H c) : Keep H (execCmd s c r) := by
  unfold execCmd
  dsimp only
  split
  · exact hc _ _ (keep_acceptSeq h)
  · exact hc _ _ (keep_reply (keep_acceptSeq h))

theorem keep_act {s : State} {c : Cmd} {r : Req} (h : Keep H s) (hc : KeepC H c) : Keep H (act s c r) := by
  unfold act
  split
  · exact h
  · exact keep_refuse h
  · exact keep_stageCmd h
  · exact keep_execCmd h hc

theorem keep_frontBusy {s : State} {op : Nat} {r : Req} (h : Keep H s) : Keep H (frontBusy s op r) := by
  unfold frontBusy; try dsimp only
  repeat' first
    | with_reducible
      first
      | assumption | apply keep_reply
    | with_reducible intro _ | dsimp only | split

theorem keep_queueIn {s : State} {op : Nat} {r : Req} {own : Nat} {pool : Nat} (h : Keep H s) : Keep H (queueIn s op r
    own pool) := by
  unfold queueIn; try dsimp only
  repeat' first
    | with_reducible
      first
      | assumption | apply keep_frontBusy | ((conv => arg 2; arg 20); apply keep_upd) | exact rfl | exact .inl rfl
    | (with_reducible apply Or.inr); exact Nat.le_of_ble_eq_true rfl | with_reducible intro _ | dsimp only | split

theorem keep_serve {c : Cmd} {r : Req} {s : State} (hC : KeepC H c) (h : Keep H s) : Keep H (serve c r s) := by
  unfold serve; try dsimp only
  repeat' first
    | with_reducible
      first
      | assumption | apply keep_State_bump | apply keep_act | apply keep_frontBusy | apply keep_queueIn
    | with_reducible intro _ | dsimp only | split

end Sys2Proof.Machine
end

