-- ==== Sys2Proof/Laws/KeepLine.lean ====
section
/-! SUPPORT. What the operations of Machine/Line.lean keep of `Laws.Keep`: one lemma for each. -/

set_option linter.unusedVariables false
set_option linter.unreachableTactic false
set_option linter.unusedTactic false

namespace Sys2Proof.Machine

variable {H : Hold}

theorem keep_State_updCal {s : State} {b : Nat} {f : Cal → Cal} (h : Keep H s) : Keep H (State.updCal s b f) := by
  unfold State.updCal; try dsimp only
  repeat' first
    | with_reducible
      first
      | assumption | ((conv => arg 2; arg 20); apply keep_upd) | exact rfl | exact .inl rfl
    | (with_reducible apply Or.inr); exact Nat.le_of_ble_eq_true rfl | dsimp only | split

theorem keep_tryFirmware {s : State} (h : Keep H s) : Keep H (tryFirmware s) := by
  unfold tryFirmware; try dsimp only
  repeat' first
    | with_reducible
      first
      | assumption | ((conv => arg 2; arg 20); apply keep_upd) | exact rfl | exact .inl rfl
    | (with_reducible apply Or.inr); exact Nat.le_of_ble_eq_true rfl | dsimp only | split

theorem keep_abandonRun {s : State} {b : Nat} (h : Keep H s) : Keep H (abandonRun s b) := by
  unfold abandonRun; try dsimp only
  repeat' first
    | with_reducible
      first
      | assumption | apply keep_State_bump | apply keep_State_updCal
    | with_reducible intro _ | dsimp only | split

theorem keep_markItem6 {s : State} {b : Nat} {mode : Nat} (h : Keep H s) : Keep H (markItem6 s b mode) := by
  unfold markItem6; try dsimp only
  repeat' first
    | with_reducible
      first
      | assumption | apply keep_State_updCal
    | with_reducible intro _ | dsimp only | split

theorem keep_setSt {s : State} {p : Nat} {st : PortSt} (h : Keep H s) : Keep H (setSt s p st) := by
  unfold setSt; try dsimp only
  repeat' first
    | with_reducible
      first
      | assumption | apply keep_abandonRun | apply keep_State_updPort
    | with_reducible intro _ | dsimp only | split

theorem keep_setLpi {s : State} {p : Nat} {tx : Bool} {rx : Bool} (h : Keep H s) : Keep H (setLpi s p tx rx) := by
  unfold setLpi; try dsimp only
  repeat' first
    | with_reducible
      first
      | assumption | apply keep_State_bumpBy | apply keep_State_updPort
    | with_reducible intro _ | dsimp only | split

theorem keep_macWake {s : State} {p : Nat} (h : Keep H s) : Keep H (macWake s p) := by
  unfold macWake; try dsimp only
  repeat' first
    | with_reducible
      first
      | assumption | apply keep_State_updPort | apply keep_setLpi
    | with_reducible intro _ | dsimp only | split

theorem keep_setPlca {s : State} {p : Nat} {n : Nat} (h : Keep H s) : Keep H (setPlca s p n) := by
  unfold setPlca; try dsimp only
  repeat' first
    | with_reducible
      first
      | assumption | apply keep_State_updPort | apply keep_raise
    | with_reducible intro _ | dsimp only | split

theorem keep_eachVictim {s : State} {p : Nat} {f : State → Nat → Nat → State} (h : Keep H s) (hf
    : ∀ s n m, Keep H s → Keep H (f s n m)) : Keep H (eachVictim s p f) := by
  unfold eachVictim; try dsimp only
  repeat' first
    | with_reducible
      first
      | assumption | apply hf | apply keep_eachN
    | with_reducible intro _ | dsimp only | split

theorem keep_updNext {s : State} {v : Nat} {k : Nat} {f : Next → Next} (h : Keep H s) : Keep H (updNext s v k f) := by
  unfold updNext; try dsimp only
  repeat' first
    | with_reducible
      first
      | assumption | apply keep_State_updPort
    | with_reducible intro _ | dsimp only | split

theorem keep_staleNext {s : State} {v : Nat} {k : Nat} (h : Keep H s) : Keep H (staleNext s v k) := by
  unfold staleNext; try dsimp only
  repeat' first
    | with_reducible
      first
      | assumption | apply keep_State_updPort
    | with_reducible intro _ | dsimp only | split

theorem keep_applyGroup {s : State} {p : Nat} (h : Keep H s) : Keep H (applyGroup s p) := by
  unfold applyGroup; try dsimp only
  repeat' first
    | with_reducible
      first
      | assumption | apply keep_State_updPort | apply keep_raise | apply keep_staleNext | apply keep_updNext | apply keep_eachN
    | with_reducible intro _ | dsimp only | split

theorem keep_aggressorSilent {s : State} {p : Nat} (h : Keep H s) : Keep H (aggressorSilent s p) := by
  unfold aggressorSilent; try dsimp only
  repeat' first
    | with_reducible
      first
      | assumption | apply keep_eachVictim | apply keep_staleNext | apply keep_State_bump | apply keep_updNext
    | with_reducible intro _ | dsimp only | split

theorem keep_aggressorGone {s : State} {p : Nat} (h : Keep H s) : Keep H (aggressorGone s p) := by
  unfold aggressorGone; try dsimp only
  repeat' first
    | with_reducible
      first
      | assumption | apply keep_eachVictim | apply keep_raise | apply keep_staleNext | apply keep_updNext
    | with_reducible intro _ | dsimp only | split

theorem keep_aggressorBack {s : State} {p : Nat} (h : Keep H s) : Keep H (aggressorBack s p) := by
  unfold aggressorBack; try dsimp only
  repeat' first
    | with_reducible
      first
      | assumption | apply keep_eachVictim | apply keep_updNext
    | with_reducible intro _ | dsimp only | split

theorem keep_trainingSends {s : State} {p : Nat} {old : Nat} (h : Keep H s) : Keep H (trainingSends s p old) := by
  unfold trainingSends; try dsimp only
  repeat' first
    | with_reducible
      first
      | assumption | apply keep_aggressorBack | apply keep_aggressorGone
    | with_reducible intro _ | dsimp only | split

theorem keep_slackJobDone {s : State} {p : Nat} (h : Keep H s) : Keep H (slackJobDone s p) := by
  unfold slackJobDone; try dsimp only
  repeat' first
    | with_reducible
      first
      | assumption | apply keep_closeWaiter | apply keep_foldl | apply keep_foldl1
      | ((conv => arg 2; arg 20); apply keep_upd) | exact rfl | exact .inl rfl
    | (with_reducible apply Or.inr); exact Nat.le_of_ble_eq_true rfl | with_reducible intro _ | dsimp only | split

theorem keep_slackRefused {s : State} {p : Nat} {cause : Nat} (h : Keep H s) : Keep H (slackRefused s p cause) := by
  unfold slackRefused; try dsimp only
  repeat' first
    | with_reducible
      first
      | assumption | apply keep_State_updPort | apply keep_raise | apply keep_State_bump | apply keep_slackJobDone
      | ((conv => arg 2; arg 20); apply keep_upd) | exact rfl | exact .inl rfl
    | (with_reducible apply Or.inr); exact Nat.le_of_ble_eq_true rfl | with_reducible intro _ | dsimp only | split

theorem keep_endSound {s : State} {p : Nat} {status : Nat} (h : Keep H s) : Keep H (endSound s p status) := by
  unfold endSound; try dsimp only
  repeat' first
    | with_reducible
      first
      | assumption | apply keep_State_bump | apply keep_State_updPort | apply keep_raiseReady | apply keep_closeWaiter
    | with_reducible intro _ | dsimp only | split

theorem keep_abortCable {s : State} {p : Nat} {status : Nat} (h : Keep H s) : Keep H (abortCable s p status) := by
  unfold abortCable; try dsimp only
  repeat' first
    | with_reducible
      first
      | assumption | apply keep_State_bump | apply keep_State_updPort | apply keep_raise | apply keep_closeWaiter
    | with_reducible intro _ | dsimp only | split

theorem keep_markTest {s : State} {t : Nat} {status : Nat} (h : Keep H s) : Keep H (markTest s t status) := by
  unfold markTest; try dsimp only
  repeat' first
    | with_reducible
      first
      | assumption | ((conv => arg 2; arg 20); apply keep_upd) | exact rfl | exact .inl rfl
    | (with_reducible apply Or.inr); exact Nat.le_of_ble_eq_true rfl | dsimp only | split

theorem keep_calJobDone {s : State} {b : Nat} {st : Status} (h : Keep H s) : Keep H (calJobDone s b st) := by
  unfold calJobDone; try dsimp only
  repeat' first
    | with_reducible
      first
      | assumption | apply keep_raiseReady | apply keep_foldl | apply keep_foldl1
      | ((conv => arg 2; arg 20); apply keep_upd) | exact rfl | exact .inl rfl
    | (with_reducible apply Or.inr); exact Nat.le_of_ble_eq_true rfl | with_reducible intro _ | dsimp only | split

theorem keep_setPreempt {s : State} {p : Nat} {r : PreemptRun} (h : Keep H s) : Keep H (setPreempt s p r) := by
  unfold setPreempt; try dsimp only
  repeat' first
    | with_reducible
      first
      | assumption | ((conv => arg 2; arg 20); apply keep_upd) | exact rfl | exact .inl rfl
    | (with_reducible apply Or.inr); exact Nat.le_of_ble_eq_true rfl | dsimp only | split

theorem keep_preemptUp {s : State} {p : Nat} (h : Keep H s) : Keep H (preemptUp s p) := by
  unfold preemptUp; try dsimp only
  repeat' first
    | with_reducible
      first
      | assumption | apply keep_setPreempt
    | dsimp only | split

theorem keep_preemptDown {s : State} {p : Nat} (h : Keep H s) : Keep H (preemptDown s p) := by
  unfold preemptDown; try dsimp only
  repeat' first
    | with_reducible
      first
      | assumption | apply keep_setPreempt
    | dsimp only | split

theorem keep_emptyOam {s : State} {p : Nat} (h : Keep H s) : Keep H (emptyOam s p) := by
  unfold emptyOam; try dsimp only
  repeat' first
    | with_reducible
      first
      | assumption | apply keep_raise | apply keep_State_updPort | apply keep_foldl | apply keep_foldl1
    | with_reducible intro _ | dsimp only | split

theorem keep_noReversion {s : State} {p : Nat} (h : Keep H s) : Keep H (noReversion s p) := by
  unfold noReversion; try dsimp only
  repeat' first
    | with_reducible
      first
      | assumption | apply keep_reply | apply keep_foldl | apply keep_foldl1
    | with_reducible intro _ | dsimp only | split

theorem keep_dropLinkState {s : State} {p : Nat} (h : Keep H s) : Keep H (dropLinkState s p) := by
  unfold dropLinkState; try dsimp only
  repeat' first
    | with_reducible
      first
      | assumption | apply keep_State_bump | apply keep_emptyOam | apply keep_endSound | apply keep_aggressorSilent
      | apply keep_noReversion | apply keep_setPlca | apply keep_State_updPort
      | ((conv => arg 2; arg 20); apply keep_upd) | exact rfl | exact .inl rfl
    | (with_reducible apply Or.inr); exact Nat.le_of_ble_eq_true rfl | with_reducible intro _ | dsimp only | split

theorem keep_cableEnter {s : State} {p : Nat} (h : Keep H s) : Keep H (cableEnter s p) := by
  unfold cableEnter; try dsimp only
  repeat' first
    | with_reducible
      first
      | assumption | apply keep_setSt | apply keep_State_updPort
    | with_reducible intro _ | dsimp only | split

theorem keep_linkDown {s : State} {p : Nat} {reason : Nat} {slackCause : Nat} (h : Keep H s)
    : Keep H (linkDown s p reason slackCause) := by
  unfold linkDown; try dsimp only
  repeat' first
    | with_reducible
      first
      | assumption | apply keep_State_bump | apply keep_setLpi | apply keep_raise | apply keep_State_bumpBy
      | apply keep_preemptDown | apply keep_dropLinkState | apply keep_dropMac | apply keep_setSt | apply keep_slackRefused
      | apply keep_State_updPort | apply keep_cableEnter
    | with_reducible intro _ | dsimp only | split

theorem keep_towardTest {s : State} {p : Nat} (h : Keep H s) : Keep H (towardTest s p) := by
  unfold towardTest; try dsimp only
  repeat' first
    | with_reducible
      first
      | assumption | apply keep_setLpi | apply keep_setSt | apply keep_dropLinkState
    | with_reducible intro _ | dsimp only | split

theorem keep_enterTest {s : State} {p : Nat} {action : Nat} (h : Keep H s) : Keep H (enterTest s p action) := by
  unfold enterTest; try dsimp only
  repeat' first
    | with_reducible
      first
      | assumption | apply keep_towardTest | apply keep_linkDown | apply keep_dropLinkState | apply keep_setSt
      | apply keep_State_updPort | ((conv => arg 2; arg 20); apply keep_upd) | exact rfl | exact .inl rfl
    | (with_reducible apply Or.inr); exact Nat.le_of_ble_eq_true rfl | with_reducible intro _ | dsimp only | split

theorem keep_leaveSlack {s : State} {p : Nat} (h : Keep H s) : Keep H (leaveSlack s p) := by
  unfold leaveSlack; try dsimp only
  repeat' first
    | with_reducible
      first
      | assumption | apply keep_State_updPort | apply keep_State_bumpBy
    | with_reducible intro _ | dsimp only | split

theorem keep_farEnds {s : State} {p : Nat} (h : Keep H s) : Keep H (farEnds s p) := by
  unfold farEnds; try dsimp only
  repeat' first
    | with_reducible
      first
      | assumption | apply keep_dropLinkState
    | with_reducible intro _ | dsimp only | split

theorem keep_endPortTest {s : State} {p : Nat} {status : Nat} (h : Keep H s) : Keep H (endPortTest s p status) := by
  unfold endPortTest; try dsimp only
  repeat' first
    | with_reducible
      first
      | assumption | apply keep_abortCable | apply keep_markTest | apply keep_calJobDone | apply keep_farEnds
      | apply keep_State_updPort | ((conv => arg 2; arg 20); apply keep_upd) | exact rfl | exact .inl rfl
    | (with_reducible apply Or.inr); exact Nat.le_of_ble_eq_true rfl | with_reducible intro _ | dsimp only | split

theorem keep_quietPort {s : State} {p : Nat} {reason : Nat} (h : Keep H s) : Keep H (quietPort s p reason) := by
  unfold quietPort; try dsimp only
  repeat' first
    | with_reducible
      first
      | assumption | apply keep_setSt | apply keep_abortCable | apply keep_linkDown | apply keep_leaveSlack
      | apply keep_aggressorSilent | apply keep_endPortTest | apply keep_dropLinkState | apply keep_State_updPort
    | with_reducible intro _ | dsimp only | split

theorem keep_leaveQuiet {s : State} {p : Nat} (h : Keep H s) : Keep H (leaveQuiet s p) := by
  unfold leaveQuiet; try dsimp only
  repeat' first
    | with_reducible
      first
      | assumption | apply keep_setSt | apply keep_State_updPort
    | with_reducible intro _ | dsimp only | split

theorem keep_breakLink {s : State} {p : Nat} {counts : Bool} (h : Keep H s) : Keep H (breakLink s p counts) := by
  unfold breakLink; try dsimp only
  repeat' first
    | with_reducible
      first
      | assumption | apply keep_linkDown | apply keep_State_bump | apply keep_State_updPort
    | with_reducible intro _ | dsimp only | split

theorem keep_restartLink {s : State} {p : Nat} {counts : Bool} (h : Keep H s) : Keep H (restartLink s p counts) := by
  unfold restartLink; try dsimp only
  repeat' first
    | with_reducible
      first
      | assumption | apply keep_State_updPort | apply keep_breakLink
    | with_reducible intro _ | dsimp only | split

theorem keep_beginStart {s : State} {p : Nat} (h : Keep H s) : Keep H (beginStart s p) := by
  unfold beginStart; try dsimp only
  repeat' first
    | with_reducible
      first
      | assumption | apply keep_leaveSlack | apply keep_State_bump | apply keep_State_updPort | apply keep_slackJobDone
      | apply keep_setSt | apply keep_trainingSends | apply keep_setPlca | ((conv => arg 2; arg 20); apply keep_upd)
      | exact rfl | exact .inl rfl
    | (with_reducible apply Or.inr); exact Nat.le_of_ble_eq_true rfl | with_reducible intro _ | dsimp only | split

theorem keep_startNow {s : State} {p : Nat} (h : Keep H s) : Keep H (startNow s p) := by
  unfold startNow; try dsimp only
  repeat' first
    | with_reducible
      first
      | assumption | apply keep_setSt | apply keep_leaveSlack | apply keep_beginStart
    | dsimp only | split

theorem keep_abandon {s : State} {p : Nat} (h : Keep H s) : Keep H (abandon s p) := by
  unfold abandon; try dsimp only
  repeat' first
    | with_reducible
      first
      | assumption | apply keep_setSt | apply keep_State_updPort | apply keep_dropLinkState
    | with_reducible intro _ | dsimp only | split

theorem keep_writeRelink {s : State} {p : Nat} (h : Keep H s) : Keep H (writeRelink s p) := by
  unfold writeRelink; try dsimp only
  repeat' first
    | with_reducible
      first
      | assumption | ((conv => arg 2; arg 20); apply keep_upd) | exact rfl | exact .inl rfl
    | (with_reducible apply Or.inr); exact Nat.le_of_ble_eq_true rfl | dsimp only | split

theorem keep_goUp {s : State} {p : Nat} (h : Keep H s) : Keep H (goUp s p) := by
  unfold goUp; try dsimp only
  repeat' first
    | with_reducible
      first
      | assumption | apply keep_State_bump | apply keep_writeRelink | apply keep_State_updPort | apply keep_preemptUp
      | apply keep_aggressorBack | apply keep_setSt | apply keep_applyGroup | apply keep_raise | apply keep_markItem6
    | with_reducible intro _ | dsimp only | split

theorem keep_enterSlack {s : State} {p : Nat} {cause : Nat} (h : Keep H s) : Keep H (enterSlack s p cause) := by
  unfold enterSlack; try dsimp only
  repeat' first
    | with_reducible
      first
      | assumption | apply keep_abortCable | apply keep_linkDown | apply keep_dropLinkState | apply keep_State_updPort
      | apply keep_raise | apply keep_State_bump | apply keep_setSt | apply keep_slackJobDone
    | with_reducible intro _ | dsimp only | split

theorem keep_wakeSteps {s : State} {p : Nat} {source : Nat} (h : Keep H s) : Keep H (wakeSteps s p source) := by
  unfold wakeSteps; try dsimp only
  repeat' first
    | with_reducible
      first
      | assumption | apply keep_startNow | apply keep_State_updPort
    | with_reducible intro _ | dsimp only | split

theorem keep_wakePort {s : State} {p : Nat} {source : Nat} (h : Keep H s) : Keep H (wakePort s p source) := by
  unfold wakePort; try dsimp only
  repeat' first
    | with_reducible
      first
      | assumption | apply keep_State_bump | apply keep_raise | apply keep_State_updPort | apply keep_wakeSteps
    | with_reducible intro _ | dsimp only | split

theorem keep_downshift {s : State} {p : Nat} {reason : Nat} (h : Keep H s) : Keep H (downshift s p reason) := by
  unfold downshift; try dsimp only
  repeat' first
    | with_reducible
      first
      | assumption | apply keep_raise | apply keep_State_updPort | apply keep_State_bump
    | with_reducible intro _ | dsimp only | split

theorem keep_startFail {s : State} {p : Nat} {reason : Nat} (h : Keep H s) : Keep H (startFail s p reason) := by
  unfold startFail; try dsimp only
  repeat' first
    | with_reducible
      first
      | assumption | apply keep_State_bump | apply keep_raise | apply keep_State_updPort | apply keep_downshift
      | apply keep_setSt | apply keep_dropLinkState
    | with_reducible intro _ | dsimp only | split

end Sys2Proof.Machine
end

