-- ==== Sys2Proof/Laws/KeepFabric.lean ====
section
/-! SUPPORT. What the operations of Machine/Fabric.lean keep of `Laws.Keep`: one lemma for each. -/

set_option linter.unusedVariables false
set_option linter.unreachableTactic false
set_option linter.unusedTactic false

namespace Sys2Proof.Machine

variable {H : Hold}

theorem keep_settleCredit {s : State} {e' : Nat} (h : Keep H s) : Keep H (settleCredit s e') := by
  unfold settleCredit; try dsimp only
  repeat' first
    | with_reducible
      first
      | assumption | apply keep_State_updEgr
    | with_reducible intro _ | dsimp only | split

theorem keep_retireRow {s : State} {bank : Nat} {row : Nat} (h : Keep H s) : Keep H (retireRow s bank row) := by
  unfold retireRow; try dsimp only
  repeat' first
    | with_reducible
      first
      | assumption | apply keep_raise | apply keep_State_bump | apply keep_State_updSlice | apply keep_safetyFault
      | apply keep_setPresent | ((conv => arg 2; arg 20); apply keep_upd) | exact rfl | exact .inl rfl
    | (with_reducible apply Or.inr); exact Nat.le_of_ble_eq_true rfl | with_reducible intro _ | dsimp only | split

theorem keep_freshRows {s : State} {i : Nat} (h : Keep H s) : Keep H (freshRows s i) := by
  unfold freshRows; try dsimp only
  repeat' first
    | with_reducible
      first
      | assumption | apply keep_State_updSlice | apply keep_setPresent | ((conv => arg 2; arg 20); apply keep_upd)
      | exact rfl | exact .inl rfl
    | (with_reducible apply Or.inr); exact Nat.le_of_ble_eq_true rfl | with_reducible intro _ | dsimp only | split

theorem keep_cellError {s : State} {slice : Nat} {kind : Nat} {bank : Nat} {row : Nat} {affected : Nat} (h : Keep H s)
    : Keep H (cellError s slice kind bank row affected) := by
  unfold cellError; try dsimp only
  repeat' first
    | with_reducible
      first
      | assumption | apply keep_raise | apply keep_faultEntry | apply keep_rateError
    | dsimp only | split

theorem keep_uncorrectable {s : State} {bank : Nat} {row : Nat} {affected : Nat} (h : Keep H s)
    : Keep H (uncorrectable s bank row affected) := by
  unfold uncorrectable; try dsimp only
  repeat' first
    | with_reducible
      first
      | assumption | apply keep_retireRow | apply keep_cellError | apply keep_State_bump
    | dsimp only | split

theorem keep_execScrubRead {bank : Fin 128} {row : Fin 8192} {words : Nat} {bad : Bool} {live : Bool} {last : Bool} {s
    : State} (h : Keep H s) : KeepO H (execScrubRead bank row words bad live last s) := by
  unfold execScrubRead; try dsimp only
  apply keepO_next
  repeat' first
    | with_reducible
      first
      | assumption | apply keep_State_bumpBy | apply keep_uncorrectable | apply keep_State_bump
    | dsimp only | split

theorem keep_updFabricCfg {s : State} {f : FabricCfg → FabricCfg} (hc : H.freeC) (h : Keep H s) : Keep H (updFabricCfg s f)
    := by
  unfold updFabricCfg; try dsimp only
  repeat' first
    | with_reducible
      first
      | assumption | ((conv => arg 2; arg 20); apply keep_upd) | ((conv => arg 2; arg 20); apply keep_updc) | exact rfl
      | exact .inl rfl
    | (with_reducible apply Or.inr); exact Nat.le_of_ble_eq_true rfl | dsimp only | split

theorem keep_fabricConfigCmd (hc : H.freeC) : KeepC H (fabricConfigCmd) := by
  intro s r h
  dsimp only [fabricConfigCmd, confCmd, doOk]
  repeat' first
    | with_reducible
      first
      | assumption | apply keep_updFabricCfg
    | with_reducible intro _ | dsimp only | split

theorem keep_fabricStatusCmd : KeepC H fabricStatusCmd := fun _ _ h => h

theorem keep_queueConfigCmd (hc : H.freeC) : KeepC H (queueConfigCmd) := by
  intro s r h
  dsimp only [queueConfigCmd, confCmd, doOk]
  repeat' first
    | with_reducible
      first
      | assumption | apply keep_updFabricCfg
    | with_reducible intro _ | dsimp only | split

theorem keep_schedulerConfigCmd (hc : H.freeC) : KeepC H (schedulerConfigCmd) := by
  intro s r h
  dsimp only [schedulerConfigCmd, confCmd, doOk]
  repeat' first
    | with_reducible
      first
      | assumption | apply keep_updFabricCfg | apply keep_State_updEgr
    | with_reducible intro _ | dsimp only | split

theorem keep_shaperConfigCmd (hc : H.freeC) : KeepC H (shaperConfigCmd) := by
  intro s r h
  dsimp only [shaperConfigCmd, confCmd, doOk]
  repeat' first
    | with_reducible
      first
      | assumption | apply keep_settleCredit | apply keep_updFabricCfg | apply keep_State_updEgr
    | with_reducible intro _ | dsimp only | split

theorem keep_cutThroughConfigCmd (hc : H.freeC) : KeepC H (cutThroughConfigCmd) := by
  intro s r h
  dsimp only [cutThroughConfigCmd, confCmd, doOk]
  repeat' first
    | with_reducible
      first
      | assumption | apply keep_updFabricCfg
    | with_reducible intro _ | dsimp only | split

theorem keep_queueStatusCmd : KeepC H queueStatusCmd := fun _ _ h => h

theorem keep_queueCountersReadCmd : KeepC H queueCountersReadCmd := fun _ _ h => h

theorem keep_clearQueue {s : State} {q : Nat} (h : Keep H s) : Keep H (clearQueue s q) := by
  unfold clearQueue; try dsimp only
  repeat' first
    | with_reducible
      first
      | assumption | apply keep_State_clearCnt | ((conv => arg 2; arg 20); apply keep_upd) | exact rfl | exact .inl rfl
    | (with_reducible apply Or.inr); exact Nat.le_of_ble_eq_true rfl | dsimp only | split

theorem keep_queueCountersClearCmd : KeepC H (queueCountersClearCmd) := by
  intro s r h
  dsimp only [queueCountersClearCmd, clearCmd, doOk]
  repeat' first
    | with_reducible
      first
      | assumption | apply keep_clearQueue | apply keep_eachN
    | with_reducible intro _ | dsimp only | split

theorem keep_sliceCountersReadCmd : KeepC H sliceCountersReadCmd := fun _ _ h => h

theorem keep_sliceCountersClearCmd : KeepC H (sliceCountersClearCmd) := by
  intro s r h
  dsimp only [sliceCountersClearCmd, clearCmd, doOk]
  repeat' first
    | with_reducible
      first
      | assumption | apply keep_State_clearCnt
    | dsimp only | split

end Sys2Proof.Machine
end

