-- ==== Sys2Proof/Laws/KeepStreams.lean ====
section
/-! SUPPORT. What the operations of Machine/Streams.lean keep of `Laws.Keep`: one lemma for each. -/

set_option linter.unusedVariables false
set_option linter.unreachableTactic false
set_option linter.unusedTactic false

namespace Sys2Proof.Machine

variable {H : Hold}

theorem keep_updStreamCfg {s : State} {f : StreamCfg → StreamCfg} (hc : H.freeC) (h : Keep H s) : Keep H (updStreamCfg s f)
    := by
  unfold updStreamCfg; try dsimp only
  repeat' first
    | with_reducible
      first
      | assumption | ((conv => arg 2; arg 20); apply keep_upd) | ((conv => arg 2; arg 20); apply keep_updc) | exact rfl
      | exact .inl rfl
    | (with_reducible apply Or.inr); exact Nat.le_of_ble_eq_true rfl | dsimp only | split

theorem keep_updStrm {s : State} {f : Strm → Strm} (h : Keep H s) : Keep H (updStrm s f) := by
  unfold updStrm; try dsimp only
  repeat' first
    | with_reducible
      first
      | assumption | ((conv => arg 2; arg 20); apply keep_upd) | exact rfl | exact .inl rfl
    | (with_reducible apply Or.inr); exact Nat.le_of_ble_eq_true rfl | dsimp only | split

theorem keep_streamEntryWriteCmd (hc : H.freeC) : KeepC H (streamEntryWriteCmd) := by
  intro s r h
  dsimp only [streamEntryWriteCmd, confCmd, doOk]
  repeat' first
    | with_reducible
      first
      | assumption | apply keep_State_draw | apply keep_updStrm | apply keep_updStreamCfg
    | with_reducible intro _ | dsimp only | split

theorem keep_noteFailed {s : State} {r : Req} (hc : H.freeC) (h : Keep H s) : Keep H (noteFailed s r) := by
  unfold noteFailed; try dsimp only
  repeat' first
    | with_reducible
      first
      | assumption | apply keep_streamEntryWriteCmd | apply keep_updStrm
    | with_reducible intro _ | dsimp only | split

theorem keep_streamWriteIn {r : Req} {s : State} (hc : H.freeC) (h : Keep H s) : Keep H (streamWriteIn r s) := by
  unfold streamWriteIn; try dsimp only
  repeat' first
    | with_reducible
      first
      | assumption | apply keep_serve | apply keep_streamEntryWriteCmd | apply keep_noteFailed
    | dsimp only | split

theorem keep_execStreamEntryWrite {r : Req} {s : State} (hc : H.freeC) (h : Keep H s) : KeepO H (execStreamEntryWrite r s) := by
  unfold execStreamEntryWrite; try dsimp only
  apply keepO_next
  repeat' first
    | with_reducible
      first
      | assumption | apply keep_streamWriteIn
    | dsimp only | split

theorem keep_streamTableConfigCmd (hc : H.freeC) : KeepC H (streamTableConfigCmd) := by
  intro s r h
  dsimp only [streamTableConfigCmd, confCmd, doOk]
  repeat' first
    | with_reducible
      first
      | assumption | apply keep_updStreamCfg
    | with_reducible intro _ | dsimp only | split

theorem keep_streamEntryDeleteCmd (hc : H.freeC) : KeepC H (streamEntryDeleteCmd) := by
  intro s r h
  dsimp only [streamEntryDeleteCmd, confCmd, doOk]
  repeat' first
    | with_reducible
      first
      | assumption | apply keep_updStreamCfg
    | with_reducible intro _ | dsimp only | split

theorem keep_streamEntryReadCmd : KeepC H streamEntryReadCmd := fun _ _ h => h

theorem keep_streamLookupCmd : KeepC H streamLookupCmd := fun _ _ h => h

theorem keep_streamTableStatusCmd : KeepC H streamTableStatusCmd := fun _ _ h => h

theorem keep_destWriteCmd (hc : H.freeC) : KeepC H (destWriteCmd) := by
  intro s r h
  dsimp only [destWriteCmd, confCmd, doOk]
  repeat' first
    | with_reducible
      first
      | assumption | apply keep_updStreamCfg
    | with_reducible intro _ | dsimp only | split

theorem keep_ingressProfileSetCmd (hc : H.freeC) : KeepC H (ingressProfileSetCmd) := by
  intro s r h
  dsimp only [ingressProfileSetCmd, confCmd, doOk]
  repeat' first
    | with_reducible
      first
      | assumption | apply keep_updStreamCfg
    | with_reducible intro _ | dsimp only | split

theorem keep_qciFilterSetCmd (hc : H.freeC) : KeepC H (qciFilterSetCmd) := by
  intro s r h
  dsimp only [qciFilterSetCmd, confCmd, doOk]
  repeat' first
    | with_reducible
      first
      | assumption | apply keep_updStrm | apply keep_updStreamCfg
    | with_reducible intro _ | dsimp only | split

theorem keep_qciMeterSetCmd (hc : H.freeC) : KeepC H (qciMeterSetCmd) := by
  intro s r h
  dsimp only [qciMeterSetCmd, confCmd, doOk]
  repeat' first
    | with_reducible
      first
      | assumption | apply keep_updStrm | apply keep_updStreamCfg
    | with_reducible intro _ | dsimp only | split

theorem keep_qciGateSetCmd (hc : H.freeC) : KeepC H (qciGateSetCmd) := by
  intro s r h
  dsimp only [qciGateSetCmd, confCmd, doOk]
  repeat' first
    | with_reducible
      first
      | assumption | apply keep_updStreamCfg
    | with_reducible intro _ | dsimp only | split

theorem keep_execStreamGateChange {g : Fin 1024} {config : Bool} {s : State} (h : Keep H s)
    : KeepO H (execStreamGateChange g config s) := by
  unfold execStreamGateChange; try dsimp only
  apply keepO_next
  repeat' first
    | with_reducible
      first
      | assumption | apply keep_updStrm
    | with_reducible intro _ | dsimp only | split

theorem keep_setMeter {s : State} {k : Nat} {t : MeterRun} (h : Keep H s) : Keep H (setMeter s k t) := by
  unfold setMeter; try dsimp only
  repeat' first
    | with_reducible
      first
      | assumption | apply keep_updStrm
    | with_reducible intro _ | dsimp only | split

theorem keep_qciCountersReadCmd : KeepC H qciCountersReadCmd := fun _ _ h => h

theorem keep_rangeClear {op : Nat} {readOp : Nat} {n : Nat} : KeepC H (rangeClear op readOp n) := by
  intro s r h
  dsimp only [rangeClear, clearCmd, doOk]
  repeat' first
    | with_reducible
      first
      | assumption | apply keep_State_clearCnt | apply keep_eachN
    | with_reducible intro _ | dsimp only | split

theorem keep_qciCountersClearCmd : KeepC H qciCountersClearCmd := keep_rangeClear

theorem keep_frerSeqgenSetCmd : KeepC H (frerSeqgenSetCmd) := by
  intro s r h
  dsimp only [frerSeqgenSetCmd, confCmd, doOk]
  repeat' first
    | with_reducible
      first
      | assumption | apply keep_updStrm
    | with_reducible intro _ | dsimp only | split

theorem keep_frerRecoverySetCmd (hc : H.freeC) : KeepC H (frerRecoverySetCmd) := by
  intro s r h
  dsimp only [frerRecoverySetCmd, confCmd, doOk]
  repeat' first
    | with_reducible
      first
      | assumption | apply keep_updStrm | apply keep_updStreamCfg
    | with_reducible intro _ | dsimp only | split

theorem keep_updRec {s : State} {i : Nat} {f : RecRun → RecRun} (h : Keep H s) : Keep H (updRec s i f) := by
  unfold updRec; try dsimp only
  repeat' first
    | with_reducible
      first
      | assumption | apply keep_updStrm
    | with_reducible intro _ | dsimp only | split

theorem keep_vectorRecover1 {s : State} {i : Nat} {c : RecCfg} {q : Nat} (h : Keep H s) : Keep H (vectorRecover s i c q).1 := by
  unfold vectorRecover; try dsimp only
  repeat' first
    | with_reducible
      first
      | assumption | apply keep_updRec | apply keep_State_bump | apply keep_State_bumpBy
    | with_reducible intro _ | dsimp only | split

theorem keep_vectorRecover {s : State} {i : Nat} {c : RecCfg} {q : Nat} {out : State} {snd : _} (h : Keep H s)
    (e : vectorRecover s i c q = (out, snd)) : Keep H out := by
  have k := keep_vectorRecover1 (H := H)  (h := h) (i := i) (c := c) (q := q)
  rw [e] at k; exact k

theorem keep_matchRecover1 {s : State} {i : Nat} {q : Nat} (h : Keep H s) : Keep H (matchRecover s i q).1 := by
  unfold matchRecover; try dsimp only
  repeat' first
    | with_reducible
      first
      | assumption | apply keep_State_bump | apply keep_updRec
    | with_reducible intro _ | dsimp only | split

theorem keep_matchRecover {s : State} {i : Nat} {q : Nat} {out : State} {snd : _} (h : Keep H s)
    (e : matchRecover s i q = (out, snd)) : Keep H out := by
  have k := keep_matchRecover1 (H := H)  (h := h) (i := i) (q := q)
  rw [e] at k; exact k

theorem keep_expireRec {s : State} {i : Nat} (h : Keep H s) : Keep H (expireRec s i) := by
  unfold expireRec; try dsimp only
  repeat' first
    | with_reducible
      first
      | assumption | apply keep_updRec | apply keep_State_bump | ((conv => arg 2; arg 20); apply keep_upd) | exact rfl
      | exact .inl rfl
    | (with_reducible apply Or.inr); exact Nat.le_of_ble_eq_true rfl | with_reducible intro _ | dsimp only | split

theorem keep_dueReset {s : State} {i : Nat} {c : RecCfg} (h : Keep H s) : Keep H (dueReset s i c) := by
  unfold dueReset; try dsimp only
  repeat' first
    | with_reducible
      first
      | assumption | apply keep_expireRec
    | with_reducible intro _ | dsimp only | split

theorem keep_recover1 {s0 : State} {i : Nat} {q : Option Nat} (h : Keep H s0) : Keep H (recover s0 i q).1 := by
  unfold recover
  split
  · exact h
  · extract_lets s
    have hs : Keep H s := keep_dueReset h
    clear_value s
    split
    · exact keep_State_bump hs
    · split
      rename_i s1 ok e
      have h1 : Keep H s1 := by
        split at e
        · exact keep_vectorRecover hs e
        · exact keep_matchRecover hs e
      split
      · exact keep_State_bump (keep_updRec h1)
      · exact h1

theorem keep_recover {s0 : State} {i : Nat} {q : Option Nat} {out : State} {snd : _} (h : Keep H s0)
    (e : recover s0 i q = (out, snd)) : Keep H out := by
  have k := keep_recover1 (H := H) (h := h) (i := i) (q := q)
  rw [e] at k; exact k

theorem keep_execFrerResetTimeout {i : Fin 8192} {s : State} (h : Keep H s) : KeepO H (execFrerResetTimeout i s) := by
  unfold execFrerResetTimeout; try dsimp only
  apply keepO_next
  repeat' first
    | with_reducible
      first
      | assumption | apply keep_expireRec
    | with_reducible intro _ | dsimp only | split

theorem keep_execFrerLatentTest {i : Fin 8192} {s : State} (h : Keep H s) : KeepO H (execFrerLatentTest i s) := by
  unfold execFrerLatentTest; try dsimp only
  apply keepO_next
  repeat' first
    | with_reducible
      first
      | assumption | apply keep_raise | apply keep_State_bump | apply keep_updRec
    | with_reducible intro _ | dsimp only | split

theorem keep_frerCountersReadCmd : KeepC H frerCountersReadCmd := fun _ _ h => h

theorem keep_frerCountersClearCmd : KeepC H frerCountersClearCmd := keep_rangeClear

theorem keep_ingressCountersReadCmd : KeepC H ingressCountersReadCmd := fun _ _ h => h

theorem keep_ingressCountersClearCmd : KeepC H ingressCountersClearCmd := keep_rangeClear

end Sys2Proof.Machine
end

