-- ==== Sys2Proof/Laws/KeepTime.lean ====
section
/-! SUPPORT. What the operations of Machine/Time.lean keep of `Laws.Keep`: one lemma for each. -/

set_option linter.unusedVariables false
set_option linter.unreachableTactic false
set_option linter.unusedTactic false

namespace Sys2Proof.Machine

variable {H : Hold}

theorem keep_updGclCfg {s : State} {e' : Nat} {f : GclCfg → GclCfg} (hc : H.freeC) (h : Keep H s) : Keep H (updGclCfg s e' f)
    := by
  unfold updGclCfg; try dsimp only
  repeat' first
    | with_reducible
      first
      | assumption | apply keep_updStreamCfg
    | with_reducible intro _ | dsimp only | split

theorem keep_updGcl {s : State} {e' : Nat} {f : GclRun → GclRun} (h : Keep H s) : Keep H (updGcl s e' f) := by
  unfold updGcl; try dsimp only
  repeat' first
    | with_reducible
      first
      | assumption | apply keep_updStrm
    | with_reducible intro _ | dsimp only | split

theorem keep_gclLoadCmd (hc : H.freeC) : KeepC H (gclLoadCmd) := by
  intro s r h
  dsimp only [gclLoadCmd, confCmd, doOk]
  repeat' first
    | with_reducible
      first
      | assumption | apply keep_updGclCfg | apply keep_foldl | apply keep_foldl1
    | with_reducible intro _ | dsimp only | split

theorem keep_gclStatusCmd : KeepC H gclStatusCmd := fun _ _ h => h

theorem keep_gclReadCmd : KeepC H gclReadCmd := fun _ _ h => h

theorem keep_preemptFrame {s : State} {e' : Nat} (h : Keep H s) : Keep H (preemptFrame s e') := by
  unfold preemptFrame; try dsimp only
  repeat' first
    | with_reducible
      first
      | assumption | apply keep_State_updEgr | apply keep_settleCredit
    | with_reducible intro _ | dsimp only | split

theorem keep_resumeFrame {s : State} {e' : Nat} (h : Keep H s) : Keep H (resumeFrame s e') := by
  unfold resumeFrame; try dsimp only
  repeat' first
    | with_reducible
      first
      | assumption | apply keep_State_bump | apply keep_State_updEgr | apply keep_settleCredit
    | with_reducible intro _ | dsimp only | split

theorem keep_lpiSettle {s : State} {p : Nat} (h : Keep H s) : Keep H (lpiSettle s p) := by
  unfold lpiSettle; try dsimp only
  repeat' first
    | with_reducible
      first
      | assumption | apply keep_macWake
    | with_reducible intro _ | dsimp only | split

theorem keep_applyEntry {before : State} {s : State} {e' : Nat} (h : Keep H s) : Keep H (applyEntry before s e') := by
  unfold applyEntry; try dsimp only
  repeat' first
    | with_reducible
      first
      | assumption | apply keep_updGcl | apply keep_preemptFrame | apply keep_State_bump | apply keep_resumeFrame
      | apply keep_macWake | apply keep_lpiSettle | ((conv => arg 2; arg 20); apply keep_upd) | exact rfl | exact .inl rfl
    | (with_reducible apply Or.inr); exact Nat.le_of_ble_eq_true rfl | with_reducible intro _ | dsimp only | split

theorem keep_execGateChange {e' : Fin 192} {s : State} (h : Keep H s) : KeepO H (execGateChange e' s) := by
  unfold execGateChange; try dsimp only
  apply keepO_next
  repeat' first
    | with_reducible
      first
      | assumption | apply keep_applyEntry | apply keep_updGcl | apply keep_settleCredit
    | with_reducible intro _ | dsimp only | split

theorem keep_configChange {s : State} {e' : Nat} (hc : H.freeC) (h : Keep H s) : Keep H (configChange s e') := by
  unfold configChange; try dsimp only
  repeat' first
    | with_reducible
      first
      | assumption | apply keep_updGclCfg | apply keep_updGcl | apply keep_realign | apply keep_applyEntry
      | apply keep_lpiSettle | apply keep_raise | ((conv => arg 2; arg 20); apply keep_upd)
      | ((conv => arg 2; arg 20); apply keep_updc) | exact rfl | exact .inl rfl
    | (with_reducible apply Or.inr); exact Nat.le_of_ble_eq_true rfl | with_reducible intro _ | dsimp only | split

theorem keep_execGclConfigChange {e' : Fin 192} {s : State} (hc : H.freeC) (h : Keep H s) : KeepO H (execGclConfigChange
    e' s) := by
  unfold execGclConfigChange; try dsimp only
  apply keepO_next
  repeat' first
    | with_reducible
      first
      | assumption | apply keep_configChange
    | with_reducible intro _ | dsimp only | split

theorem keep_gclSetCmd (hc : H.freeC) : KeepC H gclSetCmd := by
  intro s r h
  dsimp only [gclSetCmd, confCmd, clearCmd, portClear, readCmd, doOk, readOk, doAccepted]
  repeat' first
    | with_reducible
      first
      | assumption | apply keep_configChange | apply keep_updGclCfg | ((conv => arg 2; arg 20); apply keep_upd)
      | ((conv => arg 2; arg 20); apply keep_updc) | exact rfl | exact .inl rfl
    | (with_reducible apply Or.inr); exact Nat.le_of_ble_eq_true rfl | with_reducible intro _ | dsimp only | split

theorem keep_preemptConfigCmd (hc : H.freeC) : KeepC H (preemptConfigCmd) := by
  intro s r h
  dsimp only [preemptConfigCmd, confCmd, doOk]
  repeat' first
    | with_reducible
      first
      | assumption | apply keep_updStreamCfg | apply keep_preemptUp
    | with_reducible intro _ | dsimp only | split

theorem keep_preemptStatusCmd : KeepC H preemptStatusCmd := fun _ _ h => h

theorem keep_execPreemptVerifyDone {p : PortId} {ok : Bool} {s : State} (h : Keep H s)
    : KeepO H (execPreemptVerifyDone p ok s) := by
  unfold execPreemptVerifyDone; try dsimp only
  apply keepO_next
  repeat' first
    | with_reducible
      first
      | assumption | apply keep_raise | apply keep_setPreempt
    | dsimp only | split

theorem keep_preemptCountersReadCmd : KeepC H preemptCountersReadCmd := fun _ _ h => h

theorem keep_preemptCountersClearCmd : KeepC H (preemptCountersClearCmd) := by
  intro s r h
  dsimp only [preemptCountersClearCmd, clearCmd, doOk]
  repeat' first
    | with_reducible
      first
      | assumption | apply keep_State_clearCnt | apply keep_eachN
    | with_reducible intro _ | dsimp only | split

theorem keep_timeReadCmd : KeepC H timeReadCmd := fun _ _ h => h

theorem keep_setBase {s : State} {i : Nat} {b : TimeBase} (h : Keep H s) : Keep H (setBase s i b) := by
  unfold setBase; try dsimp only
  repeat' first
    | with_reducible
      first
      | assumption | apply keep_updStrm
    | with_reducible intro _ | dsimp only | split

theorem keep_realign {s : State} {i : Nat} (h : Keep H s) : Keep H (realign s i) := by
  unfold realign; try dsimp only
  repeat' first
    | with_reducible
      first
      | assumption | apply keep_updStrm | ((conv => arg 2; arg 20); apply keep_upd) | exact rfl | exact .inl rfl
    | (with_reducible apply Or.inr); exact Nat.le_of_ble_eq_true rfl | with_reducible intro _ | dsimp only | split

theorem keep_stepBase {s : State} {i : Nat} {d : Int} (h : Keep H s) : Keep H (stepBase s i d) := by
  unfold stepBase; try dsimp only
  repeat' first
    | with_reducible
      first
      | assumption | apply keep_setBase | apply keep_realign
    | with_reducible intro _ | dsimp only | split

theorem keep_rateBase {s : State} {i : Nat} {rate : Int} (h : Keep H s) : Keep H (rateBase s i rate) := by
  unfold rateBase; try dsimp only
  repeat' first
    | with_reducible
      first
      | assumption | apply keep_setBase
    | dsimp only | split

theorem keep_timeAdjustCmd : KeepC H timeAdjustCmd := by
  intro s r h
  dsimp only [timeAdjustCmd, doOk]
  repeat' first
    | with_reducible
      first
      | assumption | apply keep_setBase | apply keep_realign | apply keep_stepBase | apply keep_rateBase
    | with_reducible intro _ | dsimp only | split

theorem keep_updGptp {s : State} {i : Nat} {f : GptpRun → GptpRun} (h : Keep H s) : Keep H (updGptp s i f) := by
  unfold updGptp; try dsimp only
  repeat' first
    | with_reducible
      first
      | assumption | apply keep_updStrm
    | with_reducible intro _ | dsimp only | split

theorem keep_gptpState {s : State} {i : Nat} {st : Nat} (h : Keep H s) : Keep H (gptpState s i st) := by
  unfold gptpState; try dsimp only
  repeat' first
    | with_reducible
      first
      | assumption | apply keep_updGptp | apply keep_raise
    | with_reducible intro _ | dsimp only | split

theorem keep_gptpElect {s : State} {i : Nat} (h : Keep H s) : Keep H (gptpElect s i) := by
  unfold gptpElect; try dsimp only
  repeat' first
    | with_reducible
      first
      | assumption | apply keep_updGptp | apply keep_gptpState
    | with_reducible intro _ | dsimp only | split

theorem keep_gptpConfigCmd (hc : H.freeC) : KeepC H (gptpConfigCmd) := by
  intro s r h
  dsimp only [gptpConfigCmd, confCmd, doOk]
  repeat' first
    | with_reducible
      first
      | assumption | apply keep_gptpElect | apply keep_updStreamCfg
    | with_reducible intro _ | dsimp only | split

theorem keep_gptpPortConfigCmd (hc : H.freeC) : KeepC H (gptpPortConfigCmd) := by
  intro s r h
  dsimp only [gptpPortConfigCmd, confCmd, doOk]
  repeat' first
    | with_reducible
      first
      | assumption | apply keep_gptpElect | apply keep_updStreamCfg
    | with_reducible intro _ | dsimp only | split

theorem keep_gptpStatusCmd : KeepC H gptpStatusCmd := fun _ _ h => h

theorem keep_gptpCountersReadCmd : KeepC H gptpCountersReadCmd := fun _ _ h => h

theorem keep_rejectSample {s : State} {i : Nat} (h : Keep H s) : Keep H (rejectSample s i) := by
  unfold rejectSample; try dsimp only
  repeat' first
    | with_reducible
      first
      | assumption | apply keep_State_bump | apply keep_updGptp
    | with_reducible intro _ | dsimp only | split

theorem keep_gptpSync {s : State} {i : Nat} {pos : Nat} {offset : Int} {rate : Int} (h : Keep H s)
    : Keep H (gptpSync s i pos offset rate) := by
  unfold gptpSync; try dsimp only
  repeat' first
    | with_reducible
      first
      | assumption | apply keep_stepBase | apply keep_rateBase | apply keep_updGptp | apply keep_gptpState
      | apply keep_rejectSample
    | with_reducible intro _ | dsimp only | split

theorem keep_execGptpMessageRx {i : Fin 4} {pos : Fin 192} {m : GptpMsg} {s : State} (h : Keep H s)
    : KeepO H (execGptpMessageRx i pos m s) := by
  unfold execGptpMessageRx; try dsimp only
  apply keepO_next
  repeat' first
    | with_reducible
      first
      | assumption | apply keep_State_bump | apply keep_gptpSync | apply keep_updGptp | apply keep_rejectSample
      | apply keep_gptpState
    | with_reducible intro _ | dsimp only | split

theorem keep_execGptpSyncTx {i : Fin 4} {pos : Fin 192} {s : State} (h : Keep H s) : KeepO H (execGptpSyncTx i pos s) := by
  unfold execGptpSyncTx; try dsimp only
  apply keepO_next
  repeat' first
    | with_reducible
      first
      | assumption | apply keep_State_bump
    | dsimp only | split

theorem keep_execGptpPdelayTx {i : Fin 4} {pos : Fin 192} {s : State} (h : Keep H s) : KeepO H (execGptpPdelayTx i pos s) := by
  unfold execGptpPdelayTx; try dsimp only
  apply keepO_next
  repeat' first
    | with_reducible
      first
      | assumption | apply keep_State_bump
    | dsimp only | split

theorem keep_gptpLose {s : State} (h : Keep H s) : Keep H (gptpLose s) := by
  unfold gptpLose; try dsimp only
  repeat' first
    | with_reducible
      first
      | assumption | apply keep_gptpState | apply keep_eachN
    | with_reducible intro _ | dsimp only | split

theorem keep_ppsConfigCmd (hc : H.freeC) : KeepC H (ppsConfigCmd) := by
  intro s r h
  dsimp only [ppsConfigCmd, confCmd, doOk]
  repeat' first
    | with_reducible
      first
      | assumption | apply keep_updStreamCfg
    | with_reducible intro _ | dsimp only | split

theorem keep_execPpsOutPulse {rise : Bool} {s : State} (h : Keep H s) : KeepO H (execPpsOutPulse rise s) := by
  unfold execPpsOutPulse; try dsimp only
  apply keepO_next
  repeat' first
    | with_reducible
      first
      | assumption | ((conv => arg 2; arg 20); apply keep_upd) | exact rfl | exact .inl rfl
    | (with_reducible apply Or.inr); exact Nat.le_of_ble_eq_true rfl | dsimp only | split

theorem keep_execPpsInEdge {s : State} (h : Keep H s) : KeepO H (execPpsInEdge s) := by
  unfold execPpsInEdge; try dsimp only
  apply keepO_next
  repeat' first
    | with_reducible
      first
      | assumption | apply keep_State_bump | apply keep_updStrm
    | with_reducible intro _ | dsimp only | split

theorem keep_ppsInReadCmd : KeepC H ppsInReadCmd := fun _ _ h => h

end Sys2Proof.Machine
end

