-- ==== Sys2Proof/Laws/KeepAdmit.lean ====
section
/-! SUPPORT. What the operations of Machine/Admit.lean keep of `Laws.Keep`: one lemma for each. -/

set_option linter.unusedVariables false
set_option linter.unreachableTactic false
set_option linter.unusedTactic false

namespace Sys2Proof.Machine

variable {H : Hold}

theorem keep_offerDown {s : State} {e' : Nat} {slack : Bool} (h : Keep H s) : Keep H (offerDown s e' slack) := by
  unfold offerDown; try dsimp only
  repeat' first
    | with_reducible
      first
      | assumption | apply keep_State_bump | apply keep_countDown | apply keep_wakePort
    | with_reducible intro _ | dsimp only | split

theorem keep_poolExhausted {s : State} {i : Nat} (h : Keep H s) : Keep H (poolExhausted s i) := by
  unfold poolExhausted; try dsimp only
  repeat' first
    | with_reducible
      first
      | assumption | apply keep_raise | apply keep_State_updSlice
    | with_reducible intro _ | dsimp only | split

theorem keep_chargeQueue {s : State} {q : Nat} {i : Nat} {c : Nat} {shared : Bool} (h : Keep H s)
    : Keep H (chargeQueue s q i c shared) := by
  unfold chargeQueue; try dsimp only
  repeat' first
    | with_reducible
      first
      | assumption | ((conv => arg 2; arg 20); apply keep_upd) | exact rfl | exact .inl rfl
    | (with_reducible apply Or.inr); exact Nat.le_of_ble_eq_true rfl | dsimp only | split

theorem keep_enqueue {s : State} {id : Nat} {i : Nat} {e' : Nat} {cls : Nat} {n : Nat} {shared : Bool} (h : Keep H s) :
    Keep H (enqueue s id i e' cls n shared) := by
  unfold enqueue; try dsimp only
  repeat' first
    | with_reducible
      first
      | assumption | apply keep_chargeQueue | apply keep_settleCredit | apply keep_State_bump | apply keep_State_bumpBy
      | apply keep_lpiSettle | ((conv => arg 2; arg 20); apply keep_upd) | exact rfl | exact .inl rfl
    | (with_reducible apply Or.inr); exact Nat.le_of_ble_eq_true rfl | with_reducible intro _ | dsimp only | split

theorem keep_offer1 {s : State} {id : Nat} {i : Nat} {cls : Nat} {n : Nat} {slack : Bool} {acc : List (Nat × Bool ×
    Bool)} {e' : Nat} {cut : Bool} (h : Keep H s) : Keep H (offer s id i cls n slack acc e' cut).1 := by
  unfold offer; try dsimp only
  repeat' first
    | with_reducible
      first
      | assumption | apply keep_State_bump | apply keep_offerDown | apply keep_poolExhausted | apply keep_enqueue
    | with_reducible intro _ | dsimp only | split

theorem keep_offer {s : State} {id : Nat} {i : Nat} {cls : Nat} {n : Nat} {slack : Bool} {acc : List (Nat × Bool × Bool)}
    {e' : Nat} {cut : Bool} {out : State} {snd : _} (h : Keep H s)
    (e : offer s id i cls n slack acc e' cut = (out, snd)) : Keep H out := by
  have k := keep_offer1 (H := H) (h := h) (id := id) (i := i) (cls := cls) (n := n) (slack := slack) (acc := acc) (e' :=
      e') (cut := cut)
  rw [e] at k; exact k

theorem keep_admitFrame {s : State} {f : Frame} {cls : Nat} {dests : List (Nat × Bool)} (h : Keep H s) : Keep H
    (admitFrame s f cls dests) := by
  unfold admitFrame; try dsimp only
  repeat' first
    | with_reducible
      first
      | assumption | apply keep_offer1 | apply keep_cellsWritten | apply keep_State_updSlice | apply keep_foldl
      | apply keep_foldl1 | ((conv => arg 2; arg 20); apply keep_upd) | exact rfl | exact .inl rfl
    | refine keep_offer (e := by assumption) ?_ | (with_reducible apply Or.inr); exact Nat.le_of_ble_eq_true rfl
    | with_reducible intro _ | dsimp only | split

theorem keep_sendFrame {s : State} {e' : Nat} {cls : Nat} {bs : List Byte} (h : Keep H s) : Keep H (sendFrame s e' cls bs) := by
  unfold sendFrame; try dsimp only
  repeat' first
    | with_reducible
      first
      | assumption | apply keep_admitFrame
    | dsimp only | split

end Sys2Proof.Machine
end

