-- ==== Sys2Proof/Laws/KeepLanes.lean ====
section
/-! SUPPORT. What the operations of Machine/Lanes.lean keep of `Laws.Keep`: one lemma for each. -/

set_option linter.unusedVariables false
set_option linter.unreachableTactic false
set_option linter.unusedTactic false

namespace Sys2Proof.Machine

variable {H : Hold}

theorem keep_endScan {s : State} {m : Nat} {status : Nat} (h : Keep H s) : Keep H (endScan s m status) := by
  unfold endScan; try dsimp only
  repeat' first
    | with_reducible
      first
      | assumption | apply keep_State_updLane | apply keep_raise | apply keep_closeWaiter
    | with_reducible intro _ | dsimp only | split

theorem keep_setLane {s : State} {m : Nat} {st : LaneSt} (h : Keep H s) : Keep H (setLane s m st) := by
  unfold setLane; try dsimp only
  repeat' first
    | with_reducible
      first
      | assumption | apply keep_endScan | apply keep_abandonRun | apply keep_markItem6 | apply keep_State_updLane
    | with_reducible intro _ | dsimp only | split

theorem keep_laneTrain {s : State} {m : Nat} (h : Keep H s) : Keep H (laneTrain s m) := by
  unfold laneTrain; try dsimp only
  repeat' first
    | with_reducible
      first
      | assumption | apply keep_setLane | apply keep_State_updLane | apply keep_State_bump
    | with_reducible intro _ | dsimp only | split

theorem keep_laneDown {s : State} {m : Nat} (h : Keep H s) : Keep H (laneDown s m) := by
  unfold laneDown; try dsimp only
  repeat' first
    | with_reducible
      first
      | assumption | apply keep_laneTrain | apply keep_setLane
    | dsimp only | split

theorem keep_leaveQuietLane {s : State} {m : Nat} (h : Keep H s) : Keep H (leaveQuietLane s m) := by
  unfold leaveQuietLane; try dsimp only
  repeat' first
    | with_reducible
      first
      | assumption | apply keep_laneDown
    | dsimp only | split

theorem keep_linkRest {s : State} {k : Nat} (h : Keep H s) : Keep H (linkRest s k) := by
  unfold linkRest; try dsimp only
  repeat' first
    | with_reducible
      first
      | assumption | apply keep_State_updLink
    | with_reducible intro _ | dsimp only | split

theorem keep_ebbJobDone {s : State} {k : Nat} (h : Keep H s) : Keep H (ebbJobDone s k) := by
  unfold ebbJobDone; try dsimp only
  repeat' first
    | with_reducible
      first
      | assumption | apply keep_closeWaiter | apply keep_foldl | apply keep_foldl1
      | ((conv => arg 2; arg 20); apply keep_upd) | exact rfl | exact .inl rfl
    | (with_reducible apply Or.inr); exact Nat.le_of_ble_eq_true rfl | with_reducible intro _ | dsimp only | split

theorem keep_ebbLeft {s : State} {k : Nat} (h : Keep H s) : Keep H (ebbLeft s k) := by
  unfold ebbLeft; try dsimp only
  repeat' first
    | with_reducible
      first
      | assumption | apply keep_State_updLink | apply keep_ebbJobDone | apply keep_raise
    | with_reducible intro _ | dsimp only | split

theorem keep_laneQuiet {s : State} {m : Nat} {reason : Nat} (h : Keep H s) : Keep H (laneQuiet s m reason) := by
  unfold laneQuiet; try dsimp only
  repeat' first
    | with_reducible
      first
      | assumption | apply keep_markTest | apply keep_setLane | apply keep_State_updLane
      | ((conv => arg 2; arg 20); apply keep_upd) | exact rfl | exact .inl rfl
    | (with_reducible apply Or.inr); exact Nat.le_of_ble_eq_true rfl | with_reducible intro _ | dsimp only | split

theorem keep_rebondLane {s : State} {m : Nat} (h : Keep H s) : Keep H (rebondLane s m) := by
  unfold rebondLane; try dsimp only
  repeat' first
    | with_reducible
      first
      | assumption | apply keep_laneQuiet | apply keep_leaveQuietLane | apply keep_State_updLane | apply keep_laneDown
      | ((conv => arg 2; arg 20); apply keep_upd) | exact rfl | exact .inl rfl
    | (with_reducible apply Or.inr); exact Nat.le_of_ble_eq_true rfl | with_reducible intro _ | dsimp only | split

theorem keep_bondLanes {s : State} {q : Nat} (h : Keep H s) : Keep H (bondLanes s q) := by
  unfold bondLanes; try dsimp only
  repeat' first
    | with_reducible
      first
      | assumption | apply keep_State_updLane | apply keep_rebondLane | apply keep_linkRest | apply keep_eachN
      | ((conv => arg 2; arg 20); apply keep_upd) | exact rfl | exact .inl rfl
    | (with_reducible apply Or.inr); exact Nat.le_of_ble_eq_true rfl | with_reducible intro _ | dsimp only | split

theorem keep_linkDrop {s : State} {k' : Nat} {reason : Nat} (h : Keep H s) : Keep H (linkDrop s k' reason) := by
  unfold linkDrop; try dsimp only
  repeat' first
    | with_reducible
      first
      | assumption | apply keep_raise | apply keep_State_bump | apply keep_loseReplies | apply keep_dropMac
      | apply keep_ebbJobDone | apply keep_State_updLink | apply keep_bondLanes
      | ((conv => arg 2; arg 20); apply keep_upd) | exact rfl | exact .inl rfl
    | (with_reducible apply Or.inr); exact Nat.le_of_ble_eq_true rfl | with_reducible intro _ | dsimp only | split

theorem keep_linkRetrain {s : State} {k : Nat} {reason : Nat} (h : Keep H s) : Keep H (linkRetrain s k reason) := by
  unfold linkRetrain; try dsimp only
  repeat' first
    | with_reducible
      first
      | assumption | apply keep_linkDrop | apply keep_laneDown | apply keep_linkRest | apply keep_eachN
    | with_reducible intro _ | dsimp only | split

theorem keep_quietLane {s : State} {m : Nat} {reason : Nat} (h : Keep H s) : Keep H (quietLane s m reason) := by
  unfold quietLane; try dsimp only
  repeat' first
    | with_reducible
      first
      | assumption | apply keep_linkRetrain | apply keep_laneQuiet | apply keep_linkRest
    | with_reducible intro _ | dsimp only | split

theorem keep_ebbEnter {s : State} {k : Nat} {cause : Nat} (h : Keep H s) : Keep H (ebbEnter s k cause) := by
  unfold ebbEnter; try dsimp only
  repeat' first
    | with_reducible
      first
      | assumption | apply keep_linkDrop | apply keep_State_bump | apply keep_setLane | apply keep_ebbJobDone
      | apply keep_raise | apply keep_linkRest | apply keep_eachN
    | with_reducible intro _ | dsimp only | split

theorem keep_ebbCommand {s : State} {k : Nat} (h : Keep H s) : Keep H (ebbCommand s k) := by
  unfold ebbCommand; try dsimp only
  repeat' first
    | with_reducible
      first
      | assumption | apply keep_ebbJobDone | apply keep_State_updLink | apply keep_ebbEnter
    | with_reducible intro _ | dsimp only | split

theorem keep_ebbWake {s : State} {k : Nat} {cause : Nat} (h : Keep H s) : Keep H (ebbWake s k cause) := by
  unfold ebbWake; try dsimp only
  repeat' first
    | with_reducible
      first
      | assumption | apply keep_State_updLink | apply keep_ebbLeft | apply keep_linkRest | apply keep_laneDown
      | apply keep_State_updLane | apply keep_eachN
    | with_reducible intro _ | dsimp only | split

theorem keep_linkRestart {s : State} {k' : Nat} (h : Keep H s) : Keep H (linkRestart s k') := by
  unfold linkRestart; try dsimp only
  repeat' first
    | with_reducible
      first
      | assumption | apply keep_State_updLink | apply keep_linkRetrain | apply keep_State_updLane | apply keep_ebbLeft
      | apply keep_eachN | ((conv => arg 2; arg 20); apply keep_upd) | exact rfl | exact .inl rfl
    | (with_reducible apply Or.inr); exact Nat.le_of_ble_eq_true rfl | with_reducible intro _ | dsimp only | split

theorem keep_bondDrop {s : State} {k' : Nat} (h : Keep H s) : Keep H (bondDrop s k') := by
  unfold bondDrop; try dsimp only
  repeat' first
    | with_reducible
      first
      | assumption | apply keep_State_updLink | apply keep_linkDrop | apply keep_ebbLeft
      | ((conv => arg 2; arg 20); apply keep_upd) | exact rfl | exact .inl rfl
    | (with_reducible apply Or.inr); exact Nat.le_of_ble_eq_true rfl | with_reducible intro _ | dsimp only | split

theorem keep_setBond {s : State} {q : Nat} {ws : List Nat} (hc : H.freeC) (h : Keep H s) : Keep H (setBond s q ws) := by
  unfold setBond
  extract_lets old altered mark s1 c1 s2 s3
  have hm : ∀ s m, Keep H s → Keep H (mark s m) := fun _ _ => keep_State_updLane
  have h1 : Keep H s1 := keep_eachN (keep_eachN h hm) fun _ _ => keep_bondDrop
  clear_value s1
  have h2 : Keep H s2 := keep_updc h1 hc rfl rfl rfl rfl rfl rfl (.inl rfl) (.inl rfl)
  clear_value s2
  refine keep_bondLanes (keep_eachN (keep_eachN h2 fun s j hs => ?_) hm)
  dsimp only
  split
  · exact keep_flushEgress hs fun _ => keep_countFlush
  · split
    · exact keep_upd (keep_counters (clr := s.cleared) hs (counters_drop (counters_of_keep hs))) rfl rfl rfl rfl rfl rfl (.inl rfl) (.inl rfl)
    · exact hs

theorem keep_linkFrameEnd {s : State} {k' : Nat} (h : Keep H s) : Keep H (linkFrameEnd s k') := by
  unfold linkFrameEnd; try dsimp only
  repeat' first
    | with_reducible
      first
      | assumption | apply keep_linkDrop | apply keep_linkRetrain | apply keep_ebbEnter | apply keep_State_updLink
      | ((conv => arg 2; arg 20); apply keep_upd) | exact rfl | exact .inl rfl
    | (with_reducible apply Or.inr); exact Nat.le_of_ble_eq_true rfl | with_reducible intro _ | dsimp only | split

theorem keep_hostLinkConfigCmd (hc : H.freeC) : KeepC H (hostLinkConfigCmd) := by
  intro s r h
  dsimp only [hostLinkConfigCmd, confCmd, doOk]
  repeat' first
    | with_reducible
      first
      | assumption | apply keep_setBond
    | dsimp only | split

theorem keep_setLaneCfg {s : State} {m : Nat} {c : LaneCfg} (hc : H.freeC) (h : Keep H s) : Keep H (setLaneCfg s m c) := by
  unfold setLaneCfg; try dsimp only
  repeat' first
    | with_reducible
      first
      | assumption | apply keep_endScan | apply keep_linkRestart | ((conv => arg 2; arg 20); apply keep_upd)
      | ((conv => arg 2; arg 20); apply keep_updc) | exact rfl | exact .inl rfl
    | (with_reducible apply Or.inr); exact Nat.le_of_ble_eq_true rfl | dsimp only | split

theorem keep_hostLaneConfigCmd (hc : H.freeC) : KeepC H (hostLaneConfigCmd) := by
  intro s r h
  dsimp only [hostLaneConfigCmd, confCmd, doOk]
  repeat' first
    | with_reducible
      first
      | assumption | apply keep_setLaneCfg
    | dsimp only | split

theorem keep_hostLinkMacConfigCmd (hc : H.freeC) : KeepC H (hostLinkMacConfigCmd) := by
  intro s r h
  dsimp only [hostLinkMacConfigCmd, confCmd, doOk]
  repeat' first
    | with_reducible
      first
      | assumption | ((conv => arg 2; arg 20); apply keep_upd) | ((conv => arg 2; arg 20); apply keep_updc) | exact rfl
      | exact .inl rfl
    | (with_reducible apply Or.inr); exact Nat.le_of_ble_eq_true rfl | dsimp only | split

theorem keep_setLaneAdmin {s : State} {m : Nat} {quiet : Bool} (hc : H.freeC) (h : Keep H s)
    : Keep H (setLaneAdmin s m quiet) := by
  unfold setLaneAdmin; try dsimp only
  repeat' first
    | with_reducible
      first
      | assumption | apply keep_quietLane | apply keep_leaveQuietLane | ((conv => arg 2; arg 20); apply keep_upd)
      | ((conv => arg 2; arg 20); apply keep_updc) | exact rfl | exact .inl rfl
    | (with_reducible apply Or.inr); exact Nat.le_of_ble_eq_true rfl | dsimp only | split

theorem keep_hostAdminCmd (hc : H.freeC) : KeepC H (hostAdminCmd) := by
  intro s r h
  dsimp only [hostAdminCmd, doOk]
  repeat' first
    | with_reducible
      first
      | assumption | apply keep_setLaneAdmin | apply keep_eachN
    | with_reducible intro _ | dsimp only | split

theorem keep_hostEbbCmd : KeepC H (hostEbbCmd) := by
  intro s r h
  dsimp only [hostEbbCmd, doAccepted]
  repeat' first
    | with_reducible
      first
      | assumption | apply keep_closeWaiter | apply keep_ebbCommand | apply keep_ebbWake | apply keep_eachN
      | ((conv => arg 2; arg 20); apply keep_upd) | exact rfl | exact .inl rfl
    | (with_reducible apply Or.inr); exact Nat.le_of_ble_eq_true rfl | with_reducible intro _ | dsimp only | split

theorem keep_endLaneTest {s : State} {m : Nat} (h : Keep H s) : Keep H (endLaneTest s m) := by
  unfold endLaneTest; try dsimp only
  repeat' first
    | with_reducible
      first
      | assumption | apply keep_endScan | apply keep_laneDown | apply keep_State_updLane
    | with_reducible intro _ | dsimp only | split

theorem keep_startLaneTest {s : State} {m : Nat} {action : Nat} {pattern : Nat} (h : Keep H s)
    : Keep H (startLaneTest s m action pattern) := by
  unfold startLaneTest; try dsimp only
  repeat' first
    | with_reducible
      first
      | assumption | apply keep_State_updLane | apply keep_setLane
    | with_reducible intro _ | dsimp only | split

theorem keep_leaveLaneTest {s : State} {m : Nat} (h : Keep H s) : Keep H (leaveLaneTest s m) := by
  unfold leaveLaneTest; try dsimp only
  repeat' first
    | with_reducible
      first
      | assumption | apply keep_State_updLane | apply keep_setLane | apply keep_laneDown
    | with_reducible intro _ | dsimp only | split

theorem keep_hostTestCmd : KeepC H (hostTestCmd) := by
  intro s r h
  dsimp only [hostTestCmd, doOk]
  repeat' first
    | with_reducible
      first
      | assumption | apply keep_endLaneTest | apply keep_linkDrop | apply keep_startLaneTest | apply keep_linkRest
      | apply keep_eachN
    | with_reducible intro _ | dsimp only | split

theorem keep_safeLanes {s : State} (h : Keep H s) : Keep H (safeLanes s) := by
  unfold safeLanes; try dsimp only
  repeat' first
    | with_reducible
      first
      | assumption | apply keep_leaveLaneTest | apply keep_markTest | apply keep_endLaneTest | apply keep_eachN
    | with_reducible intro _ | dsimp only | split

theorem keep_hostLaneStatusCmd : KeepC H hostLaneStatusCmd := fun _ _ h => h

theorem keep_hostLinkStatusCmd : KeepC H hostLinkStatusCmd := fun _ _ h => h

theorem keep_hostLaneCountersReadCmd : KeepC H hostLaneCountersReadCmd := fun _ _ h => h

theorem keep_hostLaneCountersClearCmd : KeepC H (hostLaneCountersClearCmd) := by
  intro s r h
  dsimp only [hostLaneCountersClearCmd, clearCmd, doOk]
  repeat' first
    | with_reducible
      first
      | assumption | apply keep_State_clearCnt | apply keep_eachN
    | with_reducible intro _ | dsimp only | split

theorem keep_hostLinkCountersReadCmd : KeepC H hostLinkCountersReadCmd := fun _ _ h => h

theorem keep_hostLinkCountersClearCmd : KeepC H (hostLinkCountersClearCmd) := by
  intro s r h
  dsimp only [hostLinkCountersClearCmd, doOk]
  repeat' first
    | with_reducible
      first
      | assumption | apply keep_State_clearCnt | apply keep_eachN
    | with_reducible intro _ | dsimp only | split

theorem keep_eyeScanStartCmd : KeepC H (eyeScanStartCmd) := by
  intro s r h
  dsimp only [eyeScanStartCmd, doAccepted]
  repeat' first
    | with_reducible
      first
      | assumption | apply keep_complete | apply keep_endScan | apply keep_State_updLane
    | with_reducible intro _ | dsimp only | split

theorem keep_eyeScanReadCmd : KeepC H eyeScanReadCmd := fun _ _ h => h

theorem keep_execEyeScanPointEnd {m : LaneId} {errors : Nat} {s : State} (h : Keep H s)
    : KeepO H (execEyeScanPointEnd m errors s) := by
  unfold execEyeScanPointEnd; try dsimp only
  apply keepO_next
  repeat' first
    | with_reducible
      first
      | assumption | apply keep_State_updLane
    | with_reducible intro _ | dsimp only | split

theorem keep_execEyeScanDone {m : LaneId} {s : State} (h : Keep H s) : KeepO H (execEyeScanDone m s) := by
  unfold execEyeScanDone; try dsimp only
  apply keepO_next
  repeat' first
    | with_reducible
      first
      | assumption | apply keep_endScan
    | dsimp only | split

theorem keep_execLaneTrainingComplete {m : LaneId} {foms : List Int} {partnerReq : Bool} {tx : List Int} {s : State} (h :
    Keep H s) : KeepO H (execLaneTrainingComplete m foms partnerReq tx s) := by
  unfold execLaneTrainingComplete; try dsimp only
  apply keepO_next
  repeat' first
    | with_reducible
      first
      | assumption | apply keep_setLane | apply keep_State_updLane | ((conv => arg 2; arg 20); apply keep_upd)
      | exact rfl | exact .inl rfl
    | (with_reducible apply Or.inr); exact Nat.le_of_ble_eq_true rfl | with_reducible intro _ | dsimp only | split

theorem keep_execLaneTrainingTimeout {m : LaneId} {s : State} (h : Keep H s) : KeepO H (execLaneTrainingTimeout m s) := by
  unfold execLaneTrainingTimeout; try dsimp only
  apply keepO_next
  repeat' first
    | with_reducible
      first
      | assumption | apply keep_laneDown | apply keep_State_bump
    | dsimp only | split

theorem keep_laneTested {s : State} {m : Nat} {x : LaneReport} (h : Keep H s) : Keep H (laneTested s m x) := by
  unfold laneTested; try dsimp only
  repeat' first
    | with_reducible
      first
      | assumption | apply keep_State_updLane | apply keep_State_bumpBy | ((conv => arg 2; arg 20); apply keep_upd)
      | exact rfl | exact .inl rfl
    | (with_reducible apply Or.inr); exact Nat.le_of_ble_eq_true rfl | with_reducible intro _ | dsimp only | split

theorem keep_countReport {s : State} {m : Nat} {x : LaneReport} (h : Keep H s) : Keep H (countReport s m x) := by
  unfold countReport; try dsimp only
  repeat' first
    | with_reducible
      first
      | assumption | apply keep_laneTested | apply keep_State_bumpBy | apply keep_State_updLink
      | ((conv => arg 2; arg 20); apply keep_upd) | exact rfl | exact .inl rfl
    | (with_reducible apply Or.inr); exact Nat.le_of_ble_eq_true rfl | with_reducible intro _ | dsimp only | split

theorem keep_execFomIntervalEnd {m : LaneId} {x : LaneReport} {s : State} (h : Keep H s) : KeepO H (execFomIntervalEnd m
    x s) := by
  unfold execFomIntervalEnd; try dsimp only
  apply keepO_next
  repeat' first
    | with_reducible
      first
      | assumption | apply keep_countReport | apply keep_State_updLane | apply keep_State_draw | apply keep_setLane
      | apply keep_linkRest
    | with_reducible intro _ | dsimp only | split

theorem keep_ctleStep {s : State} {m : Nat} {c : Nat} (h : Keep H s) : Keep H (ctleStep s m c) := by
  unfold ctleStep; try dsimp only
  repeat' first
    | with_reducible
      first
      | assumption | apply keep_State_updLane | apply keep_State_bump | ((conv => arg 2; arg 20); apply keep_upd)
      | exact rfl | exact .inl rfl
    | (with_reducible apply Or.inr); exact Nat.le_of_ble_eq_true rfl | with_reducible intro _ | dsimp only | split

theorem keep_execHostCtleStep {m : LaneId} {s : State} (h : Keep H s) : KeepO H (execHostCtleStep m s) := by
  unfold execHostCtleStep; try dsimp only
  apply keepO_next
  repeat' first
    | with_reducible
      first
      | assumption | apply keep_State_updLane | apply keep_State_bump | apply keep_ctleStep
      | ((conv => arg 2; arg 20); apply keep_upd) | exact rfl | exact .inl rfl
    | (with_reducible apply Or.inr); exact Nat.le_of_ble_eq_true rfl | with_reducible intro _ | dsimp only | split

theorem keep_execHostCtleHoldEnd {m : LaneId} {s : State} (h : Keep H s) : KeepO H (execHostCtleHoldEnd m s) := by
  unfold execHostCtleHoldEnd; try dsimp only
  apply keepO_next
  repeat' first
    | with_reducible
      first
      | assumption | apply keep_State_updLane
    | with_reducible intro _ | dsimp only | split

theorem keep_execHostLinkUp {k' : LinkId} {skew : BitVec 16} {order : List Nat} {s : State} (h : Keep H s) : KeepO H
    (execHostLinkUp k' skew order s) := by
  unfold execHostLinkUp; try dsimp only
  apply keepO_next
  repeat' first
    | with_reducible
      first
      | assumption | apply keep_State_updLink | apply keep_State_bump | apply keep_ebbLeft | apply keep_raise
      | ((conv => arg 2; arg 20); apply keep_upd) | exact rfl | exact .inl rfl
    | (with_reducible apply Or.inr); exact Nat.le_of_ble_eq_true rfl | with_reducible intro _ | dsimp only | split

theorem keep_execHostLinkDown {k' : LinkId} {lost : List LaneId} {am : Bool} {fec : Bool} {s : State} (h : Keep H s) :
    KeepO H (execHostLinkDown k' lost am fec s) := by
  unfold execHostLinkDown; try dsimp only
  apply keepO_next
  repeat' first
    | with_reducible
      first
      | assumption | apply keep_State_bump | apply keep_linkRetrain | apply keep_laneDown | apply keep_eachN
    | with_reducible intro _ | dsimp only | split

theorem keep_execEbbAutoEntry {k : LinkId} {s : State} (h : Keep H s) : KeepO H (execEbbAutoEntry k s) := by
  unfold execEbbAutoEntry; try dsimp only
  apply keepO_next
  repeat' first
    | with_reducible
      first
      | assumption | apply keep_ebbEnter | apply keep_State_bump | apply keep_eachN
    | with_reducible intro _ | dsimp only | split

theorem keep_execEbbSignalDetect {m : LaneId} {s : State} (h : Keep H s) : KeepO H (execEbbSignalDetect m s) := by
  unfold execEbbSignalDetect; try dsimp only
  apply keepO_next
  repeat' first
    | with_reducible
      first
      | assumption | apply keep_ebbWake
    | dsimp only | split

theorem keep_execEbbRetrainTimeout {m : LaneId} {s : State} (h : Keep H s) : KeepO H (execEbbRetrainTimeout m s) := by
  unfold execEbbRetrainTimeout; try dsimp only
  apply keepO_next
  repeat' first
    | with_reducible
      first
      | assumption | apply keep_laneDown | apply keep_State_bump | apply keep_ebbLeft | apply keep_linkRest
    | dsimp only | split

theorem keep_execLinkEgressFlush {k : LinkId} {s : State} (h : Keep H s) : KeepO H (execLinkEgressFlush k s) := by
  unfold execLinkEgressFlush; try dsimp only
  apply keepO_next
  repeat' first
    | with_reducible
      first
      | assumption | apply keep_flushEgress | apply keep_countFlush
    | with_reducible intro _ | dsimp only | split

end Sys2Proof.Machine
end

