-- ==== Sys2Proof/Laws/KeepNvm.lean ====
section
/-! SUPPORT. What the operations of Machine/Nvm.lean keep of `Laws.Keep`: one lemma for each. -/

set_option linter.unusedVariables false
set_option linter.unreachableTactic false
set_option linter.unusedTactic false

namespace Sys2Proof.Machine

variable {H : Hold}

theorem keep_State_regionWrite {s : State} {i off : Nat} {bs : List Byte} (hm : H.freeM) (h : Keep H s)
    : Keep H (s.regionWrite i off bs) := by
  obtain ⟨hp, a, b, c, d, e, f, g, i, m, n⟩ := h
  exact ⟨hp, a, b, c, d, mramWrite_wf e, f, g, i, hm _ _ _ m, n⟩

theorem keep_eraseSlot {s : State} {i : Nat} (hm : H.freeM) (h : Keep H s) : Keep H (eraseSlot s i) := by
  unfold eraseSlot; try dsimp only
  repeat' first
    | with_reducible
      first
      | assumption | apply keep_State_regionWrite
    | dsimp only | split

theorem keep_writeSlotHeader {s : State} {i : Nat} {seq : Nat} {n : Nat} (hm : H.freeM) (h : Keep H s)
    : Keep H (writeSlotHeader s i seq n) := by
  unfold writeSlotHeader; try dsimp only
  repeat' first
    | with_reducible
      first
      | assumption | apply keep_State_bump | apply keep_State_regionWrite
    | dsimp only | split

theorem keep_scanSlots {s : State} (h : Keep H s) : Keep H (scanSlots s) := by
  unfold scanSlots; try dsimp only
  repeat' first
    | with_reducible
      first
      | assumption | apply keep_State_bump | apply keep_eachN
    | with_reducible intro _ | dsimp only | split

theorem keep_abandonSession {s : State} {cause : Nat} (h : Keep H s) : Keep H (abandonSession s cause) := by
  unfold abandonSession; try dsimp only
  repeat' first
    | with_reducible
      first
      | assumption | apply keep_State_bump | apply keep_raiseReady | ((conv => arg 2; arg 20); apply keep_upd) | exact rfl
      | exact .inl rfl
    | (with_reducible apply Or.inr); exact Nat.le_of_ble_eq_true rfl | dsimp only | split

theorem keep_verifyFail {s : State} (h : Keep H s) : Keep H (verifyFail s) := by
  unfold verifyFail; try dsimp only
  repeat' first
    | with_reducible
      first
      | assumption | apply keep_State_bump | ((conv => arg 2; arg 20); apply keep_upd) | exact rfl | exact .inl rfl
    | (with_reducible apply Or.inr); exact Nat.le_of_ble_eq_true rfl | dsimp only | split

theorem keep_nvmSlotStatusCmd : KeepC H nvmSlotStatusCmd := fun _ _ h => h

theorem keep_nvmReadCmd : KeepC H nvmReadCmd := fun _ _ h => h

theorem keep_nvmWriteBeginCmd {differs : Bool} (hm : H.freeM) : KeepC H (nvmWriteBeginCmd differs) := by
  intro s r h
  dsimp only [nvmWriteBeginCmd]
  repeat' first
    | with_reducible
      first
      | assumption | apply keep_eraseSlot | apply keep_verifyFail | ((conv => arg 2; arg 20); apply keep_upd) | exact rfl
      | exact .inl rfl
    | (with_reducible apply Or.inr); exact Nat.le_of_ble_eq_true rfl | dsimp only | split

theorem keep_nvmWriteCmd {differs : Bool} (hm : H.freeM) : KeepC H (nvmWriteCmd differs) := by
  intro s r h
  dsimp only [nvmWriteCmd]
  repeat' first
    | with_reducible
      first
      | assumption | apply keep_State_regionWrite | apply keep_verifyFail
    | dsimp only | split

theorem keep_nvmWriteEndCmd : KeepC H (nvmWriteEndCmd) := by
  intro s r h
  dsimp only [nvmWriteEndCmd, doAccepted]
  repeat' first
    | with_reducible
      first
      | assumption | ((conv => arg 2; arg 20); apply keep_upd) | exact rfl | exact .inl rfl
    | (with_reducible apply Or.inr); exact Nat.le_of_ble_eq_true rfl | dsimp only | split

theorem keep_execNvmWriteEndDone {differs : Bool} {s : State} (hm : H.freeM) (h : Keep H s)
    : KeepO H (execNvmWriteEndDone differs s) := by
  unfold execNvmWriteEndDone; try dsimp only
  apply keepO_next
  repeat' first
    | with_reducible
      first
      | assumption | apply keep_complete | apply keep_verifyFail | apply keep_writeSlotHeader
      | ((conv => arg 2; arg 20); apply keep_upd) | exact rfl | exact .inl rfl
    | (with_reducible apply Or.inr); exact Nat.le_of_ble_eq_true rfl | dsimp only | split

theorem keep_execNvmSessionIdleTimeout {s : State} (h : Keep H s) : KeepO H (execNvmSessionIdleTimeout s) := by
  unfold execNvmSessionIdleTimeout; try dsimp only
  apply keepO_next
  repeat' first
    | with_reducible
      first
      | assumption | apply keep_abandonSession
    | dsimp only | split

theorem keep_nvmInvalidateCmd (hm : H.freeM) : KeepC H (nvmInvalidateCmd) := by
  intro s r h
  dsimp only [nvmInvalidateCmd, doOk]
  repeat' first
    | with_reducible
      first
      | assumption | apply keep_eraseSlot
    | dsimp only | split

theorem keep_nvmCountersReadCmd : KeepC H nvmCountersReadCmd := fun _ _ h => h

theorem keep_nvmCountersClearCmd : KeepC H (nvmCountersClearCmd) := by
  intro s r h
  dsimp only [nvmCountersClearCmd, clearCmd, doOk]
  repeat' first
    | with_reducible
      first
      | assumption | apply keep_State_clearCnt
    | dsimp only | split

end Sys2Proof.Machine
end

