-- ==== Sys2Proof/Laws/KeepCalib.lean ====
section
/-! SUPPORT. What the operations of Machine/Calib.lean keep of `Laws.Keep`: one lemma for each. -/

set_option linter.unusedVariables false
set_option linter.unreachableTactic false
set_option linter.unusedTactic false

namespace Sys2Proof.Machine

variable {H : Hold}

theorem keep_calFail {s : State} {b : Nat} {item : Nat} {cause : Nat} (h : Keep H s) : Keep H (calFail s b item cause) := by
  unfold calFail; try dsimp only
  repeat' first
    | with_reducible
      first
      | assumption | apply keep_State_updCal | apply keep_State_bump | apply keep_raiseReady
    | with_reducible intro _ | dsimp only | split

theorem keep_startRun {s : State} {b : Nat} (h : Keep H s) : Keep H (startRun s b) := by
  unfold startRun; try dsimp only
  repeat' first
    | with_reducible
      first
      | assumption | apply keep_State_updCal
    | with_reducible intro _ | dsimp only | split

theorem keep_endRun {s : State} {b : Nat} (h : Keep H s) : Keep H (endRun s b) := by
  unfold endRun; try dsimp only
  repeat' first
    | with_reducible
      first
      | assumption | apply keep_State_updCal | apply keep_State_bump | ((conv => arg 2; arg 20); apply keep_upd)
      | exact rfl | exact .inl rfl
    | (with_reducible apply Or.inr); exact Nat.le_of_ble_eq_true rfl | with_reducible intro _ | dsimp only | split

theorem keep_runCheck {s : State} {b : Nat} (h : Keep H s) : Keep H (runCheck s b) := by
  unfold runCheck; try dsimp only
  repeat' first
    | with_reducible
      first
      | assumption | apply keep_endRun
    | dsimp only | split

theorem keep_applySteps {s : State} {b : Nat} {item : Nat} {value : Nat} {n : Int} (h : Keep H s)
    : Keep H (applySteps s b item value n) := by
  unfold applySteps; try dsimp only
  repeat' first
    | with_reducible
      first
      | assumption | apply keep_State_bumpBy | apply keep_State_updCal | apply keep_State_updPort
    | with_reducible intro _ | dsimp only | split

theorem keep_applyAll {s : State} {b : Nat} (h : Keep H s) : Keep H (applyAll s b) := by
  unfold applyAll; try dsimp only
  repeat' first
    | with_reducible
      first
      | assumption | apply keep_applySteps | apply keep_State_updCal | apply keep_foldl | apply keep_foldl1
    | with_reducible intro _ | dsimp only | split

theorem keep_takeResult {s : State} {b : Nat} {r : ItemResult} (h : Keep H s) : Keep H (takeResult s b r) := by
  unfold takeResult; try dsimp only
  repeat' first
    | with_reducible
      first
      | assumption | apply keep_State_updCal | apply keep_applyAll
    | with_reducible intro _ | dsimp only | split

theorem keep_judgeItem {s : State} {b : Nat} {r : ItemResult} (h : Keep H s) : Keep H (judgeItem s b r) := by
  unfold judgeItem; try dsimp only
  repeat' first
    | with_reducible
      first
      | assumption | apply keep_calFail | apply keep_takeResult
    | dsimp only | split

theorem keep_beginRun {s : State} {b : Nat} (h : Keep H s) : Keep H (beginRun s b) := by
  unfold beginRun; try dsimp only
  repeat' first
    | with_reducible
      first
      | assumption | apply keep_startRun | apply keep_endRun
    | dsimp only | split

theorem keep_execUndertowRunStart {b : CalBlock} {s : State} (h : Keep H s) : KeepO H (execUndertowRunStart b s) := by
  unfold execUndertowRunStart; try dsimp only
  apply keepO_next
  repeat' first
    | with_reducible
      first
      | assumption | apply keep_beginRun
    | dsimp only | split

theorem keep_tempCompare {s : State} {k' : Nat} (h : Keep H s) : Keep H (tempCompare s k') := by
  unfold tempCompare; try dsimp only
  repeat' first
    | with_reducible
      first
      | assumption | apply keep_beginRun | apply keep_eachN
    | with_reducible intro _ | dsimp only | split

theorem keep_execUndertowTempTrigger {sensor : Fin 24} {reading : Int} {s : State} (h : Keep H s) : KeepO H
    (execUndertowTempTrigger sensor reading s) := by
  unfold execUndertowTempTrigger; try dsimp only
  apply keepO_next
  repeat' first
    | with_reducible
      first
      | assumption | apply keep_tempCompare | ((conv => arg 2; arg 20); apply keep_upd) | exact rfl | exact .inl rfl
    | (with_reducible apply Or.inr); exact Nat.le_of_ble_eq_true rfl | with_reducible intro _ | dsimp only | split

theorem keep_execUndertowMeasureDone {b : CalBlock} {results : List ItemResult} {s : State} (h : Keep H s)
    : KeepO H (execUndertowMeasureDone b results s) := by
  unfold execUndertowMeasureDone; try dsimp only
  apply keepO_next
  repeat' first
    | with_reducible
      first
      | assumption | apply keep_judgeItem | apply keep_State_updCal | apply keep_runCheck | apply keep_foldl | apply keep_foldl1
    | with_reducible intro _ | dsimp only | split

theorem keep_execQuietOpportunityMeasure {b : CalBlock} {before : Nat} {after : Nat} {result : ItemResult} {s : State} (h
    : Keep H s) : KeepO H (execQuietOpportunityMeasure b before after result s) := by
  unfold execQuietOpportunityMeasure; try dsimp only
  apply keepO_next
  repeat' first
    | with_reducible
      first
      | assumption | apply keep_calFail | apply keep_runCheck | apply keep_judgeItem | apply keep_State_updCal
    | with_reducible intro _ | dsimp only | split

theorem keep_undertowStep {s : State} {b : Nat} (h : Keep H s) : Keep H (undertowStep s b) := by
  unfold undertowStep; try dsimp only
  repeat' first
    | with_reducible
      first
      | assumption | apply keep_runCheck | apply keep_applyAll | apply keep_State_updCal | apply keep_applySteps
      | ((conv => arg 2; arg 20); apply keep_upd) | exact rfl | exact .inl rfl
    | (with_reducible apply Or.inr); exact Nat.le_of_ble_eq_true rfl | with_reducible intro _ | dsimp only | split

theorem keep_beginStore {s : State} {w : Option Waiter} (hm : H.freeM) (h : Keep H s) : Keep H (beginStore s w) := by
  unfold beginStore; try dsimp only
  repeat' first
    | with_reducible
      first
      | assumption | apply keep_eraseSlot | ((conv => arg 2; arg 20); apply keep_upd) | exact rfl | exact .inl rfl
    | (with_reducible apply Or.inr); exact Nat.le_of_ble_eq_true rfl | dsimp only | split

theorem keep_endStore {s : State} {differs : Bool} (hm : H.freeM) (h : Keep H s) : Keep H (endStore s differs) := by
  unfold endStore; try dsimp only
  repeat' first
    | with_reducible
      first
      | assumption | apply keep_State_bump | apply keep_State_regionWrite | apply keep_raiseReady
      | apply keep_writeSlotHeader | apply keep_closeWaiter | ((conv => arg 2; arg 20); apply keep_upd) | exact rfl
      | exact .inl rfl
    | (with_reducible apply Or.inr); exact Nat.le_of_ble_eq_true rfl | dsimp only | split

theorem keep_execCalStoreDone {differs : Bool} {s : State} (hm : H.freeM) (h : Keep H s)
    : KeepO H (execCalStoreDone differs s) := by
  unfold execCalStoreDone; try dsimp only
  apply keepO_next
  repeat' first
    | with_reducible
      first
      | assumption | apply keep_endStore
    | dsimp only | split

theorem keep_toForeground {s : State} {bs : List Nat} (h : Keep H s) : Keep H (toForeground s bs) := by
  unfold toForeground; try dsimp only
  repeat' first
    | with_reducible
      first
      | assumption | ((conv => arg 2; arg 20); apply keep_upd) | exact rfl | exact .inl rfl
    | (with_reducible apply Or.inr); exact Nat.le_of_ble_eq_true rfl | dsimp only | split

theorem keep_execCalibrationRestoreDone {outside : List (CalBlock × Fin 7)} {readings : List Int} {s : State} (h : Keep H s)
    : KeepO H (execCalibrationRestoreDone outside readings s) := by
  unfold execCalibrationRestoreDone; try dsimp only
  apply keepO_next
  repeat' first
    | with_reducible
      first
      | assumption | apply keep_calFail | apply keep_tryFirmware | apply keep_toForeground | apply keep_foldl
      | apply keep_foldl1 | ((conv => arg 2; arg 20); apply keep_upd) | exact rfl | exact .inl rfl
    | (with_reducible apply Or.inr); exact Nat.le_of_ble_eq_true rfl | with_reducible intro _ | dsimp only | split

theorem keep_autoStore {s : State} (hm : H.freeM) (h : Keep H s) : Keep H (autoStore s) := by
  unfold autoStore; try dsimp only
  repeat' first
    | with_reducible
      first
      | assumption | apply keep_beginStore | ((conv => arg 2; arg 20); apply keep_upd) | exact rfl | exact .inl rfl
    | (with_reducible apply Or.inr); exact Nat.le_of_ble_eq_true rfl | dsimp only | split

theorem keep_execForegroundCalDone {b : CalBlock} {failed : List (Fin 7)} {s : State} (hm : H.freeM) (h : Keep H s)
    : KeepO H (execForegroundCalDone b failed s) := by
  unfold execForegroundCalDone; try dsimp only
  apply keepO_next
  repeat' first
    | with_reducible
      first
      | assumption | apply keep_State_updCal | apply keep_State_bump | apply keep_calFail | apply keep_calJobDone
      | apply keep_setSt | apply keep_State_updPort | apply keep_laneDown | apply keep_State_updLane | apply keep_laneTrain
      | apply keep_tryFirmware | apply keep_autoStore | apply keep_foldl | apply keep_foldl1
      | ((conv => arg 2; arg 20); apply keep_upd) | exact rfl | exact .inl rfl
    | (with_reducible apply Or.inr); exact Nat.le_of_ble_eq_true rfl | with_reducible intro _ | dsimp only | split

theorem keep_calConfigCmd (hc : H.freeC) : KeepC H (calConfigCmd) := by
  intro s r h
  dsimp only [calConfigCmd, confCmd, doOk]
  repeat' first
    | with_reducible
      first
      | assumption | ((conv => arg 2; arg 20); apply keep_upd) | ((conv => arg 2; arg 20); apply keep_updc) | exact rfl
      | exact .inl rfl
    | (with_reducible apply Or.inr); exact Nat.le_of_ble_eq_true rfl | dsimp only | split

theorem keep_calEnter {s : State} {b : Nat} (h : Keep H s) : Keep H (calEnter s b) := by
  unfold calEnter; try dsimp only
  repeat' first
    | with_reducible
      first
      | assumption | apply keep_enterTest | apply keep_State_updLane | apply keep_setLane
    | with_reducible intro _ | dsimp only | split

theorem keep_calRunCmd : KeepC H (calRunCmd) := by
  intro s r h
  dsimp only [calRunCmd, doAccepted]
  repeat' first
    | with_reducible
      first
      | assumption | apply keep_closeWaiter | apply keep_linkDrop | apply keep_calEnter | apply keep_eachN
      | ((conv => arg 2; arg 20); apply keep_upd) | exact rfl | exact .inl rfl
    | (with_reducible apply Or.inr); exact Nat.le_of_ble_eq_true rfl | with_reducible intro _ | dsimp only | split

theorem keep_calStatusCmd : KeepC H calStatusCmd := fun _ _ h => h

theorem keep_calStoreCmd (hm : H.freeM) : KeepC H (calStoreCmd) := by
  intro s r h
  dsimp only [calStoreCmd, doAccepted]
  repeat' first
    | with_reducible
      first
      | assumption | apply keep_beginStore
    | dsimp only | split

theorem keep_calCountersReadCmd : KeepC H calCountersReadCmd := fun _ _ h => h

theorem keep_calCountersClearCmd : KeepC H (calCountersClearCmd) := by
  intro s r h
  dsimp only [calCountersClearCmd, clearCmd, doOk]
  repeat' first
    | with_reducible
      first
      | assumption | apply keep_State_clearCnt | apply keep_eachN
    | with_reducible intro _ | dsimp only | split

end Sys2Proof.Machine
end

