-- ==== Sys2Proof/Laws/KeepControl.lean ====
section
/-! SUPPORT. What the operations of Machine/Control.lean keep of `Laws.Keep`: one lemma for each. -/

set_option linter.unusedVariables false
set_option linter.unreachableTactic false
set_option linter.unusedTactic false

namespace Sys2Proof.Machine

variable {H : Hold}

theorem keep_identityReadCmd : KeepC H identityReadCmd := fun _ _ h => h

theorem keep_deviceStatusCmd : KeepC H deviceStatusCmd := fun _ _ h => h

theorem keep_controlCountersReadCmd : KeepC H controlCountersReadCmd := fun _ _ h => h

theorem keep_controlCountersClearCmd : KeepC H (controlCountersClearCmd) := by
  intro s r h
  dsimp only [controlCountersClearCmd, doOk]
  repeat' first
    | with_reducible
      first
      | assumption | apply keep_State_clearCnt | apply keep_eachN
    | with_reducible intro _ | dsimp only | split

theorem keep_setSlot {s : State} {i : Nat} {k : KeySlot} (hf : H.freeF) (h : Keep H s) : Keep H (setSlot s i k) := by
  unfold setSlot
  split
  · exact keep_fuses h hf
  · exact keep_fuses h hf

theorem keep_updDev {s : State} {f : DevCfg → DevCfg} (hc : H.freeC) (h : Keep H s) : Keep H (updDev s f) := by
  unfold updDev; try dsimp only
  repeat' first
    | with_reducible
      first
      | assumption | ((conv => arg 2; arg 20); apply keep_upd) | ((conv => arg 2; arg 20); apply keep_updc) | exact rfl
      | exact .inl rfl
    | (with_reducible apply Or.inr); exact Nat.le_of_ble_eq_true rfl | dsimp only | split

theorem keep_authPolicySetCmd (hc : H.freeC) : KeepC H (authPolicySetCmd) := by
  intro s r h
  dsimp only [authPolicySetCmd, doOk]
  repeat' first
    | with_reducible
      first
      | assumption | apply keep_updDev
    | with_reducible intro _ | dsimp only | split

theorem keep_authKeyProgramCmd (hf : H.freeF) (hc : H.freeC) : KeepC H (authKeyProgramCmd) := by
  intro s r h
  dsimp only [authKeyProgramCmd, doOk]
  repeat' first
    | with_reducible
      first
      | assumption | apply keep_updDev | apply keep_setSlot
    | with_reducible intro _ | dsimp only | split

theorem keep_authKeyRevokeCmd (hf : H.freeF) (hc : H.freeC) : KeepC H (authKeyRevokeCmd) := by
  intro s r h
  dsimp only [authKeyRevokeCmd, doOk]
  repeat' first
    | with_reducible
      first
      | assumption | apply keep_setSlot | apply keep_updDev
    | with_reducible intro _ | dsimp only | split

theorem keep_epochOpenCmd : KeepC H (epochOpenCmd) := by
  intro s r h
  dsimp only [epochOpenCmd]
  repeat' first
    | with_reducible
      first
      | assumption | ((conv => arg 2; arg 20); apply keep_upd) | exact rfl | exact .inl rfl
    | (with_reducible apply Or.inr); exact Nat.le_of_ble_eq_true rfl | dsimp only | split

theorem keep_endEpoch {s : State} {op : Nat} {tag : Nat} {failed : Nat} {st : Status} (h : Keep H s)
    : Keep H (endEpoch s op tag failed st) := by
  unfold endEpoch; try dsimp only
  repeat' first
    | with_reducible
      first
      | assumption | apply keep_raiseReady | ((conv => arg 2; arg 20); apply keep_upd) | exact rfl | exact .inl rfl
    | (with_reducible apply Or.inr); exact Nat.le_of_ble_eq_true rfl | dsimp only | split

theorem keep_epochCommitCmd : KeepC H (epochCommitCmd) := by
  intro s r h
  dsimp only [epochCommitCmd, doAccepted]
  repeat' first
    | with_reducible
      first
      | assumption | ((conv => arg 2; arg 20); apply keep_upd) | exact rfl | exact .inl rfl
    | (with_reducible apply Or.inr); exact Nat.le_of_ble_eq_true rfl | dsimp only | split

theorem keep_epochAbortCmd : KeepC H (epochAbortCmd) := by
  intro s r h
  dsimp only [epochAbortCmd, doOk]
  repeat' first
    | with_reducible
      first
      | assumption | apply keep_endEpoch
    | dsimp only | split

theorem keep_epochStatusCmd : KeepC H epochStatusCmd := fun _ _ h => h

theorem keep_execEpochIdleTimeout {s : State} (h : Keep H s) : KeepO H (execEpochIdleTimeout s) := by
  unfold execEpochIdleTimeout; try dsimp only
  apply keepO_next
  repeat' first
    | with_reducible
      first
      | assumption | apply keep_endEpoch
    | dsimp only | split

theorem keep_transportConfigCmd (hc : H.freeC) : KeepC H (transportConfigCmd) := by
  intro s r h
  dsimp only [transportConfigCmd, doOk]
  repeat' first
    | with_reducible
      first
      | assumption | apply keep_updDev
    | with_reducible intro _ | dsimp only | split

theorem keep_eventRouteCmd (hc : H.freeC) : KeepC H (eventRouteCmd) := by
  intro s r h
  dsimp only [eventRouteCmd, doOk]
  repeat' first
    | with_reducible
      first
      | assumption | apply keep_updDev
    | with_reducible intro _ | dsimp only | split

theorem keep_eventMaskCmd (hc : H.freeC) : KeepC H (eventMaskCmd) := by
  intro s r h
  dsimp only [eventMaskCmd, doOk]
  repeat' first
    | with_reducible
      first
      | assumption | apply keep_updDev
    | with_reducible intro _ | dsimp only | split

theorem keep_eventReadCmd : KeepC H eventReadCmd := fun _ _ h => h

theorem keep_ackEvents {s : State} {q : Nat} (h : Keep H s) : Keep H (ackEvents s q) := by
  unfold ackEvents
  apply keep_overflowNote
  obtain ⟨hp, a, b, c, ⟨d1, d2⟩, e⟩ := h
  exact ⟨hp, (List.length_filter_le _ _).trans a, b, c, ⟨d1.filter _, fun x hx => d2 x (List.mem_of_mem_filter hx)⟩, e⟩

theorem keep_eventAckCmd : KeepC H (eventAckCmd) := by
  intro s r h
  dsimp only [eventAckCmd, doOk]
  repeat' first
    | with_reducible
      first
      | assumption | apply keep_ackEvents
    | dsimp only | split

theorem withCmac_dest {s : State} {p : Packet} : (withCmac s p).dest = p.dest := by
  unfold withCmac
  split
  · dsimp only; split <;> rfl
  · rfl

theorem keep_notifyEvents {s : State} (h : Keep H s) (hr : routeReady s = true) : Keep H (notifyEvents s) := by
  unfold notifyEvents
  dsimp only
  refine keep_sendPacket (keep_upd h rfl rfl rfl rfl rfl rfl (.inl rfl) (.inl rfl)) fun _ hd => ?_
  rw [withCmac_dest] at hd
  simp only [routeSrc] at hd
  unfold routeReady at hr
  split at hr
  · simp only [Bool.and_eq_true, decide_eq_true_eq] at hr
    exact hr.2
  · exfalso
    revert hd
    repeat' split
    all_goals simp_all

theorem keep_execEventNotify {s : State} (h : Keep H s) : KeepO H (execEventNotify s) := by
  apply keepO_next
  split
  · rename_i hc
    simp only [Bool.and_eq_true] at hc
    exact keep_notifyEvents h hc.1.2
  · exact h

theorem keep_execManagementLaneLinkChange {up : Bool} {s : State} (h : Keep H s)
    : KeepO H (execManagementLaneLinkChange up s) := by
  unfold execManagementLaneLinkChange; try dsimp only
  apply keepO_next
  repeat' first
    | with_reducible
      first
      | assumption | ((conv => arg 2; arg 20); apply keep_upd) | exact rfl | exact .inl rfl
    | (with_reducible apply Or.inr); exact Nat.le_of_ble_eq_true rfl | dsimp only | split

theorem keep_readFaultRecordCmd : KeepC H readFaultRecordCmd := fun _ _ h => h

theorem keep_echoCmd : KeepC H echoCmd := fun _ _ h => h

theorem keep_readCoreStatusCmd : KeepC H readCoreStatusCmd := fun _ _ h => h

theorem keep_deviceWarmResetCmd : KeepC H (deviceWarmResetCmd) := by
  intro s r h
  dsimp only [deviceWarmResetCmd, doOk]
  repeat' first
    | with_reducible
      first
      | assumption | ((conv => arg 2; arg 20); apply keep_upd) | exact rfl | exact .inl rfl
    | (with_reducible apply Or.inr); exact Nat.le_of_ble_eq_true rfl | dsimp only | split

theorem keep_execMbxDoorbellRelease {s : State} (h : Keep H s) : KeepO H (execMbxDoorbellRelease s) := by
  apply keepO_next
  obtain ⟨hp, a, ⟨b1, b2⟩, c, d, e⟩ := h
  refine ⟨hp, a, ⟨?_, ?_⟩, c, d, e⟩
  · exact (by simp only [List.length_drop]; omega : (s.ctl.spiQueue.drop 1).length ≤ 32)
  · exact ((List.drop_sublist 1 s.ctl.spiQueue).filter _).length_le.trans b2

theorem keep_execRequestWindowWrite {addr : BitVec 11} {bytes : List Byte} {s : State} (h : Keep H s)
    : KeepO H (execRequestWindowWrite addr bytes s) := by
  unfold execRequestWindowWrite; try dsimp only
  apply keepO_next
  repeat' first
    | with_reducible
      first
      | assumption | apply keep_State_bump | ((conv => arg 2; arg 20); apply keep_upd) | exact rfl | exact .inl rfl
    | (with_reducible apply Or.inr); exact Nat.le_of_ble_eq_true rfl | dsimp only | split

end Sys2Proof.Machine
end

