-- ==== Sys2Proof/Laws/KeepTide.lean ====
section
/-! SUPPORT. What the operations of Machine/Tide.lean keep of `Laws.Keep`: one lemma for each. -/

set_option linter.unusedVariables false
set_option linter.unreachableTactic false
set_option linter.unusedTactic false

namespace Sys2Proof.Machine

variable {H : Hold}

theorem keep_updTideCfg {s : State} {f : TideCfg → TideCfg} (hc : H.freeC) (h : Keep H s) : Keep H (updTideCfg s f) := by
  unfold updTideCfg; try dsimp only
  repeat' first
    | with_reducible
      first
      | assumption | ((conv => arg 2; arg 20); apply keep_upd) | ((conv => arg 2; arg 20); apply keep_updc) | exact rfl
      | exact .inl rfl
    | (with_reducible apply Or.inr); exact Nat.le_of_ble_eq_true rfl | dsimp only | split

theorem keep_updTide {s : State} {f : Tide → Tide} (h : Keep H s) : Keep H (updTide s f) := by
  unfold updTide; try dsimp only
  repeat' first
    | with_reducible
      first
      | assumption | ((conv => arg 2; arg 20); apply keep_upd) | exact rfl | exact .inl rfl
    | (with_reducible apply Or.inr); exact Nat.le_of_ble_eq_true rfl | dsimp only | split

theorem keep_ttCount {s : State} {e' : Nat} {i : Nat} {n : Nat} (h : Keep H s) : Keep H (ttCount s e' i n) := by
  unfold ttCount; try dsimp only
  repeat' first
    | with_reducible
      first
      | assumption | apply keep_State_bumpBy
    | dsimp only | split

theorem keep_updSig {s : State} {n : Nat} {f : Sig → Sig} (h : Keep H s) : Keep H (updSig s n f) := by
  unfold updSig; try dsimp only
  repeat' first
    | with_reducible
      first
      | assumption | apply keep_updTide
    | with_reducible intro _ | dsimp only | split

theorem keep_updRoute {s : State} {k : Nat} {f : DigestRun → DigestRun} (h : Keep H s) : Keep H (updRoute s k f) := by
  unfold updRoute; try dsimp only
  repeat' first
    | with_reducible
      first
      | assumption | apply keep_updTide
    | with_reducible intro _ | dsimp only | split

theorem keep_sendDigest {s : State} {k : Nat} (h : Keep H s) : Keep H (sendDigest s k) := by
  unfold sendDigest; try dsimp only
  repeat' first
    | with_reducible
      first
      | assumption | apply keep_updRoute | apply keep_sendFrame
    | with_reducible intro _ | dsimp only | split

theorem keep_digestLost {s : State} {e' : Nat} {k : Nat} (h : Keep H s) : Keep H (digestLost s e' k) := by
  unfold digestLost; try dsimp only
  repeat' first
    | with_reducible
      first
      | assumption | apply keep_ttCount | apply keep_updRoute | apply keep_raise
    | with_reducible intro _ | dsimp only | split

theorem keep_note {s : State} {e' : Nat} {k : Nat} {r : DigestRec} (h : Keep H s) : Keep H (note s e' k r) := by
  unfold note; try dsimp only
  repeat' first
    | with_reducible
      first
      | assumption | apply keep_ttCount | apply keep_updRoute | apply keep_digestLost
    | with_reducible intro _ | dsimp only | split

theorem keep_sendFull {k n : Nat} {s : State} (h : Keep H s) : Keep H (sendFull k n s) := by
  induction n generalizing s with
  | zero => exact h
  | succ n ih =>
    unfold sendFull
    split
    · exact ih (keep_sendDigest h)
    · exact h

theorem keep_digests {s : State} (h : Keep H s) : Keep H (digests s) := by
  unfold digests; try dsimp only
  repeat' first
    | with_reducible
      first
      | assumption | apply keep_sendFull | apply keep_foldl | apply keep_foldl1
    | with_reducible intro _ | dsimp only | split

theorem keep_noteState {s : State} {o : State} {n : Nat} (h : Keep H s) : Keep H (noteState s o n) := by
  unfold noteState; try dsimp only
  repeat' first
    | with_reducible
      first
      | assumption | apply keep_note
    | dsimp only | split

theorem keep_storeSig {s : State} {e' : Nat} {l : TtLayout} {d : SigDef} {x : Sig} (h : Keep H s)
    : Keep H (storeSig s e' l d x) := by
  unfold storeSig; try dsimp only
  repeat' first
    | with_reducible
      first
      | assumption | apply keep_updSig | apply keep_note
    | with_reducible intro _ | dsimp only | split

theorem keep_commitSig {s : State} {e' : Nat} {l : TtLayout} {c : TtCopy} {ps : List Byte} {d : SigDef} (h : Keep H s)
    : Keep H (commitSig s e' l c ps d) := by
  unfold commitSig; try dsimp only
  repeat' first
    | with_reducible
      first
      | assumption | apply keep_ttCount | apply keep_storeSig
    | dsimp only | split

theorem keep_faultLayout {s : State} {e' : Nat} {li : Nat} {l : TtLayout} (h : Keep H s) : Keep H (faultLayout s e' li l) := by
  unfold faultLayout; try dsimp only
  repeat' first
    | with_reducible
      first
      | assumption | apply keep_storeSig | apply keep_foldl | apply keep_foldl1
    | with_reducible intro _ | dsimp only | split

theorem keep_clearFault {s : State} {e' : Nat} {l : TtLayout} {d : SigDef} (h : Keep H s) : Keep H (clearFault s e' l d) := by
  unfold clearFault; try dsimp only
  repeat' first
    | with_reducible
      first
      | assumption | apply keep_storeSig
    | dsimp only | split

theorem keep_updLayout {s : State} {l : Nat} {f : LayoutRun → LayoutRun} (h : Keep H s) : Keep H (updLayout s l f) := by
  unfold updLayout; try dsimp only
  repeat' first
    | with_reducible
      first
      | assumption | apply keep_updTide
    | with_reducible intro _ | dsimp only | split

theorem keep_checkFail {s : State} {li : Nat} {k : Nat} {alive : Nat} (h : Keep H s) : Keep H (checkFail s li k alive) := by
  unfold checkFail; try dsimp only
  repeat' first
    | with_reducible
      first
      | assumption | apply keep_updLayout | apply keep_raise
    | with_reducible intro _ | dsimp only | split

theorem keep_runMessage {s : State} {e' : Nat} {c : TtCopy} {li : Nat} {l : TtLayout} {ps : List Byte} (h : Keep H s)
    : Keep H (runMessage s e' c li l ps) := by
  unfold runMessage; try dsimp only
  repeat' first
    | with_reducible
      first
      | assumption | apply keep_updLayout | apply keep_ttCount | apply keep_commitSig | apply keep_clearFault
      | apply keep_checkFail | apply keep_faultLayout | apply keep_foldl | apply keep_foldl1
    | with_reducible intro _ | dsimp only | split

theorem keep_takeMessage {e' : Nat} {src : Nat} {c : TtCopy} {s : State} {m : Nat × Nat × Nat × List Byte} (h : Keep H s)
    : Keep H (takeMessage e' src c s m) := by
  unfold takeMessage; try dsimp only
  repeat' first
    | with_reducible
      first
      | assumption | apply keep_ttCount | apply keep_runMessage
    | dsimp only | split

theorem keep_tideCopy {s : State} {c : TtCopy} (h : Keep H s) : Keep H (tideCopy s c) := by
  unfold tideCopy; try dsimp only
  repeat' first
    | with_reducible
      first
      | assumption | apply keep_ttCount | apply keep_raise | apply keep_updTide
    | with_reducible intro _ | dsimp only | split

theorem keep_popCopy {s : State} {e' : Nat} (h : Keep H s) : Keep H (popCopy s e') := by
  unfold popCopy; try dsimp only
  repeat' first
    | with_reducible
      first
      | assumption | apply keep_updTide | apply keep_raise
    | with_reducible intro _ | dsimp only | split

theorem keep_takeInject1 {s : State} {point : Nat} {t : Nat} {all : Nat} (h : Keep H s)
    : Keep H (takeInject s point t all).1 := by
  unfold takeInject; try dsimp only
  repeat' first
    | with_reducible
      first
      | assumption | ((conv => arg 2; arg 20); apply keep_upd) | exact rfl | exact .inl rfl
    | (with_reducible apply Or.inr); exact Nat.le_of_ble_eq_true rfl | dsimp only | split

theorem keep_takeInject {s : State} {point : Nat} {t : Nat} {all : Nat} {out : State} {snd : _} (h : Keep H s)
    (e : takeInject s point t all = (out, snd)) : Keep H out := by
  have k := keep_takeInject1 (H := H)  (h := h) (point := point) (t := t) (all := all)
  rw [e] at k; exact k

theorem keep_sigEcc {s : State} {e' : Nat} {n : Nat} (h : Keep H s) : Keep H (sigEcc s e' n) := by
  unfold sigEcc; try dsimp only
  repeat' first
    | with_reducible
      first
      | assumption | apply keep_State_draw | apply keep_updSig | apply keep_noteState | apply keep_raise
      | apply keep_faultEntry | apply keep_rateError
    | with_reducible intro _ | dsimp only | split

theorem keep_updCompose {s : State} {l : Nat} {f : ComposeRun → ComposeRun} (h : Keep H s) : Keep H (updCompose s l f) := by
  unfold updCompose; try dsimp only
  repeat' first
    | with_reducible
      first
      | assumption | apply keep_updTide
    | with_reducible intro _ | dsimp only | split

theorem keep_composeSend {s : State} {k' : Nat} {li : Nat} {c : TtCompose} (h : Keep H s) : Keep H (composeSend s k' li
    c) := by
  unfold composeSend; try dsimp only
  repeat' first
    | with_reducible
      first
      | assumption | apply keep_updCompose | apply keep_ttCount | apply keep_sendFrame
      | ((conv => arg 2; arg 20); apply keep_upd) | exact rfl | exact .inl rfl
    | (with_reducible apply Or.inr); exact Nat.le_of_ble_eq_true rfl | with_reducible intro _ | dsimp only | split

theorem keep_composeTrigger {s : State} {k' : Nat} {li : Nat} (h : Keep H s) : Keep H (composeTrigger s k' li) := by
  unfold composeTrigger; try dsimp only
  repeat' first
    | with_reducible
      first
      | assumption | apply keep_updCompose | apply keep_composeSend | ((conv => arg 2; arg 20); apply keep_upd)
      | exact rfl | exact .inl rfl
    | (with_reducible apply Or.inr); exact Nat.le_of_ble_eq_true rfl | with_reducible intro _ | dsimp only | split

theorem keep_takeCopy {s1 : State} {e' : Nat} {c : TtCopy} {parity : Bool} {bad : Option (Fin 131072)} (h : Keep H s1) :
    Keep H (takeCopy s1 e' c parity bad) := by
  unfold takeCopy
  split
  rename_i s2 inj e2
  have k2 := keep_takeInject (H := H) h e2
  split
  · exact keep_ttCount (keep_State_bump k2)
  · split
    · exact keep_ttCount k2
    · split
      · exact k2
      · split
        rename_i ms skipped fault _
        extract_lets s3 s4 s5
        have k3 : Keep H s3 := by
          refine keep_ttCount ?_
          split
          · exact keep_ttCount k2
          · exact k2
        have k4 : Keep H s4 := keep_foldl k3 fun _ _ => keep_takeMessage
        have k5 : Keep H s5 := keep_foldl k4 fun _ _ => keep_composeTrigger
        clear_value s5
        split
        rename_i s6 inj2 e6
        have k6 := keep_takeInject (H := H) k5 e6
        extract_lets hit s7
        have k7 : Keep H s7 := by
          simp only [s7]
          split
          · exact keep_sigEcc k6
          · exact k6
        split
        · exact keep_sigEcc k7
        · exact k7

theorem keep_execTtCopyProcess {e' : Fin 16} {parity : Bool} {corrected : Nat} {bad : Option (Fin 131072)} {s : State} (h
    : Keep H s) : KeepO H (execTtCopyProcess e' parity corrected bad s) := by
  unfold execTtCopyProcess; try dsimp only
  apply keepO_next
  repeat' first
    | with_reducible
      first
      | assumption | apply keep_digests | apply keep_takeCopy | apply keep_ttCount | apply keep_popCopy
    | dsimp only | split

theorem keep_execTtSignalStale {n : Fin 131072} {s : State} (h : Keep H s) : KeepO H (execTtSignalStale n s) := by
  unfold execTtSignalStale; try dsimp only
  apply keepO_next
  repeat' first
    | with_reducible
      first
      | assumption | apply keep_digests | apply keep_storeSig | apply keep_ttCount
    | dsimp only | split

theorem keep_execTtDigestFlush {k : Fin 16} {s : State} (h : Keep H s) : KeepO H (execTtDigestFlush k s) := by
  unfold execTtDigestFlush; try dsimp only
  apply keepO_next
  repeat' first
    | with_reducible
      first
      | assumption | apply keep_sendDigest
    | dsimp only | split

theorem keep_execTtComposePeriodic {l : Fin 16384} {s : State} (h : Keep H s) : KeepO H (execTtComposePeriodic l s) := by
  unfold execTtComposePeriodic; try dsimp only
  apply keepO_next
  repeat' first
    | with_reducible
      first
      | assumption | apply keep_composeTrigger
    | with_reducible intro _ | dsimp only | split

theorem keep_execTtComposeHoldEnd {l : Fin 16384} {s : State} (h : Keep H s) : KeepO H (execTtComposeHoldEnd l s) := by
  unfold execTtComposeHoldEnd; try dsimp only
  apply keepO_next
  repeat' first
    | with_reducible
      first
      | assumption | apply keep_composeSend
    | with_reducible intro _ | dsimp only | split

theorem keep_engineReset {s : State} {e' : Nat} (h : Keep H s) : Keep H (engineReset s e') := by
  unfold engineReset; try dsimp only
  repeat' first
    | with_reducible
      first
      | assumption | apply keep_ttCount | apply keep_updTide | apply keep_foldl | apply keep_foldl1
    | with_reducible intro _ | dsimp only | split

theorem keep_tideReset {s : State} (h : Keep H s) : Keep H (tideReset s) := by
  unfold tideReset; try dsimp only
  repeat' first
    | with_reducible
      first
      | assumption | apply keep_engineReset | apply keep_updTide | apply keep_eachN | apply keep_foldl | apply keep_foldl1
    | with_reducible intro _ | dsimp only | split

theorem keep_tideUnpark {s : State} (h : Keep H s) : Keep H (tideUnpark s) := by
  unfold tideUnpark; try dsimp only
  repeat' first
    | with_reducible
      first
      | assumption | apply keep_updTide | apply keep_digests | apply keep_noteState | apply keep_foldl | apply keep_foldl1
    | with_reducible intro _ | dsimp only | split

theorem keep_ttSourceBindCmd (hc : H.freeC) : KeepC H (ttSourceBindCmd) := by
  intro s r h
  dsimp only [ttSourceBindCmd, ttConf, doOk, confCmd]
  repeat' first
    | with_reducible
      first
      | assumption | apply keep_updTideCfg
    | with_reducible intro _ | dsimp only | split

theorem keep_resetSig {s : State} {n : Nat} (h : Keep H s) : Keep H (resetSig s n) := by
  unfold resetSig; try dsimp only
  repeat' first
    | with_reducible
      first
      | assumption | apply keep_updTide
    | with_reducible intro _ | dsimp only | split

theorem keep_ttLayoutSetCmd (hc : H.freeC) : KeepC H (ttLayoutSetCmd) := by
  intro s r h
  dsimp only [ttLayoutSetCmd, ttConf, doOk, confCmd]
  repeat' first
    | with_reducible
      first
      | assumption | apply keep_updTideCfg | apply keep_updTide | apply keep_resetSig | apply keep_foldl | apply keep_foldl1
    | with_reducible intro _ | dsimp only | split

theorem keep_ttLayoutDeleteCmd (hc : H.freeC) : KeepC H (ttLayoutDeleteCmd) := by
  intro s r h
  dsimp only [ttLayoutDeleteCmd, ttConf, doOk, confCmd]
  repeat' first
    | with_reducible
      first
      | assumption | apply keep_resetSig | apply keep_updTideCfg | apply keep_updTide | apply keep_foldl | apply keep_foldl1
    | with_reducible intro _ | dsimp only | split

theorem keep_ttSignalDefineCmd (hc : H.freeC) : KeepC H (ttSignalDefineCmd) := by
  intro s r h
  dsimp only [ttSignalDefineCmd, ttConf, doOk, confCmd]
  repeat' first
    | with_reducible
      first
      | assumption | apply keep_updTideCfg | apply keep_resetSig | apply keep_foldl | apply keep_foldl1
    | with_reducible intro _ | dsimp only | split

theorem keep_ttComposeSetCmd (hc : H.freeC) : KeepC H (ttComposeSetCmd) := by
  intro s r h
  dsimp only [ttComposeSetCmd, ttConf, doOk, confCmd]
  repeat' first
    | with_reducible
      first
      | assumption | apply keep_updTideCfg
    | with_reducible intro _ | dsimp only | split

theorem keep_ttComposeTemplateCmd (hc : H.freeC) : KeepC H (ttComposeTemplateCmd) := by
  intro s r h
  dsimp only [ttComposeTemplateCmd, ttConf, doOk, confCmd]
  repeat' first
    | with_reducible
      first
      | assumption | apply keep_updTideCfg
    | with_reducible intro _ | dsimp only | split

theorem keep_ttDigestRouteSetCmd (hc : H.freeC) : KeepC H (ttDigestRouteSetCmd) := by
  intro s r h
  dsimp only [ttDigestRouteSetCmd, ttConf, doOk, confCmd]
  repeat' first
    | with_reducible
      first
      | assumption | apply keep_updTideCfg | apply keep_updRoute
    | with_reducible intro _ | dsimp only | split

theorem keep_ttSignalReadCmd : KeepC H ttSignalReadCmd := fun _ _ h => h

theorem keep_ttSignalWriteCmd : KeepC H ttSignalWriteCmd := by
  intro s r h
  dsimp only [ttSignalWriteCmd, doOk]
  repeat' first
    | with_reducible
      first
      | assumption | apply keep_updSig | apply keep_composeTrigger | apply keep_foldl | apply keep_foldl1
      | ((conv => arg 2; arg 20); apply keep_upd) | exact rfl | exact .inl rfl
    | (with_reducible apply Or.inr); exact Nat.le_of_ble_eq_true rfl | with_reducible intro _ | dsimp only | split

theorem keep_ttLayoutStatusCmd : KeepC H ttLayoutStatusCmd := fun _ _ h => h

theorem keep_ttStatusCmd : KeepC H ttStatusCmd := fun _ _ h => h

theorem keep_ttComposeSendCmd : KeepC H ttComposeSendCmd := by
  intro s r h
  dsimp only [ttComposeSendCmd, doOk]
  repeat' first
    | with_reducible
      first
      | assumption | apply keep_composeTrigger
    | with_reducible intro _ | dsimp only | split

theorem keep_ttCountersReadCmd : KeepC H ttCountersReadCmd := fun _ _ h => h

theorem keep_ttCountersClearCmd : KeepC H (ttCountersClearCmd) := by
  intro s r h
  dsimp only [ttCountersClearCmd, clearCmd, doOk]
  repeat' first
    | with_reducible
      first
      | assumption | apply keep_State_clearCnt | apply keep_eachN
    | with_reducible intro _ | dsimp only | split

end Sys2Proof.Machine
end

