-- ==== Sys2Proof/Laws/KeepIntegrity.lean ====
section
/-! SUPPORT. What the operations of Machine/Integrity.lean keep of `Laws.Keep`: one lemma for each. -/

set_option linter.unusedVariables false
set_option linter.unreachableTactic false
set_option linter.unusedTactic false

namespace Sys2Proof.Machine

variable {H : Hold}

theorem keep_setRail {s : State} {rail : Nat} {mv : Nat} (h : Keep H s) : Keep H (setRail s rail mv) := by
  unfold setRail; try dsimp only
  repeat' first
    | with_reducible
      first
      | assumption | ((conv => arg 2; arg 20); apply keep_upd) | exact rfl | exact .inl rfl
    | (with_reducible apply Or.inr); exact Nat.le_of_ble_eq_true rfl | dsimp only | split

theorem keep_execRailLimit {rail : Fin 8} {mv : Nat} {s : State} (h : Keep H s) : KeepO H (execRailLimit rail mv s) := by
  unfold execRailLimit; try dsimp only
  apply keepO_next
  repeat' first
    | with_reducible
      first
      | assumption | apply keep_setRail | apply keep_setPresent | apply keep_safetyFault
      | ((conv => arg 2; arg 20); apply keep_upd) | exact rfl | exact .inl rfl
    | (with_reducible apply Or.inr); exact Nat.le_of_ble_eq_true rfl | dsimp only | split

theorem keep_execRailUndervoltage {rail : Fin 8} {mv : Nat} {s : State} (h : Keep H s)
    : KeepO H (execRailUndervoltage rail mv s) := by
  unfold execRailUndervoltage; try dsimp only
  apply keepO_next
  repeat' first
    | with_reducible
      first
      | assumption | apply keep_setRail | ((conv => arg 2; arg 20); apply keep_upd) | exact rfl | exact .inl rfl
    | (with_reducible apply Or.inr); exact Nat.le_of_ble_eq_true rfl | dsimp only | split

theorem keep_execThermalLimit {sensor : Fin 30} {reading : Int} {s : State} (h : Keep H s)
    : KeepO H (execThermalLimit sensor reading s) := by
  unfold execThermalLimit; try dsimp only
  apply keepO_next
  repeat' first
    | with_reducible
      first
      | assumption | apply keep_setPresent | apply keep_safetyFault | ((conv => arg 2; arg 20); apply keep_upd) | exact rfl
      | exact .inl rfl
    | (with_reducible apply Or.inr); exact Nat.le_of_ble_eq_true rfl | dsimp only | split

theorem keep_execKeeperParity {word : BitVec 32} {s : State} (h : Keep H s) : KeepO H (execKeeperParity word s) := by
  unfold execKeeperParity; try dsimp only
  apply keepO_next
  repeat' first
    | with_reducible
      first
      | assumption | apply keep_safetyFault
    | dsimp only | split

theorem keep_execIntegrityWindowEnd {s : State} (h : Keep H s) : KeepO H (execIntegrityWindowEnd s) := by
  unfold execIntegrityWindowEnd; try dsimp only
  apply keepO_next
  repeat' first
    | with_reducible
      first
      | assumption | ((conv => arg 2; arg 20); apply keep_upd) | exact rfl | exact .inl rfl
    | (with_reducible apply Or.inr); exact Nat.le_of_ble_eq_true rfl | dsimp only | split

theorem keep_ringCopy {s : State} {e' : FaultEntry} (hm : H.freeM) (h : Keep H s) : Keep H (ringCopy s e') := by
  unfold ringCopy
  extract_lets s1
  have h1 : Keep H s1 := keep_State_regionWrite hm h
  clear_value s1
  obtain ⟨hp, a, b, c, d, e⟩ := h1
  exact ⟨hp, a, b, (List.length_map _).le.trans c, d, e⟩

theorem keep_ringFlush {s : State} (hm : H.freeM) (h : Keep H s) : Keep H (ringFlush s) := by
  unfold ringFlush; try dsimp only
  repeat' first
    | with_reducible
      first
      | assumption | apply keep_ringCopy | apply keep_foldl | apply keep_foldl1
    | with_reducible intro _ | dsimp only | split

theorem keep_execFaultRecordCopy {ok : Bool} {s : State} (hm : H.freeM) (h : Keep H s) : KeepO H (execFaultRecordCopy ok s)
    := by
  unfold execFaultRecordCopy; try dsimp only
  apply keepO_next
  repeat' first
    | with_reducible
      first
      | assumption | apply keep_ringCopy | apply keep_State_bump
    | dsimp only | split

theorem keep_integrityConfigCmd (hc : H.freeC) : KeepC H (integrityConfigCmd) := by
  intro s r h
  dsimp only [integrityConfigCmd, confCmd, doOk]
  repeat' first
    | with_reducible
      first
      | assumption | apply keep_updDev
    | with_reducible intro _ | dsimp only | split

theorem keep_integrityStatusCmd : KeepC H integrityStatusCmd := fun _ _ h => h

theorem keep_clearLatches {s : State} {mask : Nat} (h : Keep H s) : Keep H (clearLatches s mask) := by
  unfold clearLatches; try dsimp only
  repeat' first
    | with_reducible
      first
      | assumption | ((conv => arg 2; arg 20); apply keep_upd) | exact rfl | exact .inl rfl
    | (with_reducible apply Or.inr); exact Nat.le_of_ble_eq_true rfl | dsimp only | split

theorem keep_integrityFaultClearCmd : KeepC H (integrityFaultClearCmd) := by
  intro s r h
  dsimp only [integrityFaultClearCmd]
  repeat' first
    | with_reducible
      first
      | assumption | apply keep_clearLatches
    | dsimp only | split

theorem keep_faultLogReadCmd : KeepC H faultLogReadCmd := fun _ _ h => h

theorem keep_integrityCountersReadCmd : KeepC H integrityCountersReadCmd := fun _ _ h => h

theorem keep_integrityCountersClearCmd : KeepC H (integrityCountersClearCmd) := by
  intro s r h
  dsimp only [integrityCountersClearCmd, clearCmd, doOk]
  repeat' first
    | with_reducible
      first
      | assumption | apply keep_State_clearCnt
    | dsimp only | split

theorem keep_faultInjectCmd : KeepC H (faultInjectCmd) := by
  intro s r h
  dsimp only [faultInjectCmd, doOk]
  repeat' first
    | with_reducible
      first
      | assumption | ((conv => arg 2; arg 20); apply keep_upd) | exact rfl | exact .inl rfl
    | (with_reducible apply Or.inr); exact Nat.le_of_ble_eq_true rfl | dsimp only | split

end Sys2Proof.Machine
end

