-- ==== Sys2Proof/Laws/KeepResets.lean ====
section
/-! SUPPORT. What the operations of Machine/Resets.lean keep of `Laws.Keep`: one lemma for each. -/

set_option linter.unusedVariables false
set_option linter.unreachableTactic false
set_option linter.unusedTactic false

namespace Sys2Proof.Machine

variable {H : Hold}

theorem keep_updJobs {s : State} {p : ResetJob → Bool} {f : ResetJob → ResetJob} (h : Keep H s) : Keep H (updJobs s p f) := by
  unfold updJobs; try dsimp only
  repeat' first
    | with_reducible
      first
      | assumption | ((conv => arg 2; arg 20); apply keep_upd) | exact rfl | exact .inl rfl
    | (with_reducible apply Or.inr); exact Nat.le_of_ble_eq_true rfl | dsimp only | split

theorem keep_dropReset {s : State} {q : Nat} {i : Nat} (h : Keep H s) : Keep H (dropReset s q i) := by
  unfold dropReset; try dsimp only
  repeat' first
    | with_reducible
      first
      | assumption | apply keep_State_bump | apply keep_unqueue
    | dsimp only | split

theorem keep_sliceDiscard {s : State} {i : Nat} (h : Keep H s) : Keep H (sliceDiscard s i) := by
  unfold sliceDiscard; try dsimp only
  repeat' first
    | with_reducible
      first
      | assumption | apply keep_dropReset | apply keep_eachN | apply keep_foldl | apply keep_foldl1
    | with_reducible intro _ | dsimp only | split

theorem keep_streamSlice {s : State} {i : Nat} (h : Keep H s) : Keep H (streamSlice s i) := by
  unfold streamSlice; try dsimp only
  repeat' first
    | with_reducible
      first
      | assumption | apply keep_updStrm
    | with_reducible intro _ | dsimp only | split

theorem keep_streamFabric {s : State} (h : Keep H s) : Keep H (streamFabric s) := by
  unfold streamFabric; try dsimp only
  repeat' first
    | with_reducible
      first
      | assumption | apply keep_updStrm | apply keep_streamSlice | apply keep_eachN | apply keep_foldl | apply keep_foldl1
    | with_reducible intro _ | dsimp only | split

theorem keep_sliceReset {s : State} {i : Nat} (h : Keep H s) : Keep H (sliceReset s i) := by
  unfold sliceReset; try dsimp only
  repeat' first
    | with_reducible
      first
      | assumption | apply keep_streamSlice | apply keep_freshRows | apply keep_sliceDiscard | apply keep_markTest
      | apply keep_State_updSlice
    | with_reducible intro _ | dsimp only | split

theorem keep_portReset {s : State} {p : Nat} (h : Keep H s) : Keep H (portReset s p) := by
  unfold portReset; try dsimp only
  repeat' first
    | with_reducible
      first
      | assumption | apply keep_State_updPort | apply keep_quietPort
    | with_reducible intro _ | dsimp only | split

theorem keep_laneReset {s : State} {m : Nat} (h : Keep H s) : Keep H (laneReset s m) := by
  unfold laneReset; try dsimp only
  repeat' first
    | with_reducible
      first
      | assumption | apply keep_State_updLane | apply keep_quietLane
    | with_reducible intro _ | dsimp only | split

theorem keep_assertBlocks {s : State} {t : Nat} (h : Keep H s) : Keep H (assertBlocks s t) := by
  unfold assertBlocks; try dsimp only
  repeat' first
    | with_reducible
      first
      | assumption | apply keep_portReset | apply keep_markTest | apply keep_laneReset | apply keep_flushEgress
      | apply keep_countDown | apply keep_sliceReset | apply keep_streamFabric | apply keep_engineReset
      | apply keep_tideReset | apply keep_eachN
    | with_reducible intro _ | dsimp only | split

theorem keep_releaseBlocks {s : State} {t : Nat} (h : Keep H s) : Keep H (releaseBlocks s t) := by
  unfold releaseBlocks; try dsimp only
  repeat' first
    | with_reducible
      first
      | assumption | apply keep_leaveQuiet | apply keep_State_updPort | apply keep_leaveQuietLane
      | apply keep_State_updLane | apply keep_State_updSlice | apply keep_eachN
    | with_reducible intro _ | dsimp only | split

theorem keep_bwDone {s : State} {r : Req} {st : Status} (h : Keep H s) : Keep H (bwDone s r st) := by
  unfold bwDone; try dsimp only
  repeat' first
    | with_reducible
      first
      | assumption | apply keep_reply | ((conv => arg 2; arg 20); apply keep_upd) | exact rfl | exact .inl rfl
    | (with_reducible apply Or.inr); exact Nat.le_of_ble_eq_true rfl | dsimp only | split

theorem keep_recordSource {s : State} {t : Nat} {reach : Nat} {hold : Bool} {w : Option (Waiter × Nat)} (h : Keep H s)
    : Keep H (recordSource s t reach hold w) := by
  unfold recordSource; try dsimp only
  repeat' first
    | with_reducible
      first
      | assumption | ((conv => arg 2; arg 20); apply keep_upd) | exact rfl | exact .inl rfl
    | (with_reducible apply Or.inr); exact Nat.le_of_ble_eq_true rfl | dsimp only | split

theorem keep_tryRelease {s : State} {t : Nat} (h : Keep H s) : Keep H (tryRelease s t) := by
  unfold tryRelease; try dsimp only
  repeat' first
    | with_reducible
      first
      | assumption | apply keep_updJobs | apply keep_foldl | apply keep_foldl1
    | with_reducible intro _ | dsimp only | split

theorem keep_closeKind {s : State} {ws : List (Waiter × Nat)} {t : Nat} {kind : Nat} {st : Status} (h : Keep H s)
    : Keep H (closeKind s ws t kind st) := by
  unfold closeKind; try dsimp only
  repeat' first
    | with_reducible
      first
      | assumption | apply keep_closeWaiter | apply keep_foldl | apply keep_foldl1
    | with_reducible intro _ | dsimp only | split

theorem keep_assertJob {s : State} {t : Nat} {forced : Bool} (h : Keep H s) : Keep H (assertJob s t forced) := by
  unfold assertJob; try dsimp only
  repeat' first
    | with_reducible
      first
      | assumption | apply keep_State_bump | apply keep_updJobs | apply keep_assertBlocks | apply keep_bwDone
      | apply keep_closeKind | apply keep_tryRelease | apply keep_foldl | apply keep_foldl1
      | ((conv => arg 2; arg 20); apply keep_upd) | exact rfl | exact .inl rfl
    | (with_reducible apply Or.inr); exact Nat.le_of_ble_eq_true rfl | with_reducible intro _ | dsimp only | split

theorem keep_flushCommands {s : State} (h : Keep H s) : Keep H (flushCommands s) := by
  unfold flushCommands; try dsimp only
  repeat' first
    | with_reducible
      first
      | assumption | apply keep_frontBusy | apply keep_foldl | apply keep_foldl1
      | ((conv => arg 2; arg 20); apply keep_upd) | exact rfl | exact .inl rfl
    | (with_reducible apply Or.inr); exact Nat.le_of_ble_eq_true rfl | with_reducible intro _ | dsimp only | split

theorem keep_headlandReset {s : State} (h : Keep H s) : Keep H (headlandReset s) := by
  unfold headlandReset; try dsimp only
  repeat' first
    | with_reducible
      first
      | assumption | apply keep_flushCommands | apply keep_setPresent | apply keep_complete | apply keep_abandonSession
      | apply keep_updStrm | apply keep_endSound | apply keep_endEpoch | apply keep_eachN
      | ((conv => arg 2; arg 20); apply keep_upd) | exact rfl | exact .inl rfl
    | (with_reducible apply Or.inr); exact Nat.le_of_ble_eq_true rfl | with_reducible intro _ | dsimp only | split

theorem keep_askReset {s : State} {t : Nat} {reach : Nat} {hold : Bool} {w : Option (Waiter × Nat)} {bw : Option Req} (h
    : Keep H s) : Keep H (askReset s t reach hold w bw) := by
  unfold askReset; try dsimp only
  repeat' first
    | with_reducible
      first
      | assumption | apply keep_reply | apply keep_updJobs | apply keep_closeKind | apply keep_recordSource
      | apply keep_headlandReset | apply keep_State_updSlice | apply keep_eachN | ((conv => arg 2; arg 20); apply keep_upd)
      | exact rfl | exact .inl rfl
    | (with_reducible apply Or.inr); exact Nat.le_of_ble_eq_true rfl | with_reducible intro _ | dsimp only | split

theorem keep_drainDone {s : State} {j : ResetJob} {forced : Bool} (h : Keep H s) : Keep H (drainDone s j forced) := by
  unfold drainDone; try dsimp only
  repeat' first
    | with_reducible
      first
      | assumption | apply keep_bwDone | apply keep_releaseBlocks | apply keep_recordSource | apply keep_tryRelease
      | apply keep_assertJob | apply keep_foldl | apply keep_foldl1 | ((conv => arg 2; arg 20); apply keep_upd)
      | exact rfl | exact .inl rfl
    | (with_reducible apply Or.inr); exact Nat.le_of_ble_eq_true rfl | with_reducible intro _ | dsimp only | split

theorem keep_drainUnion {s : State} {t : Nat} (h : Keep H s) : Keep H (drainUnion s t) := by
  unfold drainUnion; try dsimp only
  repeat' first
    | with_reducible
      first
      | assumption | apply keep_drainDone | apply keep_foldl | apply keep_foldl1
    | with_reducible intro _ | dsimp only | split

theorem keep_resetDrained {s : State} {t : Nat} {forced : Bool} (h : Keep H s) : Keep H (resetDrained s t forced) := by
  unfold resetDrained; try dsimp only
  repeat' first
    | with_reducible
      first
      | assumption | apply keep_drainUnion | apply keep_drainDone | apply keep_updJobs | apply keep_foldl
      | apply keep_foldl1 | ((conv => arg 2; arg 20); apply keep_upd) | exact rfl | exact .inl rfl
    | (with_reducible apply Or.inr); exact Nat.le_of_ble_eq_true rfl | with_reducible intro _ | dsimp only | split

theorem keep_unrecordHold {s : State} {t : Nat} (h : Keep H s) : Keep H (unrecordHold s t) := by
  unfold unrecordHold; try dsimp only
  repeat' first
    | with_reducible
      first
      | assumption | ((conv => arg 2; arg 20); apply keep_upd) | exact rfl | exact .inl rfl
    | (with_reducible apply Or.inr); exact Nat.le_of_ble_eq_true rfl | dsimp only | split

theorem keep_askRelease {s : State} {t : Nat} {w : Option (Waiter × Nat)} (h : Keep H s) : Keep H (askRelease s t w) := by
  unfold askRelease; try dsimp only
  repeat' first
    | with_reducible
      first
      | assumption | apply keep_tryRelease | apply keep_updJobs | apply keep_unrecordHold
    | with_reducible intro _ | dsimp only | split

theorem keep_applyRecorded {s : State} {p : Recorded → Bool} (h : Keep H s) : Keep H (applyRecorded s p) := by
  unfold applyRecorded; try dsimp only
  repeat' first
    | with_reducible
      first
      | assumption | apply keep_askReset | apply keep_foldl | apply keep_foldl1 | ((conv => arg 2; arg 20); apply keep_upd)
      | exact rfl | exact .inl rfl
    | (with_reducible apply Or.inr); exact Nat.le_of_ble_eq_true rfl | with_reducible intro _ | dsimp only | split

theorem keep_endEpisode {s : State} {t : Nat} (h : Keep H s) : Keep H (endEpisode s t) := by
  unfold endEpisode; try dsimp only
  repeat' first
    | with_reducible
      first
      | assumption | apply keep_releaseBlocks | apply keep_raiseReady | apply keep_closeKind | apply keep_applyRecorded
      | apply keep_foldl | apply keep_foldl1 | ((conv => arg 2; arg 20); apply keep_upd) | exact rfl | exact .inl rfl
    | (with_reducible apply Or.inr); exact Nat.le_of_ble_eq_true rfl | with_reducible intro _ | dsimp only | split

theorem keep_execResetStartupDone {t : BitVec 32} {s : State} (h : Keep H s) : KeepO H (execResetStartupDone t s) := by
  unfold execResetStartupDone; try dsimp only
  apply keepO_next
  repeat' first
    | with_reducible
      first
      | assumption | apply keep_endEpisode
    | dsimp only | split

theorem keep_keeperHold {s : State} {t : Nat} (h : Keep H s) : Keep H (keeperHold s t) := by
  unfold keeperHold; try dsimp only
  repeat' first
    | with_reducible
      first
      | assumption | apply keep_assertJob | apply keep_updJobs | ((conv => arg 2; arg 20); apply keep_upd) | exact rfl
      | exact .inl rfl
    | (with_reducible apply Or.inr); exact Nat.le_of_ble_eq_true rfl | with_reducible intro _ | dsimp only | split

theorem keep_keeperRelease {s : State} {t : Nat} (h : Keep H s) : Keep H (keeperRelease s t) := by
  unfold keeperRelease; try dsimp only
  repeat' first
    | with_reducible
      first
      | assumption | apply keep_askRelease
    | dsimp only | split

theorem keep_resetRun1 {op : Nat} {reach : Nat} {s : State} {r : Req} (h : Keep H s) : Keep H (resetRun op reach s r).1 := by
  unfold resetRun; try dsimp only
  repeat' first
    | with_reducible
      first
      | assumption | apply keep_askRelease | apply keep_unrecordHold | apply keep_askReset
    | dsimp only | split

theorem keep_resetRun {op : Nat} {reach : Nat} {s : State} {r : Req} {out : State} {snd : _} (h : Keep H s)
    (e : resetRun op reach s r = (out, snd)) : Keep H out := by
  have k := keep_resetRun1 (H := H)  (h := h) (op := op) (reach := reach) (r := r)
  rw [e] at k; exact k

theorem keep_resetBlockCmd : KeepC H (resetBlockCmd) := by
  intro s r h
  dsimp only [resetBlockCmd]
  repeat' first
    | with_reducible
      first
      | assumption | apply keep_resetRun1
    | refine keep_resetRun (e := by assumption) ?_ | dsimp only | split

theorem keep_resetDomainCmd : KeepC H (resetDomainCmd) := by
  intro s r h
  dsimp only [resetDomainCmd]
  repeat' first
    | with_reducible
      first
      | assumption | apply keep_resetRun1
    | refine keep_resetRun (e := by assumption) ?_ | dsimp only | split

theorem keep_resetStatusCmd : KeepC H resetStatusCmd := fun _ _ h => h

theorem keep_resetCountersReadCmd : KeepC H resetCountersReadCmd := fun _ _ h => h

theorem keep_resetCountersClearCmd : KeepC H (resetCountersClearCmd) := by
  intro s r h
  dsimp only [resetCountersClearCmd, clearCmd, doOk]
  repeat' first
    | with_reducible
      first
      | assumption | apply keep_State_clearCnt
    | dsimp only | split

theorem keep_overrideChanged {s : State} {kind : Nat} {on : Nat} (h : Keep H s) : Keep H (overrideChanged s kind on) := by
  unfold overrideChanged; try dsimp only
  repeat' first
    | with_reducible
      first
      | assumption | apply keep_raise
    | dsimp only | split

theorem keep_safeStateCmd (hs : H.freeS) : KeepC H safeStateCmd := by
  intro s r h
  dsimp only [safeStateCmd, doOk]
  repeat' split
  · exact h
  · exact keep_overrideChanged (keep_safeLanes (keep_eachN (keep_safe h hs) fun _ _ h => keep_quietPort h))
  · exact keep_overrideChanged (keep_eachN (keep_safe h hs) fun _ _ h => keep_leaveQuiet h)
  · exact h

theorem keep_portQuietCmd : KeepC H (portQuietCmd) := by
  intro s r h
  dsimp only [portQuietCmd, doOk]
  repeat' first
    | with_reducible
      first
      | assumption | apply keep_State_updPort | apply keep_quietPort | apply keep_leaveQuiet | apply keep_overrideChanged
      | apply keep_eachN
    | with_reducible intro _ | dsimp only | split

theorem keep_domainResetCmd : KeepC H (domainResetCmd) := by
  intro s r h
  dsimp only [domainResetCmd]
  repeat' first
    | with_reducible
      first
      | assumption | apply keep_askReset
    | dsimp only | split

end Sys2Proof.Machine
end

