-- ==== Sys2Proof/Laws/KeepClocks.lean ====
section
/-! SUPPORT. What the operations of Machine/Clocks.lean keep of `Laws.Keep`: one lemma for each. -/

set_option linter.unusedVariables false
set_option linter.unreachableTactic false
set_option linter.unusedTactic false

namespace Sys2Proof.Machine

variable {H : Hold}

theorem keep_updClk {s : State} {f : Clk → Clk} (h : Keep H s) : Keep H (updClk s f) := by
  unfold updClk; try dsimp only
  repeat' first
    | with_reducible
      first
      | assumption | ((conv => arg 2; arg 20); apply keep_upd) | exact rfl | exact .inl rfl
    | (with_reducible apply Or.inr); exact Nat.le_of_ble_eq_true rfl | dsimp only | split

theorem keep_updPower {s : State} {f : DevPower → DevPower} (h : Keep H s) : Keep H (updPower s f) := by
  unfold updPower; try dsimp only
  repeat' first
    | with_reducible
      first
      | assumption | ((conv => arg 2; arg 20); apply keep_upd) | exact rfl | exact .inl rfl
    | (with_reducible apply Or.inr); exact Nat.le_of_ble_eq_true rfl | dsimp only | split

theorem keep_setPoint {s : State} {n : Nat} (h : Keep H s) : Keep H (setPoint s n) := by
  unfold setPoint; try dsimp only
  repeat' first
    | with_reducible
      first
      | assumption | ((conv => arg 2; arg 20); apply keep_upd) | exact rfl | exact .inl rfl
    | (with_reducible apply Or.inr); exact Nat.le_of_ble_eq_true rfl | dsimp only | split

theorem keep_beginTrans {s : State} {n : Nat} (h : Keep H s) : Keep H (beginTrans s n) := by
  unfold beginTrans; try dsimp only
  repeat' first
    | with_reducible
      first
      | assumption | apply keep_updClk | apply keep_setPoint
    | with_reducible intro _ | dsimp only | split

theorem keep_dvfsPump {s : State} (h : Keep H s) : Keep H (dvfsPump s) := by
  unfold dvfsPump; try dsimp only
  repeat' first
    | with_reducible
      first
      | assumption | apply keep_beginTrans | apply keep_updClk
    | with_reducible intro _ | dsimp only | split

theorem keep_raisePoint {s : State} (h : Keep H s) : Keep H (raisePoint s) := by
  unfold raisePoint; try dsimp only
  repeat' first
    | with_reducible
      first
      | assumption | apply keep_dvfsPump | apply keep_updClk
    | with_reducible intro _ | dsimp only | split

theorem keep_dvfsFault {s : State} {cause : Nat} {pt : Nat} (h : Keep H s) : Keep H (dvfsFault s cause pt) := by
  unfold dvfsFault; try dsimp only
  repeat' first
    | with_reducible
      first
      | assumption | apply keep_raise | apply keep_State_bump | apply keep_updClk
    | with_reducible intro _ | dsimp only | split

theorem keep_setMode {s : State} {mode : Nat} {ceil : Nat} {cause : Nat} {port : Nat} (h : Keep H s)
    : Keep H (setMode s mode ceil cause port) := by
  unfold setMode; try dsimp only
  repeat' first
    | with_reducible
      first
      | assumption | apply keep_updPower | apply keep_raise | ((conv => arg 2; arg 20); apply keep_upd) | exact rfl
      | exact .inl rfl
    | (with_reducible apply Or.inr); exact Nat.le_of_ble_eq_true rfl | with_reducible intro _ | dsimp only | split

theorem keep_powerJobEnd {s : State} {st : Status} (h : Keep H s) : Keep H (powerJobEnd s st) := by
  unfold powerJobEnd; try dsimp only
  repeat' first
    | with_reducible
      first
      | assumption | apply keep_closeWaiter | apply keep_updPower
    | with_reducible intro _ | dsimp only | split

theorem keep_powerDone {s : State} (h : Keep H s) : Keep H (powerDone s) := by
  unfold powerDone; try dsimp only
  repeat' first
    | with_reducible
      first
      | assumption | apply keep_powerJobEnd | apply keep_setMode
    | dsimp only | split

theorem keep_powerBegin {s : State} {j : PowerJob} (h : Keep H s) : Keep H (powerBegin s j) := by
  unfold powerBegin; try dsimp only
  repeat' first
    | with_reducible
      first
      | assumption | apply keep_updPower | apply keep_powerDone | apply keep_raisePoint | apply keep_setMode
      | apply keep_dvfsPump
    | with_reducible intro _ | dsimp only | split

theorem keep_releaseWakes {s : State} {i : Nat} (h : Keep H s) : Keep H (releaseWakes s i) := by
  unfold releaseWakes; try dsimp only
  repeat' first
    | with_reducible
      first
      | assumption | apply keep_wakeSteps | apply keep_eachN
    | with_reducible intro _ | dsimp only | split

theorem keep_openSlice {s : State} {i : Nat} (h : Keep H s) : Keep H (openSlice s i) := by
  unfold openSlice; try dsimp only
  repeat' first
    | with_reducible
      first
      | assumption | apply keep_State_updSlice
    | with_reducible intro _ | dsimp only | split

theorem keep_ungate {s : State} {mask : Nat} (h : Keep H s) : Keep H (ungate s mask) := by
  unfold ungate; try dsimp only
  repeat' first
    | with_reducible
      first
      | assumption | apply keep_updClk
    | with_reducible intro _ | dsimp only | split

theorem keep_parkDone {s : State} (h : Keep H s) : Keep H (parkDone s) := by
  unfold parkDone; try dsimp only
  repeat' first
    | with_reducible
      first
      | assumption | apply keep_updPower | apply keep_powerJobEnd | apply keep_setMode
    | with_reducible intro _ | dsimp only | split

theorem keep_unparkDone {s : State} (h : Keep H s) : Keep H (unparkDone s) := by
  unfold unparkDone; try dsimp only
  repeat' first
    | with_reducible
      first
      | assumption | apply keep_ungate | apply keep_openSlice | apply keep_setMode | apply keep_tideUnpark
      | apply keep_updPower | apply keep_tempCompare | apply keep_releaseWakes | apply keep_wakePort
      | apply keep_powerJobEnd | apply keep_powerBegin | apply keep_eachN | ((conv => arg 2; arg 20); apply keep_upd)
      | exact rfl | exact .inl rfl
    | (with_reducible apply Or.inr); exact Nat.le_of_ble_eq_true rfl | with_reducible intro _ | dsimp only | split

theorem keep_powerCheck {s : State} (h : Keep H s) : Keep H (powerCheck s) := by
  unfold powerCheck; try dsimp only
  repeat' first
    | with_reducible
      first
      | assumption | apply keep_parkDone | apply keep_unparkDone | apply keep_powerDone
    | dsimp only | split

theorem keep_dvfsGo {s : State} (h : Keep H s) : Keep H (dvfsGo s) := by
  unfold dvfsGo; try dsimp only
  repeat' first
    | with_reducible
      first
      | assumption | apply keep_powerCheck | apply keep_dvfsPump
    | dsimp only | split

theorem keep_unparkBegin {s : State} {cause : Nat} {port : Nat} (h : Keep H s) : Keep H (unparkBegin s cause port) := by
  unfold unparkBegin; try dsimp only
  repeat' first
    | with_reducible
      first
      | assumption | apply keep_powerCheck | apply keep_raisePoint | apply keep_updPower
    | with_reducible intro _ | dsimp only | split

theorem keep_tryFeReady {s : State} (h : Keep H s) : Keep H (tryFeReady s) := by
  unfold tryFeReady
  split
  · obtain ⟨hp, a, b, c, d, e⟩ := h
    exact ⟨hp, a, ⟨Nat.zero_le _, Nat.zero_le _⟩, c, d, e⟩
  · exact h

theorem keep_startHalt {s : State} {cause : Nat} (h : Keep H s) : Keep H (startHalt s cause) := by
  unfold startHalt; try dsimp only
  repeat' first
    | with_reducible
      first
      | assumption | apply keep_tryFeReady | apply keep_updClk | apply keep_dvfsFault
    | with_reducible intro _ | dsimp only | split

theorem keep_startRetry {s : State} {cause : Nat} {stage : Nat} {write : Bool} (h : Keep H s)
    : Keep H (startRetry s cause stage write) := by
  unfold startRetry; try dsimp only
  repeat' first
    | with_reducible
      first
      | assumption | apply keep_updClk | apply keep_State_bump | apply keep_startHalt
    | with_reducible intro _ | dsimp only | split

theorem keep_transRetry {s : State} {t : Trans} {cause : Nat} (h : Keep H s) : Keep H (transRetry s t cause) := by
  unfold transRetry; try dsimp only
  repeat' first
    | with_reducible
      first
      | assumption | apply keep_State_bump | apply keep_updClk | apply keep_powerCheck | apply keep_dvfsFault
    | with_reducible intro _ | dsimp only | split

theorem keep_execPmbusWriteDone {ack : Bool} {data : BitVec 8} {s : State} (h : Keep H s)
    : KeepO H (execPmbusWriteDone ack data s) := by
  unfold execPmbusWriteDone; try dsimp only
  apply keepO_next
  repeat' first
    | with_reducible
      first
      | assumption | apply keep_updClk | apply keep_startRetry | apply keep_startHalt | apply keep_transRetry
    | with_reducible intro _ | dsimp only | split

theorem keep_execDvfsSettled {mv : BitVec 16} {s : State} (h : Keep H s) : KeepO H (execDvfsSettled mv s) := by
  unfold execDvfsSettled; try dsimp only
  apply keepO_next
  repeat' first
    | with_reducible
      first
      | assumption | apply keep_setRail | apply keep_updClk | apply keep_dvfsGo | apply keep_tryFeReady
      | apply keep_setPoint | apply keep_raise | apply keep_State_bump
    | with_reducible intro _ | dsimp only | split

theorem keep_execDvfsSettleTimeout {mv : BitVec 16} {s : State} (h : Keep H s) : KeepO H (execDvfsSettleTimeout mv s) := by
  unfold execDvfsSettleTimeout; try dsimp only
  apply keepO_next
  repeat' first
    | with_reducible
      first
      | assumption | apply keep_setRail | apply keep_startRetry | apply keep_transRetry
    | dsimp only | split

theorem keep_execLoadWindowEnd {s : State} (h : Keep H s) : KeepO H (execLoadWindowEnd s) := by
  unfold execLoadWindowEnd; try dsimp only
  apply keepO_next
  repeat' first
    | with_reducible
      first
      | assumption | apply keep_dvfsGo | apply keep_updClk | apply keep_beginTrans
      | ((conv => arg 2; arg 20); apply keep_upd) | exact rfl | exact .inl rfl
    | (with_reducible apply Or.inr); exact Nat.le_of_ble_eq_true rfl | with_reducible intro _ | dsimp only | split

theorem keep_portClockLoss {s : State} {p : Nat} (h : Keep H s) : Keep H (portClockLoss s p) := by
  unfold portClockLoss; try dsimp only
  repeat' first
    | with_reducible
      first
      | assumption | apply keep_linkDown | apply keep_abandon
    | dsimp only | split

theorem keep_quayClockLoss {s : State} {q : Nat} (h : Keep H s) : Keep H (quayClockLoss s q) := by
  unfold quayClockLoss; try dsimp only
  repeat' first
    | with_reducible
      first
      | assumption | apply keep_linkRetrain | apply keep_eachN
    | with_reducible intro _ | dsimp only | split

theorem keep_coreCoast {s : State} (h : Keep H s) : Keep H (coreCoast s) := by
  unfold coreCoast; try dsimp only
  repeat' first
    | with_reducible
      first
      | assumption | apply keep_updClk | apply keep_setPoint
    | with_reducible intro _ | dsimp only | split

theorem keep_clockLoss {s : State} {c : Nat} (h : Keep H s) : Keep H (clockLoss s c) := by
  unfold clockLoss; try dsimp only
  repeat' first
    | with_reducible
      first
      | assumption | apply keep_portClockLoss | apply keep_quayClockLoss | apply keep_powerCheck | apply keep_coreCoast
      | apply keep_gptpLose | apply keep_eachN | ((conv => arg 2; arg 20); apply keep_upd) | exact rfl | exact .inl rfl
    | (with_reducible apply Or.inr); exact Nat.le_of_ble_eq_true rfl | with_reducible intro _ | dsimp only | split

theorem keep_refPresent {s : State} (h : Keep H s) : Keep H (refPresent s) := by
  unfold refPresent; try dsimp only
  repeat' first
    | with_reducible
      first
      | assumption | apply keep_setPresent
    | dsimp only | split

theorem keep_markFailed {s : State} {c : Nat} (h : Keep H s) : Keep H (markFailed s c) := by
  unfold markFailed; try dsimp only
  repeat' first
    | with_reducible
      first
      | assumption | apply keep_updClk
    | with_reducible intro _ | dsimp only | split

theorem keep_execClockFail {clock : Fin 29} {stopped : Bool} {s : State} (h : Keep H s)
    : KeepO H (execClockFail clock stopped s) := by
  unfold execClockFail; try dsimp only
  apply keepO_next
  repeat' first
    | with_reducible
      first
      | assumption | apply keep_raise | apply keep_State_bump | apply keep_markFailed | apply keep_safetyFault
      | apply keep_refPresent | apply keep_clockLoss
    | dsimp only | split

theorem keep_execClockReturn {clock : Fin 30} {s : State} (h : Keep H s) : KeepO H (execClockReturn clock s) := by
  unfold execClockReturn; try dsimp only
  apply keepO_next
  repeat' first
    | with_reducible
      first
      | assumption | apply keep_updClk | apply keep_refPresent | apply keep_raise
    | with_reducible intro _ | dsimp only | split

theorem keep_execLrefStable {freq : BitVec 16} {s : State} (h : Keep H s) : KeepO H (execLrefStable freq s) := by
  unfold execLrefStable; try dsimp only
  apply keepO_next
  repeat' first
    | with_reducible
      first
      | assumption | apply keep_refPresent | apply keep_updClk
    | with_reducible intro _ | dsimp only | split

theorem keep_execLrefStartTimeout {s : State} (h : Keep H s) : KeepO H (execLrefStartTimeout s) := by
  unfold execLrefStartTimeout; try dsimp only
  apply keepO_next
  repeat' first
    | with_reducible
      first
      | assumption | apply keep_updClk | apply keep_safetyFault | apply keep_refPresent | apply keep_tryFeReady
      | apply keep_leaveQuiet | apply keep_eachN
    | with_reducible intro _ | dsimp only | split

theorem keep_execHrefPresent {s : State} (h : Keep H s) : KeepO H (execHrefPresent s) := by
  unfold execHrefPresent; try dsimp only
  apply keepO_next
  repeat' first
    | with_reducible
      first
      | assumption | apply keep_updClk | apply keep_leaveQuietLane | apply keep_eachN
    | with_reducible intro _ | dsimp only | split

theorem keep_islandsBack {s : State} {c : Nat} (h : Keep H s) : Keep H (islandsBack s c) := by
  unfold islandsBack; try dsimp only
  repeat' first
    | with_reducible
      first
      | assumption | apply keep_updClk | apply keep_keeperRelease | apply keep_leaveQuiet | apply keep_leaveQuietLane
      | apply keep_eachN
    | with_reducible intro _ | dsimp only | split

theorem keep_execPllLock {pll : Fin 27} {s : State} (h : Keep H s) : KeepO H (execPllLock pll s) := by
  unfold execPllLock; try dsimp only
  apply keepO_next
  repeat' first
    | with_reducible
      first
      | assumption | apply keep_islandsBack | apply keep_updClk | apply keep_laneTrain | apply keep_tryFeReady
      | apply keep_powerCheck | apply keep_raisePoint | apply keep_eachN
    | with_reducible intro _ | dsimp only | split

theorem keep_execClockForcedSwitch {i : Fin 31} {s : State} (h : Keep H s) : KeepO H (execClockForcedSwitch i s) := by
  unfold execClockForcedSwitch; try dsimp only
  apply keepO_next
  repeat' first
    | with_reducible
      first
      | assumption | apply keep_updClk | apply keep_raise | apply keep_State_bump | apply keep_markTest
      | apply keep_keeperHold | apply keep_gptpLose | apply keep_foldl | apply keep_foldl1
    | with_reducible intro _ | dsimp only | split

theorem keep_execKeeperFreqFault {freq : BitVec 16} {s : State} (h : Keep H s) : KeepO H (execKeeperFreqFault freq s) := by
  unfold execKeeperFreqFault; try dsimp only
  apply keepO_next
  repeat' first
    | with_reducible
      first
      | assumption | apply keep_updClk | apply keep_raise | apply keep_State_bump
    | with_reducible intro _ | dsimp only | split

theorem keep_gateIsland1 {s : State} {op : Nat} {r : Req} {i : Nat} (h : Keep H s) : Keep H (gateIsland s op r i).1 := by
  unfold gateIsland; try dsimp only
  repeat' first
    | with_reducible
      first
      | assumption | apply keep_State_updSlice | apply keep_updClk | ((conv => arg 2; arg 20); apply keep_upd) | exact rfl
      | exact .inl rfl
    | (with_reducible apply Or.inr); exact Nat.le_of_ble_eq_true rfl | with_reducible intro _ | dsimp only | split

theorem keep_gateIsland {s : State} {op : Nat} {r : Req} {i : Nat} {out : State} {snd : _} (h : Keep H s)
    (e : gateIsland s op r i = (out, snd)) : Keep H out := by
  have k := keep_gateIsland1 (H := H)  (h := h) (op := op) (r := r) (i := i)
  rw [e] at k; exact k

theorem keep_ungateIsland {s : State} {i : Nat} (h : Keep H s) : Keep H (ungateIsland s i) := by
  unfold ungateIsland; try dsimp only
  repeat' first
    | with_reducible
      first
      | assumption | apply keep_ungate | apply keep_leaveQuiet | apply keep_leaveQuietLane | apply keep_releaseWakes
      | apply keep_openSlice | apply keep_eachN
    | with_reducible intro _ | dsimp only | split

theorem keep_gateRun1 {s : State} {op : Nat} {r : Req} {i : Nat} (h : Keep H s) : Keep H (gateRun s op r i).1 := by
  unfold gateRun; try dsimp only
  repeat' first
    | with_reducible
      first
      | assumption | apply keep_gateIsland1 | apply keep_ungateIsland
    | refine keep_gateIsland (e := by assumption) ?_ | dsimp only | split

theorem keep_gateRun {s : State} {op : Nat} {r : Req} {i : Nat} {out : State} {snd : _} (h : Keep H s)
    (e : gateRun s op r i = (out, snd)) : Keep H out := by
  have k := keep_gateRun1 (H := H)  (h := h) (op := op) (r := r) (i := i)
  rw [e] at k; exact k

theorem keep_sliceGateCmd : KeepC H (sliceGateCmd) := by
  intro s r h
  dsimp only [sliceGateCmd]
  repeat' first
    | with_reducible
      first
      | assumption | apply keep_gateRun1
    | refine keep_gateRun (e := by assumption) ?_ | dsimp only | split

theorem keep_islandGateCmd : KeepC H (islandGateCmd) := by
  intro s r h
  dsimp only [islandGateCmd]
  repeat' first
    | with_reducible
      first
      | assumption | apply keep_gateRun1
    | refine keep_gateRun (e := by assumption) ?_ | dsimp only | split

theorem keep_gatingDrained {s : State} {i : Nat} {forced : Bool} (h : Keep H s) : Keep H (gatingDrained s i forced) := by
  unfold gatingDrained; try dsimp only
  repeat' first
    | with_reducible
      first
      | assumption | apply keep_updClk | apply keep_State_bump | ((conv => arg 2; arg 20); apply keep_upd) | exact rfl
      | exact .inl rfl
    | (with_reducible apply Or.inr); exact Nat.le_of_ble_eq_true rfl | with_reducible intro _ | dsimp only | split

theorem keep_gatingReply {s : State} {i : Nat} {st : Option Status} (h : Keep H s) : Keep H (gatingReply s i st) := by
  unfold gatingReply; try dsimp only
  repeat' first
    | with_reducible
      first
      | assumption | apply keep_reply | apply keep_foldl | apply keep_foldl1
      | ((conv => arg 2; arg 20); apply keep_upd) | exact rfl | exact .inl rfl
    | (with_reducible apply Or.inr); exact Nat.le_of_ble_eq_true rfl | with_reducible intro _ | dsimp only | split

theorem keep_gateGiveUp {s : State} {i : Nat} (h : Keep H s) : Keep H (gateGiveUp s i) := by
  unfold gateGiveUp; try dsimp only
  repeat' first
    | with_reducible
      first
      | assumption | apply keep_gatingReply | apply keep_updClk | apply keep_releaseWakes | apply keep_openSlice
      | ((conv => arg 2; arg 20); apply keep_upd) | exact rfl | exact .inl rfl
    | (with_reducible apply Or.inr); exact Nat.le_of_ble_eq_true rfl | with_reducible intro _ | dsimp only | split

theorem keep_parkGated {s : State} (h : Keep H s) : Keep H (parkGated s) := by
  unfold parkGated; try dsimp only
  repeat' first
    | with_reducible
      first
      | assumption | apply keep_dvfsGo | apply keep_updPower
    | with_reducible intro _ | dsimp only | split

theorem keep_execIslandGateEffect {i : Fin 31} {s : State} (h : Keep H s) : KeepO H (execIslandGateEffect i s) := by
  unfold execIslandGateEffect; try dsimp only
  apply keepO_next
  repeat' first
    | with_reducible
      first
      | assumption | apply keep_gateGiveUp | apply keep_updClk | apply keep_parkGated | apply keep_gatingReply
      | ((conv => arg 2; arg 20); apply keep_upd) | exact rfl | exact .inl rfl
    | (with_reducible apply Or.inr); exact Nat.le_of_ble_eq_true rfl | with_reducible intro _ | dsimp only | split

theorem keep_execBridgesOpen {i : Fin 31} {s : State} (h : Keep H s) : KeepO H (execBridgesOpen i s) := by
  unfold execBridgesOpen; try dsimp only
  apply keepO_next
  repeat' first
    | with_reducible
      first
      | assumption | apply keep_updClk
    | with_reducible intro _ | dsimp only | split

theorem keep_clockStatusCmd : KeepC H clockStatusCmd := fun _ _ h => h

theorem keep_dvfsRestart {s : State} (h : Keep H s) : Keep H (dvfsRestart s) := by
  unfold dvfsRestart; try dsimp only
  repeat' first
    | with_reducible
      first
      | assumption | apply keep_updClk | apply keep_dvfsGo
    | with_reducible intro _ | dsimp only | split

theorem keep_dvfsConfigCmd (hc : H.freeC) : KeepC H (dvfsConfigCmd) := by
  intro s r h
  dsimp only [dvfsConfigCmd, confCmd, doOk]
  repeat' first
    | with_reducible
      first
      | assumption | apply keep_dvfsRestart | apply keep_updDev
    | with_reducible intro _ | dsimp only | split

theorem keep_avsConfigCmd (hc : H.freeC) : KeepC H (avsConfigCmd) := by
  intro s r h
  dsimp only [avsConfigCmd, confCmd, doOk]
  repeat' first
    | with_reducible
      first
      | assumption | apply keep_updClk | apply keep_updDev
    | with_reducible intro _ | dsimp only | split

theorem keep_clockFlagsClearCmd : KeepC H (clockFlagsClearCmd) := by
  intro s r h
  dsimp only [clockFlagsClearCmd, doOk]
  repeat' first
    | with_reducible
      first
      | assumption | apply keep_updClk
    | with_reducible intro _ | dsimp only | split

theorem keep_clockCountersReadCmd : KeepC H clockCountersReadCmd := fun _ _ h => h

theorem keep_clockCountersClearCmd : KeepC H (clockCountersClearCmd) := by
  intro s r h
  dsimp only [clockCountersClearCmd, clearCmd, doOk]
  repeat' first
    | with_reducible
      first
      | assumption | apply keep_updClk | apply keep_State_clearCnt
    | with_reducible intro _ | dsimp only | split

end Sys2Proof.Machine
end

