-- ==== Sys2Proof/Laws/KeepBoot.lean ====
section
/-! SUPPORT. What the operations of Machine/Boot.lean keep of `Laws.Keep`: one lemma for each. -/

set_option linter.unusedVariables false
set_option linter.unreachableTactic false
set_option linter.unusedTactic false

namespace Sys2Proof.Machine

variable {H : Hold}

theorem keep_deviceReset {s : State} {reach : Nat} (hc : H.freeC) (hs : H.freeS) (h : Keep H s)
    : Keep H (deviceReset s reach) := by
  unfold deviceReset
  extract_lets s1
  apply keep_abandonSession
  obtain ⟨hp, a, ⟨b1, b2⟩, c, d, e, ⟨f1, f2⟩, g, i, m, n, o, p⟩ := h
  refine ⟨hp, Nat.zero_le _, ⟨?_, ?_⟩, ?_, ⟨List.Pairwise.nil, by simp [s1]⟩, e, ?_, Nat.zero_le _, ?_, m, n,
    hc _ _ o, hs _ _ p⟩
  · simp only [s1]; split
    · exact Nat.zero_le _
    · exact b1
  · simp only [s1]; split
    · exact Nat.zero_le _
    · exact b2
  · simp only [s1, resetInteg]; split
    · exact Nat.zero_le _
    · exact c
  · simp only [s1, countersFit, keptCounters]
    split
    · exact ⟨⟨List.Pairwise.nil, by simp⟩, by simp⟩
    · exact ⟨⟨f1.1.filter _, fun e he => f1.2 e (List.mem_of_mem_filter he)⟩, fun e he => f2 e (List.mem_of_mem_filter he)⟩
  · simp only [s1, resetRst]
    first | exact Nat.zero_le _ | (split <;> exact Nat.zero_le _)

theorem keep_execPowerOnRelease {s : State} (h : Keep H s) : KeepO H (execPowerOnRelease s) := by
  unfold execPowerOnRelease; try dsimp only
  apply keepO_next
  repeat' first
    | with_reducible
      first
      | assumption | ((conv => arg 2; arg 20); apply keep_upd) | exact rfl | exact .inl rfl
    | (with_reducible apply Or.inr); exact Nat.le_of_ble_eq_true rfl | dsimp only | split

theorem keep_recordDue {s : State} {reach : Nat} (h : Keep H s) : Keep H (recordDue s reach) := by
  unfold recordDue; try dsimp only
  repeat' first
    | with_reducible
      first
      | assumption | ((conv => arg 2; arg 20); apply keep_upd) | exact rfl | exact .inl rfl
    | (with_reducible apply Or.inr); exact Nat.le_of_ble_eq_true rfl | with_reducible intro _ | dsimp only | split

theorem keep_execColdResetAssert {por : Bool} {s : State} (hc : H.freeC) (hs : H.freeS) (h : Keep H s) : KeepO H
    (execColdResetAssert por s) := by
  unfold execColdResetAssert; try dsimp only
  apply keepO_next
  repeat' first
    | with_reducible
      first
      | assumption | apply keep_recordDue | apply keep_deviceReset | ((conv => arg 2; arg 20); apply keep_upd)
      | ((conv => arg 2; arg 20); apply keep_updc) | exact rfl | exact .inl rfl
    | (with_reducible apply Or.inr); exact Nat.le_of_ble_eq_true rfl | with_reducible intro _ | dsimp only | split

theorem keep_execPinResetAssert {s : State} (hc : H.freeC) (hs : H.freeS) (h : Keep H s) : KeepO H (execPinResetAssert s)
    := by
  unfold execPinResetAssert; try dsimp only
  apply keepO_next
  repeat' first
    | with_reducible
      first
      | assumption | apply keep_recordDue | apply keep_deviceReset | ((conv => arg 2; arg 20); apply keep_upd)
      | ((conv => arg 2; arg 20); apply keep_updc) | exact rfl | exact .inl rfl
    | (with_reducible apply Or.inr); exact Nat.le_of_ble_eq_true rfl | with_reducible intro _ | dsimp only | split

theorem keep_beginBoot {s : State} {kind : Nat} {bootsel : Nat} (h : Keep H s) : Keep H (beginBoot s kind bootsel) := by
  unfold beginBoot; try dsimp only
  repeat' first
    | with_reducible
      first
      | assumption | apply keep_scanSlots | ((conv => arg 2; arg 20); apply keep_upd) | exact rfl | exact .inl rfl
    | (with_reducible apply Or.inr); exact Nat.le_of_ble_eq_true rfl | dsimp only | split

theorem keep_execColdStart {bootsel : BitVec 2} {s : State} (h : Keep H s) : KeepO H (execColdStart bootsel s) := by
  unfold execColdStart; try dsimp only
  apply keepO_next
  repeat' first
    | with_reducible
      first
      | assumption | apply keep_beginBoot | ((conv => arg 2; arg 20); apply keep_upd) | exact rfl | exact .inl rfl
    | (with_reducible apply Or.inr); exact Nat.le_of_ble_eq_true rfl | with_reducible intro _ | dsimp only | split

theorem keep_execPinStart {bootsel : BitVec 2} {s : State} (h : Keep H s) : KeepO H (execPinStart bootsel s) := by
  unfold execPinStart; try dsimp only
  apply keepO_next
  repeat' first
    | with_reducible
      first
      | assumption | apply keep_beginBoot | apply keep_State_bump | ((conv => arg 2; arg 20); apply keep_upd)
      | exact rfl | exact .inl rfl
    | (with_reducible apply Or.inr); exact Nat.le_of_ble_eq_true rfl | with_reducible intro _ | dsimp only | split

theorem keep_execWarmResetAssert {s : State} (hc : H.freeC) (hs : H.freeS) (h : Keep H s) : KeepO H (execWarmResetAssert s)
    := by
  unfold execWarmResetAssert; try dsimp only
  apply keepO_next
  repeat' first
    | with_reducible
      first
      | assumption | apply keep_deviceReset
    | dsimp only | split

theorem keep_useLog {s : State} {l : LogCopy} (h : Keep H s) : Keep H (useLog s l) := by
  unfold useLog; try dsimp only
  repeat' first
    | with_reducible
      first
      | assumption | ((conv => arg 2; arg 20); apply keep_upd) | exact rfl | exact .inl rfl
    | (with_reducible apply Or.inr); exact Nat.le_of_ble_eq_true rfl | dsimp only | split

theorem keep_repairFromLog {s : State} (h : Keep H s) : Keep H (repairFromLog s) := by
  unfold repairFromLog; try dsimp only
  repeat' first
    | with_reducible
      first
      | assumption | apply keep_useLog | ((conv => arg 2; arg 20); apply keep_upd) | exact rfl | exact .inl rfl
    | (with_reducible apply Or.inr); exact Nat.le_of_ble_eq_true rfl | dsimp only | split

theorem keep_execWarmStart {s : State} (h : Keep H s) : KeepO H (execWarmStart s) := by
  have k : ∀ s1, Keep H s1 → Keep H (updClk { s1 with rst := { s1.rst with calDone := true } } fun c => { c with pmStage := 1 }) :=
    fun s1 h1 => keep_updClk (keep_upd h1 rfl rfl rfl rfl rfl rfl (.inl rfl) (.inl rfl))
  unfold execWarmStart
  apply keepO_next
  split
  · exact k _ (keep_repairFromLog (keep_State_bump (keep_beginBoot h)))
  · exact h

theorem keep_execFuseLoadDone {s : State} (h : Keep H s) : KeepO H (execFuseLoadDone s) := by
  unfold execFuseLoadDone; try dsimp only
  apply keepO_next
  repeat' first
    | with_reducible
      first
      | assumption | apply keep_updClk | ((conv => arg 2; arg 20); apply keep_upd) | exact rfl | exact .inl rfl
    | (with_reducible apply Or.inr); exact Nat.le_of_ble_eq_true rfl | with_reducible intro _ | dsimp only | split

theorem keep_runImage {s : State} {i : Nat} {flags : Nat} {version : Nat} (h : Keep H s)
    : Keep H (runImage s i flags version) := by
  unfold runImage; try dsimp only
  repeat' first
    | with_reducible
      first
      | assumption | apply keep_tryFirmware | ((conv => arg 2; arg 20); apply keep_upd) | exact rfl | exact .inl rfl
    | (with_reducible apply Or.inr); exact Nat.le_of_ble_eq_true rfl | dsimp only | split

theorem keep_execFirmwareSignatureDone {chosen : Bool} {other : Bool} {version : BitVec 32} {s : State} (h : Keep H s)
    : KeepO H (execFirmwareSignatureDone chosen other version s) := by
  unfold execFirmwareSignatureDone; try dsimp only
  apply keepO_next
  repeat' first
    | with_reducible
      first
      | assumption | apply keep_runImage | apply keep_raise | apply keep_safetyFault | apply keep_setPresent
      | ((conv => arg 2; arg 20); apply keep_upd) | exact rfl | exact .inl rfl
    | (with_reducible apply Or.inr); exact Nat.le_of_ble_eq_true rfl | dsimp only | split

theorem keep_execHeadlandResetRelease {s : State} (h : Keep H s) : KeepO H (execHeadlandResetRelease s) := by
  unfold execHeadlandResetRelease; try dsimp only
  apply keepO_next
  repeat' first
    | with_reducible
      first
      | assumption | apply keep_updJobs | apply keep_State_bump | apply keep_scanSlots
      | ((conv => arg 2; arg 20); apply keep_upd) | exact rfl | exact .inl rfl
    | (with_reducible apply Or.inr); exact Nat.le_of_ble_eq_true rfl | with_reducible intro _ | dsimp only | split

theorem keep_watchdogExpired {s : State} (h : Keep H s) : Keep H (watchdogExpired s) := by
  unfold watchdogExpired; try dsimp only
  repeat' first
    | with_reducible
      first
      | assumption | apply keep_State_bump | apply keep_safetyFault | apply keep_setPresent | apply keep_askReset
      | ((conv => arg 2; arg 20); apply keep_upd) | exact rfl | exact .inl rfl
    | (with_reducible apply Or.inr); exact Nat.le_of_ble_eq_true rfl | dsimp only | split

theorem keep_execWatchdogExpiry {s : State} (h : Keep H s) : KeepO H (execWatchdogExpiry s) := by
  unfold execWatchdogExpiry; try dsimp only
  apply keepO_next
  repeat' first
    | with_reducible
      first
      | assumption | apply keep_watchdogExpired
    | dsimp only | split

theorem keep_execStartupTimerExpiry {s : State} (h : Keep H s) : KeepO H (execStartupTimerExpiry s) := by
  unfold execStartupTimerExpiry; try dsimp only
  apply keepO_next
  repeat' first
    | with_reducible
      first
      | assumption | apply keep_watchdogExpired
    | dsimp only | split

theorem keep_bootStatusCmd : KeepC H bootStatusCmd := fun _ _ h => h

theorem keep_watchdogConfigCmd (hc : H.freeC) : KeepC H (watchdogConfigCmd) := by
  intro s r h
  dsimp only [watchdogConfigCmd, confCmd, doOk]
  repeat' first
    | with_reducible
      first
      | assumption | apply keep_updDev
    | with_reducible intro _ | dsimp only | split

theorem keep_firmwareSelectCmd : KeepC H (firmwareSelectCmd) := by
  intro s r h
  dsimp only [firmwareSelectCmd, doOk]
  repeat' first
    | with_reducible
      first
      | assumption | ((conv => arg 2; arg 20); apply keep_upd) | exact rfl | exact .inl rfl
    | (with_reducible apply Or.inr); exact Nat.le_of_ble_eq_true rfl | dsimp only | split

end Sys2Proof.Machine
end

