-- ==== Sys2Proof/Laws/KeepPower.lean ====
section
/-! SUPPORT. What the operations of Machine/Power.lean keep of `Laws.Keep`: one lemma for each. -/

set_option linter.unusedVariables false
set_option linter.unreachableTactic false
set_option linter.unusedTactic false

namespace Sys2Proof.Machine

variable {H : Hold}

theorem keep_execLpiAssert {p : PortId} {s : State} (h : Keep H s) : KeepO H (execLpiAssert p s) := by
  unfold execLpiAssert; try dsimp only
  apply keepO_next
  repeat' first
    | with_reducible
      first
      | assumption | apply keep_State_updPort | apply keep_setLpi
    | with_reducible intro _ | dsimp only | split

theorem keep_slackTx {s : State} {p : Nat} {sub : Nat} {token : Nat} (h : Keep H s) : Keep H (slackTx s p sub token) := by
  unfold slackTx; try dsimp only
  repeat' first
    | with_reducible
      first
      | assumption | apply keep_State_updEgr | apply keep_State_bump | apply keep_State_bumpBy
      | ((conv => arg 2; arg 20); apply keep_upd) | exact rfl | exact .inl rfl
    | (with_reducible apply Or.inr); exact Nat.le_of_ble_eq_true rfl | with_reducible intro _ | dsimp only | split

theorem keep_updPw {s : State} {p : Nat} {f : Power → Power} (h : Keep H s) : Keep H (updPw s p f) := by
  unfold updPw; try dsimp only
  repeat' first
    | with_reducible
      first
      | assumption | apply keep_State_updPort
    | with_reducible intro _ | dsimp only | split

theorem keep_slackRefuse {s : State} {p : Nat} (h : Keep H s) : Keep H (slackRefuse s p) := by
  unfold slackRefuse; try dsimp only
  repeat' first
    | with_reducible
      first
      | assumption | apply keep_refuse | apply keep_slackTx | apply keep_updPw
      | ((conv => arg 2; arg 20); apply keep_upd) | exact rfl | exact .inl rfl
    | (with_reducible apply Or.inr); exact Nat.le_of_ble_eq_true rfl | with_reducible intro _ | dsimp only | split

theorem keep_slackGo {s : State} {p : Nat} (h : Keep H s) : Keep H (slackGo s p) := by
  unfold slackGo; try dsimp only
  repeat' first
    | with_reducible
      first
      | assumption | apply keep_slackRefuse | apply keep_enterSlack | apply keep_slackTx | apply keep_updPw
      | apply keep_State_draw | apply keep_State_bump | ((conv => arg 2; arg 20); apply keep_upd) | exact rfl
      | exact .inl rfl
    | (with_reducible apply Or.inr); exact Nat.le_of_ble_eq_true rfl | with_reducible intro _ | dsimp only | split

theorem keep_slackDue {s : State} {p : Nat} {f : Power → Power} (h : Keep H s) : Keep H (slackDue s p f) := by
  unfold slackDue; try dsimp only
  repeat' first
    | with_reducible
      first
      | assumption | apply keep_slackGo | apply keep_updPw | apply keep_macWake
    | with_reducible intro _ | dsimp only | split

theorem keep_slackRequest {s : State} {p : Nat} {cause : Nat} (h : Keep H s) : Keep H (slackRequest s p cause) := by
  unfold slackRequest; try dsimp only
  repeat' first
    | with_reducible
      first
      | assumption | apply keep_slackDue | apply keep_enterSlack | apply keep_slackJobDone | apply keep_slackRefused
      | ((conv => arg 2; arg 20); apply keep_upd) | exact rfl | exact .inl rfl
    | (with_reducible apply Or.inr); exact Nat.le_of_ble_eq_true rfl | with_reducible intro _ | dsimp only | split

theorem keep_slackRequestIn {s : State} {p : Nat} {token : Nat} (h : Keep H s) : Keep H (slackRequestIn s p token) := by
  unfold slackRequestIn; try dsimp only
  repeat' first
    | with_reducible
      first
      | assumption | apply keep_enterSlack | apply keep_slackTx | apply keep_updPw | apply keep_State_bump
      | apply keep_slackDue | apply keep_refuse | ((conv => arg 2; arg 20); apply keep_upd) | exact rfl | exact .inl rfl
    | (with_reducible apply Or.inr); exact Nat.le_of_ble_eq_true rfl | with_reducible intro _ | dsimp only | split

theorem keep_slackAcceptIn {s : State} {p : Nat} {token : Nat} (h : Keep H s) : Keep H (slackAcceptIn s p token) := by
  unfold slackAcceptIn; try dsimp only
  repeat' first
    | with_reducible
      first
      | assumption | apply keep_enterSlack
    | with_reducible intro _ | dsimp only | split

theorem keep_slackRefuseIn {s : State} {p : Nat} {token : Nat} (h : Keep H s) : Keep H (slackRefuseIn s p token) := by
  unfold slackRefuseIn; try dsimp only
  repeat' first
    | with_reducible
      first
      | assumption | apply keep_slackRefused
    | with_reducible intro _ | dsimp only | split

theorem keep_slackIn {s : State} {p : Nat} {sub : Nat} {token : Nat} (h : Keep H s) : Keep H (slackIn s p sub token) := by
  unfold slackIn; try dsimp only
  repeat' first
    | with_reducible
      first
      | assumption | apply keep_slackRequestIn | apply keep_slackAcceptIn | apply keep_slackRefuseIn
    | with_reducible intro _ | dsimp only | split

theorem keep_slackRx {s : State} {p : Nat} {sub : Nat} {token : Nat} (h : Keep H s) : Keep H (slackRx s p sub token) := by
  unfold slackRx; try dsimp only
  repeat' first
    | with_reducible
      first
      | assumption | apply keep_slackIn | apply keep_State_bump | apply keep_State_bumpBy
    | with_reducible intro _ | dsimp only | split

theorem keep_execSlackRequestRx {p : PortId} {token : BitVec 16} {s : State} (h : Keep H s) : KeepO H (execSlackRequestRx
    p token s) := by
  unfold execSlackRequestRx; try dsimp only
  apply keepO_next
  repeat' first
    | with_reducible
      first
      | assumption | apply keep_slackRx
    | with_reducible intro _ | dsimp only | split

theorem keep_execSlackAcceptRx {p : PortId} {token : BitVec 16} {s : State} (h : Keep H s) : KeepO H (execSlackAcceptRx p
    token s) := by
  unfold execSlackAcceptRx; try dsimp only
  apply keepO_next
  repeat' first
    | with_reducible
      first
      | assumption | apply keep_slackRx
    | with_reducible intro _ | dsimp only | split

theorem keep_execSlackRefuseRx {p : PortId} {token : BitVec 16} {s : State} (h : Keep H s) : KeepO H (execSlackRefuseRx p
    token s) := by
  unfold execSlackRefuseRx; try dsimp only
  apply keepO_next
  repeat' first
    | with_reducible
      first
      | assumption | apply keep_slackRx
    | with_reducible intro _ | dsimp only | split

theorem keep_execSlackRequestResend {p : PortId} {s : State} (h : Keep H s) : KeepO H (execSlackRequestResend p s) := by
  unfold execSlackRequestResend; try dsimp only
  apply keepO_next
  repeat' first
    | with_reducible
      first
      | assumption | apply keep_slackTx | apply keep_updPw | apply keep_State_bump | apply keep_slackRefused
      | ((conv => arg 2; arg 20); apply keep_upd) | exact rfl | exact .inl rfl
    | (with_reducible apply Or.inr); exact Nat.le_of_ble_eq_true rfl | with_reducible intro _ | dsimp only | split

theorem keep_execSlackAcceptSilence {p : PortId} {s : State} (h : Keep H s) : KeepO H (execSlackAcceptSilence p s) := by
  unfold execSlackAcceptSilence; try dsimp only
  apply keepO_next
  repeat' first
    | with_reducible
      first
      | assumption | apply keep_enterSlack
    | dsimp only | split

theorem keep_execLineWake {p : PortId} {mv : Nat} {s : State} (h : Keep H s) : KeepO H (execLineWake p mv s) := by
  unfold execLineWake; try dsimp only
  apply keepO_next
  repeat' first
    | with_reducible
      first
      | assumption | apply keep_wakePort | apply keep_unparkBegin | ((conv => arg 2; arg 20); apply keep_upd)
      | exact rfl | exact .inl rfl
    | (with_reducible apply Or.inr); exact Nat.le_of_ble_eq_true rfl | with_reducible intro _ | dsimp only | split

theorem keep_execLineWakeQuiet {p : PortId} {mv : Nat} {s : State} (h : Keep H s) : KeepO H (execLineWakeQuiet p mv s) :=
    by
  unfold execLineWakeQuiet; try dsimp only
  apply keepO_next
  repeat' first
    | with_reducible
      first
      | assumption | apply keep_startNow
    | with_reducible intro _ | dsimp only | split

theorem keep_execWakeBurstEnd {p : PortId} {s : State} (h : Keep H s) : KeepO H (execWakeBurstEnd p s) := by
  unfold execWakeBurstEnd; try dsimp only
  apply keepO_next
  repeat' first
    | with_reducible
      first
      | assumption | apply keep_startNow
    | dsimp only | split

theorem keep_execWakeNAssert {ns : Nat} {s : State} (h : Keep H s) : KeepO H (execWakeNAssert ns s) := by
  unfold execWakeNAssert; try dsimp only
  apply keepO_next
  repeat' first
    | with_reducible
      first
      | assumption | apply keep_State_draw | apply keep_wakePort | apply keep_unparkBegin | apply keep_eachN
    | with_reducible intro _ | dsimp only | split

theorem keep_execWakeNPulseEnd {s : State} (h : Keep H s) : KeepO H (execWakeNPulseEnd s) := by
  unfold execWakeNPulseEnd; try dsimp only
  apply keepO_next
  repeat' first
    | with_reducible
      first
      | assumption | ((conv => arg 2; arg 20); apply keep_upd) | exact rfl | exact .inl rfl
    | (with_reducible apply Or.inr); exact Nat.le_of_ble_eq_true rfl | dsimp only | split

theorem keep_devicePowerSetRun {s : State} {r : Req} (h : Keep H s) : Keep H (devicePowerSetRun s r) := by
  unfold devicePowerSetRun; try dsimp only
  repeat' first
    | with_reducible
      first
      | assumption | apply keep_updPower | apply keep_powerJobEnd | apply keep_unparkBegin | apply keep_slackRequest
      | apply keep_powerBegin | apply keep_eachN
    | with_reducible intro _ | dsimp only | split

theorem keep_devicePowerSetCmd : KeepC H (devicePowerSetCmd) := by
  intro s r h
  dsimp only [devicePowerSetCmd, doAccepted]
  repeat' first
    | with_reducible
      first
      | assumption | apply keep_devicePowerSetRun
    | dsimp only | split

theorem keep_execParkedHandshakeEnd {s : State} (h : Keep H s) : KeepO H (execParkedHandshakeEnd s) := by
  unfold execParkedHandshakeEnd; try dsimp only
  apply keepO_next
  repeat' first
    | with_reducible
      first
      | assumption | apply keep_powerJobEnd | apply keep_updPower | apply keep_State_updSlice | apply keep_eachN
    | with_reducible intro _ | dsimp only | split

theorem keep_execDevicePowerTimeout {s : State} (h : Keep H s) : KeepO H (execDevicePowerTimeout s) := by
  unfold execDevicePowerTimeout; try dsimp only
  apply keepO_next
  repeat' first
    | with_reducible
      first
      | assumption | apply keep_powerJobEnd
    | dsimp only | split

theorem keep_devicePowerStatusCmd : KeepC H devicePowerStatusCmd := fun _ _ h => h

theorem keep_wakeConfigCmd (hc : H.freeC) : KeepC H (wakeConfigCmd) := by
  intro s r h
  dsimp only [wakeConfigCmd, confCmd, doOk]
  repeat' first
    | with_reducible
      first
      | assumption | ((conv => arg 2; arg 20); apply keep_upd) | ((conv => arg 2; arg 20); apply keep_updc) | exact rfl
      | exact .inl rfl
    | (with_reducible apply Or.inr); exact Nat.le_of_ble_eq_true rfl | dsimp only | split

theorem keep_applyPower {s : State} {p : Nat} {c : PowerCfg} (hc : H.freeC) (h : Keep H s) : Keep H (applyPower s p c) := by
  unfold applyPower; try dsimp only
  repeat' first
    | with_reducible
      first
      | assumption | apply keep_State_updPcfg | apply keep_macWake
    | with_reducible intro _ | dsimp only | split

theorem keep_portPowerConfigCmd (hc : H.freeC) : KeepC H (portPowerConfigCmd) := by
  intro s r h
  dsimp only [portPowerConfigCmd, confCmd, doOk]
  repeat' first
    | with_reducible
      first
      | assumption | apply keep_applyPower
    | dsimp only | split

theorem keep_portSlackRun1 {s : State} {r : Req} (h : Keep H s) : Keep H (portSlackRun s r).1 := by
  unfold portSlackRun; try dsimp only
  repeat' first
    | with_reducible
      first
      | assumption | apply keep_closeWaiter | apply keep_updPower | apply keep_slackRequest | apply keep_wakePort
      | apply keep_eachN
    | with_reducible intro _ | dsimp only | split

theorem keep_portSlackRun {s : State} {r : Req} {out : State} {snd : _} (h : Keep H s)
    (e : portSlackRun s r = (out, snd)) : Keep H out := by
  have k := keep_portSlackRun1 (H := H)  (h := h) (r := r)
  rw [e] at k; exact k

theorem keep_portSlackCmd : KeepC H (portSlackCmd) := by
  intro s r h
  dsimp only [portSlackCmd]
  repeat' first
    | with_reducible
      first
      | assumption | apply keep_portSlackRun1
    | refine keep_portSlackRun (e := by assumption) ?_ | dsimp only | split

theorem keep_portPowerStatusCmd : KeepC H portPowerStatusCmd := fun _ _ h => h

theorem keep_powerCountersReadCmd : KeepC H powerCountersReadCmd := fun _ _ h => h

theorem keep_clearPowerCounters {s : State} {p : Nat} (h : Keep H s) : Keep H (clearPowerCounters s p) := by
  unfold clearPowerCounters; try dsimp only
  repeat' first
    | with_reducible
      first
      | assumption | apply keep_State_bumpBy | apply keep_State_clearCnt | apply keep_eachN
    | with_reducible intro _ | dsimp only | split

theorem keep_powerCountersClearCmd : KeepC H (powerCountersClearCmd) := by
  intro s r h
  dsimp only [powerCountersClearCmd, clearCmd, doOk]
  repeat' first
    | with_reducible
      first
      | assumption | apply keep_clearPowerCounters | apply keep_eachN
    | with_reducible intro _ | dsimp only | split

end Sys2Proof.Machine
end

