-- ==== Sys2Proof/Laws/KeepPorts.lean ====
section
/-! SUPPORT. What the operations of Machine/Ports.lean keep of `Laws.Keep`: one lemma for each. -/

set_option linter.unusedVariables false
set_option linter.unreachableTactic false
set_option linter.unusedTactic false

namespace Sys2Proof.Machine

variable {H : Hold}

theorem keep_planCove {cfg : Cfg} {s : State} {c : Nat} (h : Keep H s) : Keep H (planCove cfg s c) := by
  unfold planCove; try dsimp only
  repeat' first
    | with_reducible
      first
      | assumption | apply keep_raise | ((conv => arg 2; arg 20); apply keep_upd) | exact rfl | exact .inl rfl
    | (with_reducible apply Or.inr); exact Nat.le_of_ble_eq_true rfl | dsimp only | split

theorem keep_endDownshift {s : State} {p : Nat} (h : Keep H s) : Keep H (endDownshift s p) := by
  unfold endDownshift; try dsimp only
  repeat' first
    | with_reducible
      first
      | assumption | apply keep_State_updPort
    | with_reducible intro _ | dsimp only | split

theorem keep_applyMode {s : State} {p : Nat} {m : ModeCfg} (hc : H.freeC) (h : Keep H s) : Keep H (applyMode s p m) := by
  unfold applyMode; try dsimp only
  repeat' first
    | with_reducible
      first
      | assumption | apply keep_State_updPcfg | apply keep_leaveQuiet | apply keep_endDownshift | apply keep_restartLink
      | apply keep_State_bump | apply keep_abandon
    | with_reducible intro _ | dsimp only | split

theorem keep_modeNow {s : State} {p : Nat} {r : Req} (hc : H.freeC) (h : Keep H s) : Keep H (modeNow s p r) := by
  unfold modeNow; try dsimp only
  repeat' first
    | with_reducible
      first
      | assumption | apply keep_State_updPcfg | apply keep_applyMode | apply keep_planCove
    | with_reducible intro _ | dsimp only | split

theorem keep_portModeSetCmd (hc : H.freeC) : KeepC H (portModeSetCmd) := by
  intro s r h
  dsimp only [portModeSetCmd]
  repeat' first
    | with_reducible
      first
      | assumption | apply keep_applyMode | apply keep_closeWaiter | apply keep_modeNow
      | ((conv => arg 2; arg 20); apply keep_upd) | exact rfl | exact .inl rfl
    | (with_reducible apply Or.inr); exact Nat.le_of_ble_eq_true rfl | dsimp only | split

theorem keep_portModeGetCmd : KeepC H portModeGetCmd := fun _ _ h => h

theorem keep_setAdmin {s : State} {p : Nat} {on : Bool} (hc : H.freeC) (h : Keep H s) : Keep H (setAdmin s p on) := by
  unfold setAdmin; try dsimp only
  repeat' first
    | with_reducible
      first
      | assumption | apply keep_State_updPcfg | apply keep_quietPort | apply keep_leaveQuiet
    | with_reducible intro _ | dsimp only | split

theorem keep_portAdminCmd (hc : H.freeC) : KeepC H (portAdminCmd) := by
  intro s r h
  dsimp only [portAdminCmd, doOk]
  repeat' first
    | with_reducible
      first
      | assumption | apply keep_setAdmin | apply keep_eachN
    | with_reducible intro _ | dsimp only | split

theorem keep_portStatusReadCmd : KeepC H portStatusReadCmd := fun _ _ h => h

theorem keep_portCountersReadCmd : KeepC H portCountersReadCmd := fun _ _ h => h

theorem keep_clearPortCounters {s : State} {p : Nat} (h : Keep H s) : Keep H (clearPortCounters s p) := by
  unfold clearPortCounters; try dsimp only
  repeat' first
    | with_reducible
      first
      | assumption | apply keep_State_bumpBy | apply keep_State_clearCnt
    | dsimp only | split

theorem keep_portCountersClearCmd : KeepC H (portCountersClearCmd) := by
  intro s r h
  dsimp only [portCountersClearCmd, clearCmd, doOk]
  repeat' first
    | with_reducible
      first
      | assumption | apply keep_clearPortCounters | apply keep_eachN
    | with_reducible intro _ | dsimp only | split

theorem keep_coveStatusCmd : KeepC H coveStatusCmd := fun _ _ h => h

theorem keep_execPortStartupBegin {p : PortId} {s : State} (h : Keep H s) : KeepO H (execPortStartupBegin p s) := by
  unfold execPortStartupBegin; try dsimp only
  apply keepO_next
  repeat' first
    | with_reducible
      first
      | assumption | apply keep_startNow
    | dsimp only | split

theorem keep_execBreakIntervalExpiry {p : PortId} {s : State} (h : Keep H s) : KeepO H (execBreakIntervalExpiry p s) := by
  unfold execBreakIntervalExpiry; try dsimp only
  apply keepO_next
  repeat' first
    | with_reducible
      first
      | assumption | apply keep_startNow | apply keep_State_updPort
    | with_reducible intro _ | dsimp only | split

theorem keep_execStartupRetry {p : PortId} {s : State} (h : Keep H s) : KeepO H (execStartupRetry p s) := by
  unfold execStartupRetry; try dsimp only
  apply keepO_next
  repeat' first
    | with_reducible
      first
      | assumption | apply keep_startNow | apply keep_State_updPort
    | with_reducible intro _ | dsimp only | split

theorem keep_loseLink {s : State} {p : Nat} {reason : Nat} (h : Keep H s) : Keep H (loseLink s p reason) := by
  unfold loseLink; try dsimp only
  repeat' first
    | with_reducible
      first
      | assumption | apply keep_linkDown | apply keep_State_bump
    | dsimp only | split

theorem keep_execLossOfSignal {p : PortId} {s : State} (h : Keep H s) : KeepO H (execLossOfSignal p s) := by
  unfold execLossOfSignal; try dsimp only
  apply keepO_next
  repeat' first
    | with_reducible
      first
      | assumption | apply keep_loseLink
    | dsimp only | split

theorem keep_execPcsLockLost {p : PortId} {s : State} (h : Keep H s) : KeepO H (execPcsLockLost p s) := by
  unfold execPcsLockLost; try dsimp only
  apply keepO_next
  repeat' first
    | with_reducible
      first
      | assumption | apply keep_loseLink
    | dsimp only | split

end Sys2Proof.Machine
end

