-- ==== Sys2Proof/Laws/KeepVs50.lean ====
section
/-! SUPPORT. What the operations of Machine/Vs50.lean keep of `Laws.Keep`: one lemma for each. -/

set_option linter.unusedVariables false
set_option linter.unreachableTactic false
set_option linter.unusedTactic false

namespace Sys2Proof.Machine

variable {H : Hold}

theorem keep_updVs {s : State} {p : Nat} {f : Vs50 → Vs50} (h : Keep H s) : Keep H (updVs s p f) := by
  unfold updVs; try dsimp only
  repeat' first
    | with_reducible
      first
      | assumption | apply keep_State_updPort
    | with_reducible intro _ | dsimp only | split

theorem keep_setTxLpi {s : State} {p : Nat} {n : Nat} (h : Keep H s) : Keep H (setTxLpi s p n) := by
  unfold setTxLpi; try dsimp only
  repeat' first
    | with_reducible
      first
      | assumption | apply keep_setLpi | apply keep_updVs
    | with_reducible intro _ | dsimp only | split

theorem keep_execLpiSleepEntry {p : PortId} {s : State} (h : Keep H s) : KeepO H (execLpiSleepEntry p s) := by
  unfold execLpiSleepEntry; try dsimp only
  apply keepO_next
  repeat' first
    | with_reducible
      first
      | assumption | apply keep_setTxLpi | apply keep_State_bump
    | dsimp only | split

theorem keep_execLpiSleepEnd {p : PortId} {s : State} (h : Keep H s) : KeepO H (execLpiSleepEnd p s) := by
  unfold execLpiSleepEnd; try dsimp only
  apply keepO_next
  repeat' first
    | with_reducible
      first
      | assumption | apply keep_setTxLpi
    | dsimp only | split

theorem keep_execLpiQuietEnd {p : PortId} {s : State} (h : Keep H s) : KeepO H (execLpiQuietEnd p s) := by
  unfold execLpiQuietEnd; try dsimp only
  apply keepO_next
  repeat' first
    | with_reducible
      first
      | assumption | apply keep_setTxLpi
    | dsimp only | split

theorem keep_execLpiRefreshEnd {p : PortId} {s : State} (h : Keep H s) : KeepO H (execLpiRefreshEnd p s) := by
  unfold execLpiRefreshEnd; try dsimp only
  apply keepO_next
  repeat' first
    | with_reducible
      first
      | assumption | apply keep_setTxLpi
    | dsimp only | split

theorem keep_wakeTx {s : State} {p : Nat} (h : Keep H s) : Keep H (wakeTx s p) := by
  unfold wakeTx; try dsimp only
  repeat' first
    | with_reducible
      first
      | assumption | apply keep_setTxLpi | apply keep_State_bump
    | dsimp only | split

theorem keep_execLpiWakeStart {p : PortId} {s : State} (h : Keep H s) : KeepO H (execLpiWakeStart p s) := by
  unfold execLpiWakeStart; try dsimp only
  apply keepO_next
  repeat' first
    | with_reducible
      first
      | assumption | apply keep_wakeTx
    | dsimp only | split

theorem keep_execLpiWakeEnd {p : PortId} {s : State} (h : Keep H s) : KeepO H (execLpiWakeEnd p s) := by
  unfold execLpiWakeEnd; try dsimp only
  apply keepO_next
  repeat' first
    | with_reducible
      first
      | assumption | apply keep_slackGo | apply keep_setTxLpi
    | with_reducible intro _ | dsimp only | split

theorem keep_execRefreshMissed {p : PortId} {s : State} (h : Keep H s) : KeepO H (execRefreshMissed p s) := by
  unfold execRefreshMissed; try dsimp only
  apply keepO_next
  repeat' first
    | with_reducible
      first
      | assumption | apply keep_State_bump | apply keep_updVs | apply keep_loseLink
    | with_reducible intro _ | dsimp only | split

theorem keep_execPartnerRfTimeout {p : PortId} {s : State} (h : Keep H s) : KeepO H (execPartnerRfTimeout p s) := by
  unfold execPartnerRfTimeout; try dsimp only
  apply keepO_next
  repeat' first
    | with_reducible
      first
      | assumption | apply keep_loseLink
    | dsimp only | split

theorem keep_execOamStatusSend {p : PortId} {s : State} (h : Keep H s) : KeepO H (execOamStatusSend p s) := by
  unfold execOamStatusSend; try dsimp only
  apply keepO_next
  repeat' first
    | with_reducible
      first
      | assumption | apply keep_updVs
    | with_reducible intro _ | dsimp only | split

theorem keep_nextOam {s : State} {p : Nat} (h : Keep H s) : Keep H (nextOam s p) := by
  unfold nextOam; try dsimp only
  repeat' first
    | with_reducible
      first
      | assumption | apply keep_updVs
    | with_reducible intro _ | dsimp only | split

theorem keep_oamField1 {s : State} {p : Nat} {fcnt : Nat} {carries : Bool} {starts : Bool} (h : Keep H s)
    : Keep H (oamField s p fcnt carries starts).1 := by
  unfold oamField; try dsimp only
  repeat' first
    | with_reducible
      first
      | assumption | apply keep_updVs | apply keep_nextOam
    | with_reducible intro _ | dsimp only | split

theorem keep_oamField {s : State} {p : Nat} {fcnt : Nat} {carries : Bool} {starts : Bool} {out : State} {snd : _} (h : Keep H s)
    (e : oamField s p fcnt carries starts = (out, snd)) : Keep H out := by
  have k := keep_oamField1 (H := H)  (h := h) (p := p) (fcnt := fcnt) (carries := carries) (starts := starts)
  rw [e] at k; exact k

theorem keep_oamAdjust {s : State} {p : Nat} {tap : Nat} {st : Nat} (h : Keep H s) : Keep H (oamAdjust s p tap st) := by
  unfold oamAdjust; try dsimp only
  repeat' first
    | with_reducible
      first
      | assumption | apply keep_updVs
    | with_reducible intro _ | dsimp only | split

theorem keep_oamReply {s : State} {p : Nat} {res : Nat} {tap : Nat} {n : Nat} (h : Keep H s)
    : Keep H (oamReply s p res tap n) := by
  unfold oamReply; try dsimp only
  repeat' first
    | with_reducible
      first
      | assumption | apply keep_updVs | apply keep_State_updPort
    | with_reducible intro _ | dsimp only | split

theorem keep_oamUser {s : State} {p : Nat} {type : Nat} {payload : List Byte} (h : Keep H s)
    : Keep H (oamUser s p type payload) := by
  unfold oamUser; try dsimp only
  repeat' first
    | with_reducible
      first
      | assumption | apply keep_State_bump | apply keep_updVs | apply keep_raise
    | with_reducible intro _ | dsimp only | split

theorem keep_oamAccept {s : State} {p : Nat} {type : Nat} {payload : List Byte} (h : Keep H s)
    : Keep H (oamAccept s p type payload) := by
  unfold oamAccept; try dsimp only
  repeat' first
    | with_reducible
      first
      | assumption | apply keep_State_bump | apply keep_updVs | apply keep_oamAdjust | apply keep_oamReply | apply keep_oamUser
    | with_reducible intro _ | dsimp only | split

theorem keep_oamAcked {s : State} {p : Nat} (h : Keep H s) : Keep H (oamAcked s p) := by
  unfold oamAcked; try dsimp only
  repeat' first
    | with_reducible
      first
      | assumption | apply keep_updVs | apply keep_raise
    | with_reducible intro _ | dsimp only | split

theorem keep_execOamWordRx {p : PortId} {s : State} (h : Keep H s) : KeepO H (execOamWordRx p s) := by
  unfold execOamWordRx; try dsimp only
  apply keepO_next
  repeat' first
    | with_reducible
      first
      | assumption | apply keep_updVs | apply keep_State_bump | apply keep_oamAcked | apply keep_oamAccept
    | with_reducible intro _ | dsimp only | split

theorem keep_applyVs50 {s : State} {p : Nat} {c : Vs50Cfg} (hc : H.freeC) (h : Keep H s) : Keep H (applyVs50 s p c) := by
  unfold applyVs50; try dsimp only
  repeat' first
    | with_reducible
      first
      | assumption | apply keep_State_updPcfg | apply keep_wakeTx | apply keep_State_updPort
    | with_reducible intro _ | dsimp only | split

theorem keep_vs50ConfigCmd (hc : H.freeC) : KeepC H (vs50ConfigCmd) := by
  intro s r h
  dsimp only [vs50ConfigCmd, confCmd, doOk]
  repeat' first
    | with_reducible
      first
      | assumption | apply keep_applyVs50
    | dsimp only | split

theorem keep_vs50StatusCmd : KeepC H vs50StatusCmd := fun _ _ h => h

theorem keep_vs50CountersReadCmd : KeepC H vs50CountersReadCmd := fun _ _ h => h

theorem keep_vs50CountersClearCmd : KeepC H vs50CountersClearCmd := fun _ _ h => keep_eachN h fun _ _ h => keep_State_clearCnt h

theorem keep_vs50OamSendCmd : KeepC H (vs50OamSendCmd) := by
  intro s r h
  dsimp only [vs50OamSendCmd, doOk]
  repeat' first
    | with_reducible
      first
      | assumption | apply keep_updVs
    | with_reducible intro _ | dsimp only | split

theorem keep_vs50OamReadCmd : KeepC H (vs50OamReadCmd) := by
  intro s r h
  dsimp only [vs50OamReadCmd]
  repeat' first
    | with_reducible
      first
      | assumption | apply keep_updVs
    | with_reducible intro _ | dsimp only | split

end Sys2Proof.Machine
end

