-- ==== Sys2Proof/Laws/KeepTraining.lean ====
section
/-! SUPPORT. What the operations of Machine/Training.lean keep of `Laws.Keep`: one lemma for each. -/

set_option linter.unusedVariables false
set_option linter.unreachableTactic false
set_option linter.unusedTactic false

namespace Sys2Proof.Machine

variable {H : Hold}

theorem keep_updStart {s : State} {p : Nat} {f : Start → Start} (h : Keep H s) : Keep H (updStart s p f) := by
  unfold updStart; try dsimp only
  repeat' first
    | with_reducible
      first
      | assumption | apply keep_State_updPort
    | with_reducible intro _ | dsimp only | split

theorem keep_updTaps {s : State} {p : Nat} {f : Taps → Taps} (h : Keep H s) : Keep H (updTaps s p f) := by
  unfold updTaps; try dsimp only
  repeat' first
    | with_reducible
      first
      | assumption | apply keep_State_updPort
    | with_reducible intro _ | dsimp only | split

theorem keep_seedNexts {s : State} {p : Nat} {group : Nat} {cs : List Coupling} (h : Keep H s)
    : Keep H (seedNexts s p group cs) := by
  unfold seedNexts; try dsimp only
  repeat' first
    | with_reducible
      first
      | assumption | apply keep_raise | apply keep_updNext | apply keep_foldl | apply keep_foldl1
    | with_reducible intro _ | dsimp only | split

theorem keep_restoreRecord {s : State} {p : Nat} (h : Keep H s) : Keep H (restoreRecord s p) := by
  unfold restoreRecord; try dsimp only
  repeat' first
    | with_reducible
      first
      | assumption | apply keep_State_updPort
    | with_reducible intro _ | dsimp only | split

theorem keep_relinkFallback {s : State} {p : Nat} (h : Keep H s) : Keep H (relinkFallback s p) := by
  unfold relinkFallback; try dsimp only
  repeat' first
    | with_reducible
      first
      | assumption | apply keep_raise | apply keep_State_bump
    | dsimp only | split

theorem keep_enterPhase {s : State} {p : Nat} {n : Nat} (h : Keep H s) : Keep H (enterPhase s p n) := by
  unfold enterPhase; try dsimp only
  repeat' first
    | with_reducible
      first
      | assumption | apply keep_relinkFallback | apply keep_updStart | apply keep_updVs | apply keep_restoreRecord
      | apply keep_State_bump | apply keep_State_draw
    | with_reducible intro _ | dsimp only | split

theorem keep_slaveRelink {s : State} {p : Nat} {b : CtlBlock} (h : Keep H s) : Keep H (slaveRelink s p b) := by
  unfold slaveRelink; try dsimp only
  repeat' first
    | with_reducible
      first
      | assumption | apply keep_updStart
    | with_reducible intro _ | dsimp only | split

theorem keep_execHalfDuplexPhaseEnd {p : PortId} {echo : List ScoutSeg} {next : List Coupling} {s : State} (h : Keep H s)
    : KeepO H (execHalfDuplexPhaseEnd p echo next s) := by
  unfold execHalfDuplexPhaseEnd; try dsimp only
  apply keepO_next
  repeat' first
    | with_reducible
      first
      | assumption | apply keep_updTaps | apply keep_seedNexts | apply keep_enterPhase | apply keep_slaveRelink
      | apply keep_updStart
    | with_reducible intro _ | dsimp only | split

theorem keep_execTrainingPhaseChange {p : PortId} {s : State} (h : Keep H s) : KeepO H (execTrainingPhaseChange p s) := by
  unfold execTrainingPhaseChange; try dsimp only
  apply keepO_next
  repeat' first
    | with_reducible
      first
      | assumption | apply keep_enterPhase
    | dsimp only | split

theorem keep_failNow {s : State} {p : Nat} {reason : Nat} (h : Keep H s) : Keep H (failNow s p reason) := by
  unfold failNow; try dsimp only
  repeat' first
    | with_reducible
      first
      | assumption | apply keep_startFail | apply keep_foldl | apply keep_foldl1
    | with_reducible intro _ | dsimp only | split

theorem keep_failOn {s : State} {p : Nat} {reason : Option Nat} (h : Keep H s) : Keep H (failOn s p reason) := by
  unfold failOn; try dsimp only
  repeat' first
    | with_reducible
      first
      | assumption | apply keep_failNow
    | with_reducible intro _ | dsimp only | split

theorem keep_execTrainingPhaseTimeout {p : PortId} {s : State} (h : Keep H s) : KeepO H (execTrainingPhaseTimeout p s) :=
    by
  unfold execTrainingPhaseTimeout; try dsimp only
  apply keepO_next
  repeat' first
    | with_reducible
      first
      | assumption | apply keep_failOn
    | with_reducible intro _ | dsimp only | split

theorem keep_execNoAnswerTimeout {p : PortId} {s : State} (h : Keep H s) : KeepO H (execNoAnswerTimeout p s) := by
  unfold execNoAnswerTimeout; try dsimp only
  apply keepO_next
  repeat' first
    | with_reducible
      first
      | assumption | apply keep_failOn
    | with_reducible intro _ | dsimp only | split

theorem keep_execPartnerLostTimeout {p : PortId} {s : State} (h : Keep H s) : KeepO H (execPartnerLostTimeout p s) := by
  unfold execPartnerLostTimeout; try dsimp only
  apply keepO_next
  repeat' first
    | with_reducible
      first
      | assumption | apply keep_failOn
    | with_reducible intro _ | dsimp only | split

theorem keep_execCoeffRequestTimeout {p : PortId} {s : State} (h : Keep H s) : KeepO H (execCoeffRequestTimeout p s) := by
  unfold execCoeffRequestTimeout; try dsimp only
  apply keepO_next
  repeat' first
    | with_reducible
      first
      | assumption | apply keep_failOn
    | with_reducible intro _ | dsimp only | split

theorem keep_execRelinkTimeout {p : PortId} {s : State} (h : Keep H s) : KeepO H (execRelinkTimeout p s) := by
  unfold execRelinkTimeout; try dsimp only
  apply keepO_next
  repeat' first
    | with_reducible
      first
      | assumption | apply keep_enterPhase
    | dsimp only | split

theorem keep_learn1 {s : State} {q : Nat} {x : Negotiated} (h : Keep H s) : Keep H (learn s q x).1 := by
  unfold learn; try dsimp only
  repeat' first
    | with_reducible
      first
      | assumption | apply keep_updStart | ((conv => arg 2; arg 20); apply keep_upd) | exact rfl | exact .inl rfl
    | (with_reducible apply Or.inr); exact Nat.le_of_ble_eq_true rfl | with_reducible intro _ | dsimp only | split

theorem keep_learn {s : State} {q : Nat} {x : Negotiated} {out : State} {snd : _} (h : Keep H s)
    (e : learn s q x = (out, snd)) : Keep H out := by
  have k := keep_learn1 (H := H) (h := h) (q := q) (x := x)
  rw [e] at k; exact k

theorem keep_resolved {s : State} {q : Nat} {mode : Nat} {role : Nat} (h : Keep H s) : Keep H (resolved s q mode role) :=
    by
  unfold resolved; try dsimp only
  repeat' first
    | with_reducible
      first
      | assumption | apply keep_State_updPort | apply keep_trainingSends | apply keep_setSt
      | ((conv => arg 2; arg 20); apply keep_upd) | exact rfl | exact .inl rfl
    | (with_reducible apply Or.inr); exact Nat.le_of_ble_eq_true rfl | with_reducible intro _ | dsimp only | split

theorem keep_execNegotiationComplete {p : PortId} {x : Negotiated} {s : State} (h : Keep H s) : KeepO H
    (execNegotiationComplete p x s) := by
  unfold execNegotiationComplete; try dsimp only
  apply keepO_next
  repeat' first
    | with_reducible
      first
      | assumption | apply keep_learn1 | apply keep_startFail | apply keep_resolved
    | refine keep_learn (e := by assumption) ?_ | with_reducible intro _ | dsimp only | split

theorem keep_execLinkUp {p : PortId} {eee : Bool} {s : State} (h : Keep H s) : KeepO H (execLinkUp p eee s) := by
  unfold execLinkUp; try dsimp only
  apply keepO_next
  repeat' first
    | with_reducible
      first
      | assumption | apply keep_updPw | apply keep_goUp
    | with_reducible intro _ | dsimp only | split

theorem keep_execCoeffRequestSend {p : PortId} {loss : Nat} {s : State} (h : Keep H s)
    : KeepO H (execCoeffRequestSend p loss s) := by
  unfold execCoeffRequestSend; try dsimp only
  apply keepO_next
  repeat' first
    | with_reducible
      first
      | assumption | apply keep_State_bump | apply keep_updStart
    | with_reducible intro _ | dsimp only | split

theorem keep_answerRequest {s : State} {p : Nat} {b : CtlBlock} (h : Keep H s) : Keep H (answerRequest s p b) := by
  unfold answerRequest
  extract_lets x v tap act n now later cur top c
  have h1 : ∀ res, Keep H (now res) := fun _ => keep_updStart h
  have h2 : ∀ pre post, Keep H (later pre post) := fun _ _ => keep_updStart (keep_updVs h)
  clear_value now later
  split
  · exact h
  · repeat' split
    all_goals first | exact h1 _ | exact h2 _ _

theorem keep_takeAnswer {s : State} {p : Nat} {b : CtlBlock} (h : Keep H s) : Keep H (takeAnswer s p b) := by
  unfold takeAnswer; try dsimp only
  repeat' first
    | with_reducible
      first
      | assumption | apply keep_updStart | apply keep_State_updPort
    | with_reducible intro _ | dsimp only | split

theorem keep_takeBlock {s : State} {p : Nat} {b : CtlBlock} (h : Keep H s) : Keep H (takeBlock s p b) := by
  unfold takeBlock; try dsimp only
  repeat' first
    | with_reducible
      first
      | assumption | apply keep_updStart | apply keep_failNow | apply keep_answerRequest | apply keep_takeAnswer
      | ((conv => arg 2; arg 20); apply keep_upd) | exact rfl | exact .inl rfl
    | (with_reducible apply Or.inr); exact Nat.le_of_ble_eq_true rfl | with_reducible intro _ | dsimp only | split

theorem keep_startConfigCmd (hc : H.freeC) : KeepC H (startConfigCmd) := by
  intro s r h
  dsimp only [startConfigCmd, confCmd, doOk]
  repeat' first
    | with_reducible
      first
      | assumption | apply keep_State_updPcfg
    | with_reducible intro _ | dsimp only | split

theorem keep_startStatusCmd : KeepC H startStatusCmd := fun _ _ h => h

theorem keep_startCountersReadCmd : KeepC H startCountersReadCmd := fun _ _ h => h

theorem keep_startCountersClearCmd
    : KeepC H startCountersClearCmd := fun _ _ h => keep_eachN h fun _ _ h => keep_State_clearCnt h

theorem keep_relinkStoreReadCmd : KeepC H relinkStoreReadCmd := fun _ _ h => h

theorem keep_clearRelink {s : State} {p : Nat} (h : Keep H s) : Keep H (clearRelink s p) := by
  unfold clearRelink; try dsimp only
  repeat' first
    | with_reducible
      first
      | assumption | ((conv => arg 2; arg 20); apply keep_upd) | exact rfl | exact .inl rfl
    | (with_reducible apply Or.inr); exact Nat.le_of_ble_eq_true rfl | dsimp only | split

theorem keep_relinkStoreClearCmd : KeepC H (relinkStoreClearCmd) := by
  intro s r h
  dsimp only [relinkStoreClearCmd, clearCmd, doOk]
  repeat' first
    | with_reducible
      first
      | assumption | apply keep_clearRelink | apply keep_eachN
    | with_reducible intro _ | dsimp only | split

theorem keep_startRestartRun {s : State} {r : Req} (h : Keep H s) : Keep H (startRestartRun s r) := by
  unfold startRestartRun; try dsimp only
  repeat' first
    | with_reducible
      first
      | assumption | apply keep_updStart | apply keep_clearRelink | apply keep_restartLink | apply keep_abandon
    | with_reducible intro _ | dsimp only | split

theorem keep_startRestartCmd : KeepC H (startRestartCmd) := by
  intro s r h
  dsimp only [startRestartCmd, doOk]
  repeat' first
    | with_reducible
      first
      | assumption | apply keep_startRestartRun
    | dsimp only | split

end Sys2Proof.Machine
end

