-- ==== Sys2Proof/Laws/KeepSound.lean ====
section
/-! SUPPORT. What the operations of Machine/Sound.lean keep of `Laws.Keep`: one lemma for each. -/

set_option linter.unusedVariables false
set_option linter.unreachableTactic false
set_option linter.unusedTactic false

namespace Sys2Proof.Machine

variable {H : Hold}

theorem keep_updHealth {s : State} {p : Nat} {f : Health → Health} (h : Keep H s) : Keep H (updHealth s p f) := by
  unfold updHealth; try dsimp only
  repeat' first
    | with_reducible
      first
      | assumption | apply keep_State_updPort
    | with_reducible intro _ | dsimp only | split

theorem keep_startSound {s : State} {p : Nat} {asBase : Bool} {w : Option Waiter} (h : Keep H s)
    : Keep H (startSound s p asBase w) := by
  unfold startSound; try dsimp only
  repeat' first
    | with_reducible
      first
      | assumption | apply keep_updHealth
    | with_reducible intro _ | dsimp only | split

theorem keep_soundTrigger {s : State} {p : Nat} {bit : Nat} (h : Keep H s) : Keep H (soundTrigger s p bit) := by
  unfold soundTrigger; try dsimp only
  repeat' first
    | with_reducible
      first
      | assumption | apply keep_updHealth | apply keep_startSound
    | with_reducible intro _ | dsimp only | split

theorem keep_soundSnapshot {s : State} {p : Nat} {segs : List ScoutSeg} (h : Keep H s) : Keep H (soundSnapshot s p segs)
    := by
  unfold soundSnapshot; try dsimp only
  repeat' first
    | with_reducible
      first
      | assumption | apply keep_updHealth | ((conv => arg 2; arg 20); apply keep_upd) | exact rfl | exact .inl rfl
    | (with_reducible apply Or.inr); exact Nat.le_of_ble_eq_true rfl | with_reducible intro _ | dsimp only | split

theorem keep_soundSpoil {s : State} {p : Nat} (h : Keep H s) : Keep H (soundSpoil s p) := by
  unfold soundSpoil; try dsimp only
  repeat' first
    | with_reducible
      first
      | assumption | apply keep_updHealth
    | with_reducible intro _ | dsimp only | split

end Sys2Proof.Machine
end

