-- ==== Sys2Proof/Laws/KeepDsp.lean ====
section
/-! SUPPORT. What the operations of Machine/Dsp.lean keep of `Laws.Keep`: one lemma for each. -/

set_option linter.unusedVariables false
set_option linter.unreachableTactic false
set_option linter.unusedTactic false

namespace Sys2Proof.Machine

variable {H : Hold}

theorem keep_updDsp {s : State} {p : Nat} {f : Dsp → Dsp} (h : Keep H s) : Keep H (updDsp s p f) := by
  unfold updDsp; try dsimp only
  repeat' first
    | with_reducible
      first
      | assumption | apply keep_State_updPort
    | with_reducible intro _ | dsimp only | split

theorem keep_driftCheck1 {s : State} {p : Nat} {rx : Gauged} {tx : Gauged} {nx : List (Option Gauged)} (h : Keep H s)
    : Keep H (driftCheck s p rx tx nx).1 := by
  unfold driftCheck; try dsimp only
  repeat' first
    | with_reducible
      first
      | assumption | apply keep_updDsp | apply keep_State_bump
    | with_reducible intro _ | dsimp only | split

theorem keep_driftCheck {s : State} {p : Nat} {rx : Gauged} {tx : Gauged} {nx : List (Option Gauged)} {out : State} {snd : _}
    (h : Keep H s)
    (e : driftCheck s p rx tx nx = (out, snd)) : Keep H out := by
  have k := keep_driftCheck1 (H := H)  (h := h) (p := p) (rx := rx) (tx := tx) (nx := nx)
  rw [e] at k; exact k

theorem keep_captureAnchor {s : State} {p : Nat} {m : Int} (h : Keep H s) : Keep H (captureAnchor s p m) := by
  unfold captureAnchor; try dsimp only
  repeat' first
    | with_reducible
      first
      | assumption | apply keep_State_bump | apply keep_updDsp | ((conv => arg 2; arg 20); apply keep_upd) | exact rfl
      | exact .inl rfl
    | (with_reducible apply Or.inr); exact Nat.le_of_ble_eq_true rfl | with_reducible intro _ | dsimp only | split

theorem keep_testWindow {s : State} {p : Nat} {w : TestWin} (h : Keep H s) : Keep H (testWindow s p w) := by
  unfold testWindow; try dsimp only
  repeat' first
    | with_reducible
      first
      | assumption | apply keep_State_updPort | apply keep_State_bumpBy | ((conv => arg 2; arg 20); apply keep_upd)
      | exact rfl | exact .inl rfl
    | (with_reducible apply Or.inr); exact Nat.le_of_ble_eq_true rfl | with_reducible intro _ | dsimp only | split

theorem keep_gaugeWindow {s : State} {q : Nat} {w : GaugeWin} (h : Keep H s) : Keep H (gaugeWindow s q w) := by
  unfold gaugeWindow
  extract_lets m eee partnerLpi rx tx nx guarded live s0 s1 s2 taps partner own pre idle s3 s4 n
  have h0 : Keep H s0 := by
    simp only [s0]; split
    · exact keep_setLpi h
    · exact h
  clear_value s0
  have h1 : Keep H s1 := by
    simp only [s1]; split
    · exact keep_State_bump h0
    · exact h0
  clear_value s1
  have h2 : Keep H s2 := by
    simp only [s2]; split
    · exact keep_State_bump h1
    · exact h1
  clear_value s2
  have h4 : Keep H s4 := keep_updHealth (keep_updDsp (keep_State_draw h2))
  clear_value s4
  split
  rename_i s5 bad e5
  have h5 : Keep H s5 := by
    split at e5
    · exact keep_driftCheck h4 e5
    · cases e5; exact h4
  extract_lets s6 s7
  have h6 : Keep H s6 := keep_updDsp h5
  clear_value s6
  split
  · exact h6
  · have h7 : Keep H s7 := keep_updDsp h6
    clear_value s7
    split
    · split
      · exact keep_captureAnchor h7
      · exact h7
    · exact h7

theorem keep_execGaugeWindowEnd {s : State} {p : PortId} {w : GaugeWin} (h : Keep H s) :
    KeepO H (execGaugeWindowEnd p w s) := by
  unfold execGaugeWindowEnd
  extract_lets s1
  have h1 : Keep H s1 := by
    simp only [s1]; split
    · exact keep_testWindow h
    · exact h
  clear_value s1
  apply keepO_next
  split
  · exact h1
  · exact keep_gaugeWindow h1

theorem keep_unstableNote {s : State} {p : Nat} (h : Keep H s) : Keep H (unstableNote s p) := by
  unfold unstableNote; try dsimp only
  repeat' first
    | with_reducible
      first
      | assumption | apply keep_soundTrigger | apply keep_raise | apply keep_updDsp
    | with_reducible intro _ | dsimp only | split

theorem keep_revertNow {s : State} {p : Nat} (h : Keep H s) : Keep H (revertNow s p) := by
  unfold revertNow; try dsimp only
  repeat' first
    | with_reducible
      first
      | assumption | apply keep_updDsp | apply keep_State_bump | apply keep_raise | apply keep_unstableNote
      | apply keep_soundSpoil | apply keep_reply | apply keep_foldl | apply keep_foldl1
      | ((conv => arg 2; arg 20); apply keep_upd) | exact rfl | exact .inl rfl
    | (with_reducible apply Or.inr); exact Nat.le_of_ble_eq_true rfl | with_reducible intro _ | dsimp only | split

theorem keep_execCtleStep {p : PortId} {s : State} (h : Keep H s) : KeepO H (execCtleStep p s) := by
  unfold execCtleStep; try dsimp only
  apply keepO_next
  repeat' first
    | with_reducible
      first
      | assumption | apply keep_updDsp | apply keep_State_bump
    | with_reducible intro _ | dsimp only | split

theorem keep_placeWindow {s : State} {p : Nat} {segs : List ScoutSeg} {cancelled : List Int} (h : Keep H s)
    : Keep H (placeWindow s p segs cancelled) := by
  unfold placeWindow; try dsimp only
  repeat' first
    | with_reducible
      first
      | assumption | apply keep_updTaps | apply keep_updDsp | apply keep_foldl | apply keep_foldl1
    | with_reducible intro _ | dsimp only | split

theorem keep_planReplace {s : State} {p : Nat} {cs : List Coupling} (h : Keep H s) : Keep H (planReplace s p cs) := by
  unfold planReplace; try dsimp only
  repeat' first
    | with_reducible
      first
      | assumption | apply keep_updDsp
    | with_reducible intro _ | dsimp only | split

theorem keep_residualEcho {s : State} {p : Nat} {segs : List ScoutSeg} (h : Keep H s) : Keep H (residualEcho s p segs) := by
  unfold residualEcho; try dsimp only
  repeat' first
    | with_reducible
      first
      | assumption | apply keep_updDsp | apply keep_soundTrigger | apply keep_raise
    | with_reducible intro _ | dsimp only | split

theorem keep_execScoutCycleEnd {p : PortId} {segs : List ScoutSeg} {cancelled : List Int} {next : List Coupling} {removed
    : List Nat} {s : State} (h : Keep H s) : KeepO H (execScoutCycleEnd p segs cancelled next removed s) := by
  unfold execScoutCycleEnd; try dsimp only
  apply keepO_next
  repeat' first
    | with_reducible
      first
      | assumption | apply keep_updDsp | apply keep_planReplace | apply keep_seedNexts | apply keep_placeWindow
      | apply keep_soundSnapshot | apply keep_residualEcho
    | with_reducible intro _ | dsimp only | split

theorem keep_execEchoWindowTakeover {p : PortId} {s : State} (h : Keep H s) : KeepO H (execEchoWindowTakeover p s) := by
  unfold execEchoWindowTakeover; try dsimp only
  apply keepO_next
  repeat' first
    | with_reducible
      first
      | assumption | apply keep_updDsp | apply keep_State_bump | apply keep_raise
      | ((conv => arg 2; arg 20); apply keep_upd) | exact rfl | exact .inl rfl
    | (with_reducible apply Or.inr); exact Nat.le_of_ble_eq_true rfl | with_reducible intro _ | dsimp only | split

theorem keep_execAggressorReplace {p : PortId} {s : State} (h : Keep H s) : KeepO H (execAggressorReplace p s) := by
  unfold execAggressorReplace; try dsimp only
  apply keepO_next
  repeat' first
    | with_reducible
      first
      | assumption | apply keep_updDsp | apply keep_staleNext | apply keep_updNext | apply keep_raise | apply keep_State_bump
    | with_reducible intro _ | dsimp only | split

theorem keep_execNextSeedEnd {p : PortId} {k : Fin 3} {s : State} (h : Keep H s) : KeepO H (execNextSeedEnd p k s) := by
  unfold execNextSeedEnd; try dsimp only
  apply keepO_next
  repeat' first
    | with_reducible
      first
      | assumption | apply keep_updNext
    | with_reducible intro _ | dsimp only | split

theorem keep_execBundleGroupApply {p : PortId} {s : State} (h : Keep H s) : KeepO H (execBundleGroupApply p s) := by
  unfold execBundleGroupApply; try dsimp only
  apply keepO_next
  repeat' first
    | with_reducible
      first
      | assumption | apply keep_applyGroup
    | dsimp only | split

theorem keep_execTxAdjustRequest {p : PortId} {s : State} (h : Keep H s) : KeepO H (execTxAdjustRequest p s) := by
  unfold execTxAdjustRequest; try dsimp only
  apply keepO_next
  repeat' first
    | with_reducible
      first
      | assumption | apply keep_updVs | apply keep_State_bump
    | with_reducible intro _ | dsimp only | split

theorem keep_applyDsp {s : State} {p : Nat} {c : DspCfg} (hc : H.freeC) (h : Keep H s) : Keep H (applyDsp s p c) := by
  unfold applyDsp; try dsimp only
  repeat' first
    | with_reducible
      first
      | assumption | apply keep_updDsp | apply keep_State_updPcfg | ((conv => arg 2; arg 20); apply keep_upd)
      | ((conv => arg 2; arg 20); apply keep_updc) | exact rfl | exact .inl rfl
    | (with_reducible apply Or.inr); exact Nat.le_of_ble_eq_true rfl | with_reducible intro _ | dsimp only | split

theorem keep_dspConfigCmd (hc : H.freeC) : KeepC H dspConfigCmd := by
  intro s r h
  dsimp only [dspConfigCmd, confCmd, clearCmd, portClear, readCmd, doOk, readOk, doAccepted]
  repeat' first
    | with_reducible
      first
      | assumption | apply keep_applyDsp
    | with_reducible intro _ | dsimp only | split

theorem keep_dspStatusCmd : KeepC H dspStatusCmd := fun _ _ h => h

theorem keep_bundleGroupSetCmd (hc : H.freeC) : KeepC H (bundleGroupSetCmd) := by
  intro s r h
  dsimp only [bundleGroupSetCmd, confCmd, doOk]
  repeat' first
    | with_reducible
      first
      | assumption | apply keep_applyGroup | apply keep_eachN | ((conv => arg 2; arg 20); apply keep_upd)
      | ((conv => arg 2; arg 20); apply keep_updc) | exact rfl | exact .inl rfl
    | (with_reducible apply Or.inr); exact Nat.le_of_ble_eq_true rfl | with_reducible intro _ | dsimp only | split

theorem keep_bundleGroupGetCmd : KeepC H bundleGroupGetCmd := fun _ _ h => h

theorem keep_xtalkStatusCmd : KeepC H xtalkStatusCmd := fun _ _ h => h

theorem keep_applyPins {s : State} {p : Nat} {pins : Nat} {at_ : List Nat} (hc : H.freeC) (h : Keep H s) : Keep H
    (applyPins s p pins at_) := by
  unfold applyPins; try dsimp only
  repeat' first
    | with_reducible
      first
      | assumption | apply keep_State_updPcfg | apply keep_updDsp | apply keep_foldl | apply keep_foldl1
      | ((conv => arg 2; arg 20); apply keep_upd) | ((conv => arg 2; arg 20); apply keep_updc) | exact rfl
      | exact .inl rfl
    | (with_reducible apply Or.inr); exact Nat.le_of_ble_eq_true rfl | with_reducible intro _ | dsimp only | split

theorem keep_echoWindowSetCmd (hc : H.freeC) : KeepC H echoWindowSetCmd := by
  intro s r h
  dsimp only [echoWindowSetCmd, confCmd, clearCmd, portClear, readCmd, doOk, readOk, doAccepted]
  repeat' first
    | with_reducible
      first
      | assumption | apply keep_applyPins
    | with_reducible intro _ | dsimp only | split

theorem keep_anchorControlCmd : KeepC H (anchorControlCmd) := by
  intro s r h
  dsimp only [anchorControlCmd, doOk]
  repeat' first
    | with_reducible
      first
      | assumption | apply keep_captureAnchor | apply keep_revertNow | apply keep_updDsp
    | with_reducible intro _ | dsimp only | split

theorem keep_dspCountersReadCmd : KeepC H dspCountersReadCmd := fun _ _ h => h

theorem keep_dspCountersClearCmd : KeepC H dspCountersClearCmd := fun _ _ h => keep_eachN h fun _ _ h => keep_State_clearCnt h

theorem keep_tapReadCmd : KeepC H tapReadCmd := fun _ _ h => h

end Sys2Proof.Machine
end

