-- ==== Sys2Proof/Laws/KeepSelfTest.lean ====
section
/-! SUPPORT. What the operations of Machine/SelfTest.lean keep of `Laws.Keep`: one lemma for each. -/

set_option linter.unusedVariables false
set_option linter.unreachableTactic false
set_option linter.unusedTactic false

namespace Sys2Proof.Machine

variable {H : Hold}

theorem keep_setTest {s : State} {t : Nat} {j : Option TestJob} (h : Keep H s) : Keep H (setTest s t j) := by
  unfold setTest; try dsimp only
  repeat' first
    | with_reducible
      first
      | assumption | ((conv => arg 2; arg 20); apply keep_upd) | exact rfl | exact .inl rfl
    | (with_reducible apply Or.inr); exact Nat.le_of_ble_eq_true rfl | dsimp only | split

theorem keep_laneToTest {s : State} {m : Nat} (h : Keep H s) : Keep H (laneToTest s m) := by
  unfold laneToTest; try dsimp only
  repeat' first
    | with_reducible
      first
      | assumption | apply keep_linkRetrain | apply keep_startLaneTest | apply keep_linkRest
    | dsimp only | split

theorem keep_testBegins {s : State} {t : Nat} (h : Keep H s) : Keep H (testBegins s t) := by
  unfold testBegins; try dsimp only
  repeat' first
    | with_reducible
      first
      | assumption | apply keep_streamSlice | apply keep_freshRows | apply keep_sliceDiscard | apply keep_engineReset
      | apply keep_laneToTest | apply keep_enterTest | apply keep_eachN
    | with_reducible intro _ | dsimp only | split

theorem keep_leaveTest {s : State} {p : Nat} (h : Keep H s) : Keep H (leaveTest s p) := by
  unfold leaveTest; try dsimp only
  repeat' first
    | with_reducible
      first
      | assumption | apply keep_setSt | apply keep_farEnds | apply keep_State_updPort
      | ((conv => arg 2; arg 20); apply keep_upd) | exact rfl | exact .inl rfl
    | (with_reducible apply Or.inr); exact Nat.le_of_ble_eq_true rfl | with_reducible intro _ | dsimp only | split

theorem keep_testRestart {s : State} {t : Nat} (h : Keep H s) : Keep H (testRestart s t) := by
  unfold testRestart; try dsimp only
  repeat' first
    | with_reducible
      first
      | assumption | apply keep_State_updSlice | apply keep_leaveLaneTest | apply keep_leaveTest | apply keep_eachN
    | with_reducible intro _ | dsimp only | split

theorem keep_applyRepair {s : State} {maps : List (Nat × List (Nat × Nat) × List Nat)} {fs : List TestFail} (h : Keep H s)
    : Keep H (applyRepair s maps fs) := by
  unfold applyRepair; try dsimp only
  repeat' first
    | with_reducible
      first
      | assumption | apply keep_foldl | apply keep_foldl1 | ((conv => arg 2; arg 20); apply keep_upd) | exact rfl
      | exact .inl rfl
    | (with_reducible apply Or.inr); exact Nat.le_of_ble_eq_true rfl | with_reducible intro _ | dsimp only | split

theorem keep_retireRows {s : State} {maps : List (Nat × List (Nat × Nat) × List Nat)} (h : Keep H s)
    : Keep H (retireRows s maps) := by
  unfold retireRows; try dsimp only
  repeat' first
    | with_reducible
      first
      | assumption | apply keep_retireRow | apply keep_foldl | apply keep_foldl1
    | with_reducible intro _ | dsimp only | split

theorem keep_storeResult {s : State} {t : Nat} {x : TestResult} (h : Keep H s) : Keep H (storeResult s t x) := by
  unfold storeResult; try dsimp only
  repeat' first
    | with_reducible
      first
      | assumption | apply keep_faultEntry | apply keep_raise | ((conv => arg 2; arg 20); apply keep_upd) | exact rfl
      | exact .inl rfl
    | (with_reducible apply Or.inr); exact Nat.le_of_ble_eq_true rfl | dsimp only | split

theorem keep_memoryEnds1 {s : State} {i : Nat} {o : TestOutcome} {repair : Bool} {update : Bool} (h : Keep H s)
    : Keep H (memoryEnds s i o repair update).1 := by
  unfold memoryEnds; try dsimp only
  repeat' first
    | with_reducible
      first
      | assumption | apply keep_retireRows | apply keep_applyRepair | ((conv => arg 2; arg 20); apply keep_upd) | exact rfl
      | exact .inl rfl
    | (with_reducible apply Or.inr); exact Nat.le_of_ble_eq_true rfl | dsimp only | split

theorem keep_memoryEnds {s : State} {i : Nat} {o : TestOutcome} {repair : Bool} {update : Bool} {out : State} {snd : _} (h
    : Keep H s)
    (e : memoryEnds s i o repair update = (out, snd)) : Keep H out := by
  have k := keep_memoryEnds1 (H := H)  (h := h) (i := i) (o := o) (repair := repair) (update := update)
  rw [e] at k; exact k

theorem keep_finishTest {s : State} {t : Nat} {j : TestJob} {o : TestOutcome} (h : Keep H s) : Keep H (finishTest s t j o) := by
  unfold finishTest; try dsimp only
  repeat' first
    | with_reducible
      first
      | assumption | apply keep_memoryEnds1 | apply keep_setTest | apply keep_testRestart | apply keep_closeWaiter
      | apply keep_storeResult
    | refine keep_memoryEnds (e := by assumption) ?_ | dsimp only | split

theorem keep_execSelftestStepDone {t : BitVec 32} {o : TestOutcome} {s : State} (h : Keep H s)
    : KeepO H (execSelftestStepDone t o s) := by
  unfold execSelftestStepDone; try dsimp only
  apply keepO_next
  repeat' first
    | with_reducible
      first
      | assumption | apply keep_finishTest
    | dsimp only | split

theorem keep_execSelftestPreconditionCheck {t : BitVec 32} {pre : Precond} {s : State} (h : Keep H s)
    : KeepO H (execSelftestPreconditionCheck t pre s) := by
  unfold execSelftestPreconditionCheck; try dsimp only
  apply keepO_next
  repeat' first
    | with_reducible
      first
      | assumption | apply keep_markTest
    | dsimp only | split

theorem keep_testDrained {s : State} {t : Nat} {j : TestJob} {forced : Bool} (h : Keep H s)
    : Keep H (testDrained s t j forced) := by
  unfold testDrained; try dsimp only
  repeat' first
    | with_reducible
      first
      | assumption | apply keep_setTest | apply keep_State_bump | apply keep_testBegins
    | dsimp only | split

theorem keep_drainEnd {s : State} {t : Nat} {forced : Bool} (h : Keep H s) : Keep H (drainEnd s t forced) := by
  unfold drainEnd; try dsimp only
  repeat' first
    | with_reducible
      first
      | assumption | apply keep_resetDrained | apply keep_gatingDrained | apply keep_updClk | apply keep_updPower
      | apply keep_State_bump | apply keep_testDrained
    | with_reducible intro _ | dsimp only | split

theorem keep_execDrainComplete {t : BitVec 32} {s : State} (h : Keep H s) : KeepO H (execDrainComplete t s) := by
  unfold execDrainComplete; try dsimp only
  apply keepO_next
  repeat' first
    | with_reducible
      first
      | assumption | apply keep_drainEnd
    | dsimp only | split

theorem keep_execDrainTimeout {t : BitVec 32} {s : State} (h : Keep H s) : KeepO H (execDrainTimeout t s) := by
  unfold execDrainTimeout; try dsimp only
  apply keepO_next
  repeat' first
    | with_reducible
      first
      | assumption | apply keep_drainEnd
    | dsimp only | split

theorem keep_useNewestLog {s : State} (h : Keep H s) : Keep H (useNewestLog s) := by
  unfold useNewestLog; try dsimp only
  repeat' first
    | with_reducible
      first
      | assumption | apply keep_useLog
    | dsimp only | split

theorem keep_bistRefused {s : State} (h : Keep H s) : Keep H (bistRefused s) := by
  unfold bistRefused; try dsimp only
  repeat' first
    | with_reducible
      first
      | assumption | apply keep_tryFirmware | apply keep_useNewestLog | apply keep_storeResult | apply keep_eachN
    | with_reducible intro _ | dsimp only | split

theorem keep_bistSlice {slices : List TestOutcome} {s : State} {i : Nat} (h : Keep H s) : Keep H (bistSlice slices s i) := by
  unfold bistSlice; try dsimp only
  repeat' first
    | with_reducible
      first
      | assumption | apply keep_memoryEnds1 | apply keep_storeResult
    | refine keep_memoryEnds (e := by assumption) ?_ | dsimp only | split

theorem keep_bistEnds {s : State} {slices : List TestOutcome} {buckets : List Nat} {signals : List Nat} (h : Keep H s)
    : Keep H (bistEnds s slices buckets signals) := by
  unfold bistEnds; try dsimp only
  repeat' first
    | with_reducible
      first
      | assumption | apply keep_bistSlice | apply keep_tryFirmware | apply keep_sigEcc | apply keep_eachN
      | apply keep_foldl | apply keep_foldl1 | ((conv => arg 2; arg 20); apply keep_upd) | exact rfl | exact .inl rfl
    | (with_reducible apply Or.inr); exact Nat.le_of_ble_eq_true rfl | with_reducible intro _ | dsimp only | split

theorem keep_execMemoryBistDone {pre : Precond} {slices : List TestOutcome} {buckets : List Nat} {signals : List Nat} {s
    : State} (h : Keep H s) : KeepO H (execMemoryBistDone pre slices buckets signals s) := by
  unfold execMemoryBistDone; try dsimp only
  apply keepO_next
  repeat' first
    | with_reducible
      first
      | assumption | apply keep_bistRefused | apply keep_bistEnds | ((conv => arg 2; arg 20); apply keep_upd) | exact rfl
      | exact .inl rfl
    | (with_reducible apply Or.inr); exact Nat.le_of_ble_eq_true rfl | dsimp only | split

theorem keep_writeLog {s : State} {ok : Bool} (hm : H.freeM) (h : Keep H s) : Keep H (writeLog s ok) := by
  unfold writeLog; try dsimp only
  repeat' first
    | with_reducible
      first
      | assumption | apply keep_State_draw | apply keep_State_regionWrite | ((conv => arg 2; arg 20); apply keep_upd)
      | exact rfl | exact .inl rfl
    | (with_reducible apply Or.inr); exact Nat.le_of_ble_eq_true rfl | dsimp only | split

theorem keep_execRepairLogWriteDone {ok : Bool} {s : State} (hm : H.freeM) (h : Keep H s)
    : KeepO H (execRepairLogWriteDone ok s) := by
  unfold execRepairLogWriteDone; try dsimp only
  apply keepO_next
  repeat' first
    | with_reducible
      first
      | assumption | apply keep_writeLog | apply keep_State_bump | ((conv => arg 2; arg 20); apply keep_upd) | exact rfl
      | exact .inl rfl
    | (with_reducible apply Or.inr); exact Nat.le_of_ble_eq_true rfl | dsimp only | split

theorem keep_selftestRunCmd {pre : Precond} : KeepC H (selftestRunCmd pre) := by
  intro s r h
  dsimp only [selftestRunCmd]
  repeat' first
    | with_reducible
      first
      | assumption | apply keep_setTest | apply keep_State_updSlice | ((conv => arg 2; arg 20); apply keep_upd) | exact rfl
      | exact .inl rfl
    | (with_reducible apply Or.inr); exact Nat.le_of_ble_eq_true rfl | with_reducible intro _ | dsimp only | split

theorem keep_selftestStatusCmd : KeepC H selftestStatusCmd := fun _ _ h => h

theorem keep_selftestAbortCmd : KeepC H (selftestAbortCmd) := by
  intro s r h
  dsimp only [selftestAbortCmd, doOk]
  repeat' first
    | with_reducible
      first
      | assumption | apply keep_markTest
    | dsimp only | split

theorem keep_selftestResultReadCmd : KeepC H selftestResultReadCmd := fun _ _ h => h

theorem keep_repairStatusCmd : KeepC H repairStatusCmd := fun _ _ h => h

theorem keep_repairFuseCmd {pre : Precond} : KeepC H (repairFuseCmd pre) := by
  intro s r h
  dsimp only [repairFuseCmd]
  repeat' first
    | with_reducible
      first
      | assumption | ((conv => arg 2; arg 20); apply keep_upd) | exact rfl | exact .inl rfl
    | (with_reducible apply Or.inr); exact Nat.le_of_ble_eq_true rfl | dsimp only | split

theorem keep_fuseBanks {s : State} {w : Waiter} {t good : Nat} {bs : List Nat} (hf : H.freeF) (h : Keep H s)
    : Keep H (fuseBanks s w t good bs) := by
  induction bs generalizing s good with
  | nil => unfold fuseBanks; exact keep_closeWaiter h
  | cons b bs ih =>
    unfold fuseBanks
    extract_lets es n f1 s1 s2
    have h2 : Keep H s2 := keep_raise (keep_fuses h hf)
    clear_value s2
    split
    · exact keep_closeWaiter h2
    · exact ih h2

theorem keep_offDone {s : State} (hm : H.freeM) (h : Keep H s) : Keep H (offDone s) := by
  unfold offDone; try dsimp only
  repeat' first
    | with_reducible
      first
      | assumption | apply keep_powerJobEnd | apply keep_setMode | apply keep_ringFlush | apply keep_abandonSession
    | dsimp only | split

theorem keep_execAgentSequenceComplete {good : Nat} {s : State} (hm : H.freeM) (hf : H.freeF) (h : Keep H s)
    : KeepO H (execAgentSequenceComplete good s) := by
  unfold execAgentSequenceComplete; try dsimp only
  apply keepO_next
  repeat' first
    | with_reducible
      first
      | assumption | apply keep_fuseBanks | apply keep_offDone | ((conv => arg 2; arg 20); apply keep_upd) | exact rfl
      | exact .inl rfl
    | (with_reducible apply Or.inr); exact Nat.le_of_ble_eq_true rfl | with_reducible intro _ | dsimp only | split

theorem keep_startLoop {s : State} {p : Nat} {x : PortTest} (h : Keep H s) : Keep H (startLoop s p x) := by
  unfold startLoop; try dsimp only
  repeat' first
    | with_reducible
      first
      | assumption | apply keep_State_updPort | apply keep_enterTest
    | with_reducible intro _ | dsimp only | split

theorem keep_portLoopbackCmd : KeepC H (portLoopbackCmd) := by
  intro s r h
  dsimp only [portLoopbackCmd, doOk]
  repeat' first
    | with_reducible
      first
      | assumption | apply keep_State_updPort | apply keep_leaveTest | apply keep_startLoop
    | with_reducible intro _ | dsimp only | split

theorem keep_portTestModeCmd : KeepC H portTestModeCmd := by
  intro s r h
  dsimp only [portTestModeCmd, confCmd, clearCmd, portClear, readCmd, doOk, readOk, doAccepted]
  repeat' first
    | with_reducible
      first
      | assumption | apply keep_leaveTest | apply keep_startLoop
    | with_reducible intro _ | dsimp only | split

theorem keep_portTestCountersReadCmd : KeepC H portTestCountersReadCmd := fun _ _ h => h

theorem keep_portTestCountersClearCmd
    : KeepC H portTestCountersClearCmd := fun _ _ h => keep_eachN h fun _ _ h => keep_State_clearCnt h

end Sys2Proof.Machine
end

