-- ==== Sys2Proof/Laws/KeepHealth.lean ====
section
/-! SUPPORT. What the operations of Machine/Health.lean keep of `Laws.Keep`: one lemma for each. -/

set_option linter.unusedVariables false
set_option linter.unreachableTactic false
set_option linter.unusedTactic false

namespace Sys2Proof.Machine

variable {H : Hold}

theorem keep_marginAlarm {s : State} {p : Nat} {m : Int} (h : Keep H s) : Keep H (marginAlarm s p m) := by
  unfold marginAlarm; try dsimp only
  repeat' first
    | with_reducible
      first
      | assumption | apply keep_updHealth | apply keep_State_bump | apply keep_raise
    | with_reducible intro _ | dsimp only | split

theorem keep_execMarginIntervalEnd {p : PortId} {snr : Int} {errs : Nat} {s : State} (h : Keep H s)
    : KeepO H (execMarginIntervalEnd p snr errs s) := by
  unfold execMarginIntervalEnd; try dsimp only
  apply keepO_next
  repeat' first
    | with_reducible
      first
      | assumption | apply keep_State_bumpBy | apply keep_updHealth | apply keep_updDsp | apply keep_marginAlarm
    | with_reducible intro _ | dsimp only | split

theorem keep_countReportFec {s : State} {x : FecReport} (h : Keep H s) : Keep H (countReportFec s x) := by
  unfold countReportFec; try dsimp only
  repeat' first
    | with_reducible
      first
      | assumption | apply keep_State_bumpBy | apply keep_updHealth | apply keep_foldl | apply keep_foldl1
    | with_reducible intro _ | dsimp only | split

theorem keep_fecEnd {s : State} {p : Nat} (h : Keep H s) : Keep H (fecEnd s p) := by
  unfold fecEnd; try dsimp only
  repeat' first
    | with_reducible
      first
      | assumption | apply keep_updHealth | apply keep_raise
    | with_reducible intro _ | dsimp only | split

theorem keep_execFecWindowEnd {ports : List FecReport} {s : State} (h : Keep H s) : KeepO H (execFecWindowEnd ports s) := by
  unfold execFecWindowEnd; try dsimp only
  apply keepO_next
  repeat' first
    | with_reducible
      first
      | assumption | apply keep_countReportFec | apply keep_fecEnd | apply keep_eachN | apply keep_foldl | apply keep_foldl1
    | with_reducible intro _ | dsimp only | split

theorem keep_execHealthDrop {p : PortId} {fec : Bool} {s : State} (h : Keep H s) : KeepO H (execHealthDrop p fec s) := by
  unfold execHealthDrop; try dsimp only
  apply keepO_next
  repeat' first
    | with_reducible
      first
      | assumption | apply keep_loseLink | apply keep_State_bump | apply keep_raise | apply keep_faultEntry
    | dsimp only | split

theorem keep_soundChange {s : State} {p : Nat} {window : Nat} {base : List BaseRefl} {es : List Refl} {newly : List Diff}
    (h : Keep H s) : Keep H (soundChange s p window base es newly) := by
  unfold soundChange; try dsimp only
  repeat' first
    | with_reducible
      first
      | assumption | apply keep_raiseReady | apply keep_State_bump | apply keep_foldl | apply keep_foldl1
    | with_reducible intro _ | dsimp only | split

theorem keep_setBaseline {s : State} {p : Nat} {b : Option Baseline} (h : Keep H s) : Keep H (setBaseline s p b) := by
  unfold setBaseline; try dsimp only
  repeat' first
    | with_reducible
      first
      | assumption | apply keep_updHealth | ((conv => arg 2; arg 20); apply keep_upd) | exact rfl | exact .inl rfl
    | (with_reducible apply Or.inr); exact Nat.le_of_ble_eq_true rfl | with_reducible intro _ | dsimp only | split

theorem keep_storeRun1 {s : State} {p : Nat} {r : SoundRun} {prof : List Int} (h : Keep H s)
    : Keep H (storeRun s p r prof).1 := by
  unfold storeRun; try dsimp only
  repeat' first
    | with_reducible
      first
      | assumption | apply keep_updHealth | apply keep_soundChange
    | with_reducible intro _ | dsimp only | split

theorem keep_storeRun {s : State} {p : Nat} {r : SoundRun} {prof : List Int} {out : State} {snd : _} (h : Keep H s)
    (e : storeRun s p r prof = (out, snd)) : Keep H out := by
  have k := keep_storeRun1 (H := H)  (h := h) (p := p) (r := r) (prof := prof)
  rw [e] at k; exact k

theorem keep_execSoundingDone {p : PortId} {s : State} (h : Keep H s) : KeepO H (execSoundingDone p s) := by
  unfold execSoundingDone; try dsimp only
  apply keepO_next
  repeat' first
    | with_reducible
      first
      | assumption | apply keep_storeRun1 | apply keep_updHealth | apply keep_State_bump | apply keep_setBaseline
      | apply keep_raise | apply keep_closeWaiter | ((conv => arg 2; arg 20); apply keep_upd) | exact rfl | exact .inl rfl
    | refine keep_storeRun (e := by assumption) ?_ | (with_reducible apply Or.inr); exact Nat.le_of_ble_eq_true rfl
    | with_reducible intro _ | dsimp only | split

theorem keep_execSoundingPeriodicStart {p : PortId} {s : State} (h : Keep H s) : KeepO H (execSoundingPeriodicStart p s) := by
  unfold execSoundingPeriodicStart; try dsimp only
  apply keepO_next
  repeat' first
    | with_reducible
      first
      | assumption | apply keep_startSound
    | dsimp only | split

theorem keep_execSoundingRunTimeout {p : PortId} {s : State} (h : Keep H s) : KeepO H (execSoundingRunTimeout p s) := by
  unfold execSoundingRunTimeout; try dsimp only
  apply keepO_next
  repeat' first
    | with_reducible
      first
      | assumption | apply keep_endSound
    | dsimp only | split

theorem keep_execCableTestStimulusStart {p : PortId} {partner : Bool} {s : State} (h : Keep H s)
    : KeepO H (execCableTestStimulusStart p partner s) := by
  unfold execCableTestStimulusStart; try dsimp only
  apply keepO_next
  repeat' first
    | with_reducible
      first
      | assumption | apply keep_updHealth
    | with_reducible intro _ | dsimp only | split

theorem keep_execCableTestStimulusEnd {p : PortId} {s : State} (h : Keep H s) : KeepO H (execCableTestStimulusEnd p s) := by
  unfold execCableTestStimulusEnd; try dsimp only
  apply keepO_next
  repeat' first
    | with_reducible
      first
      | assumption | apply keep_updHealth
    | with_reducible intro _ | dsimp only | split

theorem keep_execCableTestDone {p : PortId} {rho : List Int} {s : State} (h : Keep H s) : KeepO H (execCableTestDone p
    rho s) := by
  unfold execCableTestDone; try dsimp only
  apply keepO_next
  repeat' first
    | with_reducible
      first
      | assumption | apply keep_updHealth | apply keep_State_bump | apply keep_raise | apply keep_closeWaiter
      | apply keep_leaveTest | ((conv => arg 2; arg 20); apply keep_upd) | exact rfl | exact .inl rfl
    | (with_reducible apply Or.inr); exact Nat.le_of_ble_eq_true rfl | with_reducible intro _ | dsimp only | split

theorem keep_healthConfigCmd (hc : H.freeC) : KeepC H (healthConfigCmd) := by
  intro s r h
  dsimp only [healthConfigCmd, confCmd, doOk]
  repeat' first
    | with_reducible
      first
      | assumption | apply keep_updHealth | apply keep_State_updPcfg
    | with_reducible intro _ | dsimp only | split

theorem keep_healthStatusCmd : KeepC H healthStatusCmd := fun _ _ h => h

theorem keep_healthCountersReadCmd : KeepC H healthCountersReadCmd := fun _ _ h => h

theorem keep_healthCountersClearCmd
    : KeepC H healthCountersClearCmd := fun _ _ h => keep_eachN h fun _ _ h => keep_State_clearCnt h

theorem keep_soundingConfigCmd (hc : H.freeC) : KeepC H (soundingConfigCmd) := by
  intro s r h
  dsimp only [soundingConfigCmd, confCmd, doOk]
  repeat' first
    | with_reducible
      first
      | assumption | apply keep_State_updPcfg
    | with_reducible intro _ | dsimp only | split

theorem keep_soundingRunCmd : KeepC H (soundingRunCmd) := by
  intro s r h
  dsimp only [soundingRunCmd, doAccepted]
  repeat' first
    | with_reducible
      first
      | assumption | apply keep_startSound
    | dsimp only | split

theorem keep_soundingResultReadCmd : KeepC H soundingResultReadCmd := fun _ _ h => h

theorem keep_profileRead {op : Nat} {f : Health → Option SoundResult} {enc : Int → List Byte}
    : KeepC H (profileRead op f enc) := fun _ _ h => h

theorem keep_soundingProfileReadCmd : KeepC H soundingProfileReadCmd := keep_profileRead

theorem keep_soundingBaselineSetCmd : KeepC H (soundingBaselineSetCmd) := by
  intro s r h
  dsimp only [soundingBaselineSetCmd, doOk]
  repeat' first
    | with_reducible
      first
      | assumption | apply keep_setBaseline
    | dsimp only | split

theorem keep_soundingBaselineReadCmd : KeepC H soundingBaselineReadCmd := fun _ _ h => h

theorem keep_soundingBaselineLoadCmd : KeepC H (soundingBaselineLoadCmd) := by
  intro s r h
  dsimp only [soundingBaselineLoadCmd, doOk]
  repeat' first
    | with_reducible
      first
      | assumption | apply keep_setBaseline
    | dsimp only | split

theorem keep_beginCable {s : State} {p : Nat} {c : CableTest} (h : Keep H s) : Keep H (beginCable s p c) := by
  unfold beginCable; try dsimp only
  repeat' first
    | with_reducible
      first
      | assumption | apply keep_updHealth | apply keep_setLpi | apply keep_enterTest
    | with_reducible intro _ | dsimp only | split

theorem keep_cableGo {s : State} {p : Nat} (h : Keep H s) : Keep H (cableGo s p) := by
  unfold cableGo; try dsimp only
  repeat' first
    | with_reducible
      first
      | assumption | apply keep_updHealth | apply keep_enterTest
    | with_reducible intro _ | dsimp only | split

theorem keep_cableTestRunCmd : KeepC H (cableTestRunCmd) := by
  intro s r h
  dsimp only [cableTestRunCmd, doAccepted]
  repeat' first
    | with_reducible
      first
      | assumption | apply keep_beginCable
    | dsimp only | split

theorem keep_cableTestResultCmd : KeepC H cableTestResultCmd := fun _ _ h => h

theorem keep_cableTestProfileReadCmd : KeepC H cableTestProfileReadCmd := keep_profileRead

end Sys2Proof.Machine
end

