-- ==== Sys2Proof/Laws/KeepIngress.lean ====
section
/-! SUPPORT. What the operations of Machine/Ingress.lean keep of `Laws.Keep`: one lemma for each. -/

set_option linter.unusedVariables false
set_option linter.unreachableTactic false
set_option linter.unusedTactic false

namespace Sys2Proof.Machine

variable {H : Hold}

theorem keep_streamEcc {s : State} {b : Nat} (h : Keep H s) : Keep H (streamEcc s b) := by
  unfold streamEcc; try dsimp only
  repeat' first
    | with_reducible
      first
      | assumption | apply keep_raise | apply keep_faultEntry | apply keep_rateError
    | dsimp only | split

theorem keep_lookFrame1 {s : State} {pos : Nat} {kt : Nat} {vid : Nat} {bs : List Byte} {one : Bool} {two : Bool} (h :
    Keep H s) : Keep H (lookFrame s pos kt vid bs one two).1 := by
  unfold lookFrame; try dsimp only
  repeat' first
    | with_reducible
      first
      | assumption | apply keep_takeInject1 | apply keep_addLoad | apply keep_State_bump | apply keep_updStrm
      | apply keep_streamEcc | ((conv => arg 2; arg 20); apply keep_upd) | exact rfl | exact .inl rfl
    | refine keep_takeInject (e := by assumption) ?_ | (with_reducible apply Or.inr); exact Nat.le_of_ble_eq_true rfl
    | with_reducible intro _ | dsimp only | split

theorem keep_lookFrame {s : State} {pos : Nat} {kt : Nat} {vid : Nat} {bs : List Byte} {one : Bool} {two : Bool} {out :
    State} {snd : _} (h : Keep H s)
    (e : lookFrame s pos kt vid bs one two = (out, snd)) : Keep H out := by
  have k := keep_lookFrame1 (H := H) (h := h) (pos := pos) (kt := kt) (vid := vid) (bs := bs) (one := one) (two := two)
  rw [e] at k; exact k

theorem keep_blockFilter {s : State} {k : Nat} {n : Nat} (h : Keep H s) : Keep H (blockFilter s k n) := by
  unfold blockFilter; try dsimp only
  repeat' first
    | with_reducible
      first
      | assumption | apply keep_raise | apply keep_updStrm
    | with_reducible intro _ | dsimp only | split

theorem keep_policeMeter1 {s : State} {k : Nat} {n : Nat} {cut : Bool} {p : Policed} (h : Keep H s)
    : Keep H (policeMeter s k n cut p).1 := by
  unfold policeMeter; try dsimp only
  repeat' first
    | with_reducible
      first
      | assumption | apply keep_State_bump | apply keep_setMeter
    | dsimp only | split

theorem keep_policeMeter {s : State} {k : Nat} {n : Nat} {cut : Bool} {p : Policed} {out : State} {snd : _} (h : Keep H s)
    (e : policeMeter s k n cut p = (out, snd)) : Keep H out := by
  have k := keep_policeMeter1 (H := H)  (h := h) (k := k) (n := n) (cut := cut) (p := p)
  rw [e] at k; exact k

theorem keep_police1 {s : State} {k : Nat} {n : Nat} {cut : Bool} (h : Keep H s) : Keep H (police s k n cut).1 := by
  unfold police; try dsimp only
  repeat' first
    | with_reducible
      first
      | assumption | apply keep_policeMeter1 | apply keep_State_bump | apply keep_blockFilter
    | refine keep_policeMeter (e := by assumption) ?_ | dsimp only | split

theorem keep_police {s : State} {k : Nat} {n : Nat} {cut : Bool} {out : State} {snd : _} (h : Keep H s)
    (e : police s k n cut = (out, snd)) : Keep H out := by
  have k := keep_police1 (H := H)  (h := h) (k := k) (n := n) (cut := cut)
  rw [e] at k; exact k

theorem keep_generate1 {s : State} {g : Nat} {bs : List Byte} (h : Keep H s) : Keep H (generate s g bs).1 := by
  unfold generate; try dsimp only
  repeat' first
    | with_reducible
      first
      | assumption | apply keep_updStrm
    | with_reducible intro _ | dsimp only | split

theorem keep_generate {s : State} {g : Nat} {bs : List Byte} {out : State} {snd : _} (h : Keep H s)
    (e : generate s g bs = (out, snd)) : Keep H out := by
  have k := keep_generate1 (H := H)  (h := h) (g := g) (bs := bs)
  rw [e] at k; exact k

theorem keep_hitFrame1 {s : State} {pos pcp : Nat} {bs : List Byte} {e' : StreamEntry} (h : Keep H s) :
    Keep H (hitFrame s pos pcp bs e').1 := by
  unfold hitFrame
  extract_lets d may
  split
  · exact keep_State_bump h
  · split
    rename_i s1 p e1
    have k1 : Keep H s1 := by
      split at e1
      · cases e1; exact h
      · exact keep_police h e1
    split
    · exact keep_State_bump k1
    · extract_lets b1
      split
      rename_i s2 b2 e2
      have k2 : Keep H s2 := by
        split at e2
        · exact keep_generate k1 e2
        · cases e2; exact k1
      split
      · exact keep_State_bump k2
      · exact k2

theorem keep_hitFrame {s : State} {pos pcp : Nat} {bs : List Byte} {e' : StreamEntry} {out : State} {snd : _} (h : Keep H s)
    (e : hitFrame s pos pcp bs e' = (out, snd)) : Keep H out := by
  have k := keep_hitFrame1 (pos := pos) (pcp := pcp) (bs := bs) (e' := e') h
  rw [e] at k; exact k

theorem keep_pipeline1 {s : State} {pos : Nat} {bs : List Byte} {one : Bool} {two : Bool} (h : Keep H s)
    : Keep H (pipeline s pos bs one two).1 := by
  unfold pipeline; try dsimp only
  repeat' first
    | with_reducible
      first
      | assumption | apply keep_lookFrame1 | apply keep_hitFrame1 | apply keep_State_bump
    | refine keep_lookFrame (e := by assumption) ?_ | refine keep_hitFrame (e := by assumption) ?_ | dsimp only | split

theorem keep_pipeline {s : State} {pos : Nat} {bs : List Byte} {one : Bool} {two : Bool} {out : State} {snd : _} (h : Keep H s)
    (e : pipeline s pos bs one two = (out, snd)) : Keep H out := by
  have k := keep_pipeline1 (H := H)  (h := h) (pos := pos) (bs := bs) (one := one) (two := two)
  rw [e] at k; exact k

theorem keep_copyToTide {s : State} {pos : Nat} {fl : Flow} {good : Bool} (h : Keep H s) : Keep H (copyToTide s pos fl good)
    := by
  unfold copyToTide; try dsimp only
  repeat' first
    | with_reducible
      first
      | assumption | apply keep_tideCopy | apply keep_State_bump
    | dsimp only | split

theorem keep_recoverFlow1 {s : State} {fl : Flow} (h : Keep H s) : Keep H (recoverFlow s fl).1 := by
  unfold recoverFlow; try dsimp only
  repeat' first
    | with_reducible
      first
      | assumption | apply keep_recover1
    | refine keep_recover (e := by assumption) ?_ | dsimp only | split

theorem keep_recoverFlow {s : State} {fl : Flow} {out : State} {snd : _} (h : Keep H s)
    (e : recoverFlow s fl = (out, snd)) : Keep H out := by
  have k := keep_recoverFlow1 (H := H)  (h := h) (fl := fl)
  rw [e] at k; exact k

theorem keep_metaDrop {s : State} (h : Keep H s) : Keep H (metaDrop s) := by
  unfold metaDrop; try dsimp only
  repeat' first
    | with_reducible
      first
      | assumption | apply keep_rateError | apply keep_State_bump
    | dsimp only | split

theorem keep_forward {s : State} {pos : Nat} {fl : Flow} {good : Bool} {metaBad : Bool} (h : Keep H s) : Keep H (forward
    s pos fl good metaBad) := by
  unfold forward; try dsimp only
  repeat' first
    | with_reducible
      first
      | assumption | apply keep_copyToTide | apply keep_takeInject1 | apply keep_metaDrop | apply keep_recoverFlow1
      | apply keep_cellsWritten | apply keep_admitFrame
    | refine keep_takeInject (e := by assumption) ?_ | refine keep_recoverFlow (e := by assumption) ?_
    | with_reducible intro _ | dsimp only | split

theorem keep_ingressFrame {s : State} {pos : Nat} {bs : List Byte} {good : Bool} {one : Bool} {two : Bool} {metaBad : Bool}
    (h : Keep H s) : Keep H (ingressFrame s pos bs good one two metaBad) := by
  unfold ingressFrame; try dsimp only
  repeat' first
    | with_reducible
      first
      | assumption | apply keep_pipeline1 | apply keep_forward
    | refine keep_pipeline (e := by assumption) ?_ | dsimp only | split

end Sys2Proof.Machine
end

