-- ==== Sys2Proof/Laws/KeepMultidrop.lean ====
section
/-! SUPPORT. What the operations of Machine/Multidrop.lean keep of `Laws.Keep`: one lemma for each. -/

set_option linter.unusedVariables false
set_option linter.unreachableTactic false
set_option linter.unusedTactic false

namespace Sys2Proof.Machine

variable {H : Hold}

theorem keep_updMd {s : State} {p : Nat} {f : Md → Md} (h : Keep H s) : Keep H (updMd s p f) := by
  unfold updMd; try dsimp only
  repeat' first
    | with_reducible
      first
      | assumption | apply keep_State_updPort
    | with_reducible intro _ | dsimp only | split

theorem keep_nextOpp {s : State} {p : Nat} {t : Nat} (h : Keep H s) : Keep H (nextOpp s p t) := by
  unfold nextOpp; try dsimp only
  repeat' first
    | with_reducible
      first
      | assumption | apply keep_State_updPort | ((conv => arg 2; arg 20); apply keep_upd) | exact rfl | exact .inl rfl
    | (with_reducible apply Or.inr); exact Nat.le_of_ble_eq_true rfl | with_reducible intro _ | dsimp only | split

theorem keep_mdFault {s : State} {p : Nat} {kind : Nat} {strength : Option Int} {rise : Nat} (h : Keep H s)
    : Keep H (mdFault s p kind strength rise) := by
  unfold mdFault; try dsimp only
  repeat' first
    | with_reducible
      first
      | assumption | apply keep_updMd | apply keep_State_bump | apply keep_raise
    | with_reducible intro _ | dsimp only | split

theorem keep_mdGap {s : State} {p : Nat} (h : Keep H s) : Keep H (mdGap s p) := by
  unfold mdGap; try dsimp only
  repeat' first
    | with_reducible
      first
      | assumption | apply keep_setPlca | apply keep_updMd
    | with_reducible intro _ | dsimp only | split

theorem keep_mdArm {s : State} {p : Nat} (h : Keep H s) : Keep H (mdArm s p) := by
  unfold mdArm; try dsimp only
  repeat' first
    | with_reducible
      first
      | assumption | apply keep_mdGap | apply keep_updMd
    | with_reducible intro _ | dsimp only | split

theorem keep_execPreambleDetect {p : PortId} {level : BitVec 8} {mv : Nat} {s : State} (h : Keep H s)
    : KeepO H (execPreambleDetect p level mv s) := by
  unfold execPreambleDetect; try dsimp only
  apply keepO_next
  repeat' first
    | with_reducible
      first
      | assumption | apply keep_updMd
    | with_reducible intro _ | dsimp only | split

theorem keep_execSsdDetect {p : PortId} {strength : BitVec 8} {burst : Bool} {s : State} (h : Keep H s) : KeepO H
    (execSsdDetect p strength burst s) := by
  unfold execSsdDetect; try dsimp only
  apply keepO_next
  repeat' first
    | with_reducible
      first
      | assumption | apply keep_updMd | ((conv => arg 2; arg 20); apply keep_upd) | exact rfl | exact .inl rfl
    | (with_reducible apply Or.inr); exact Nat.le_of_ble_eq_true rfl | with_reducible intro _ | dsimp only | split

theorem keep_execSsdSearchTimeout {p : PortId} {s : State} (h : Keep H s) : KeepO H (execSsdSearchTimeout p s) := by
  unfold execSsdSearchTimeout; try dsimp only
  apply keepO_next
  repeat' first
    | with_reducible
      first
      | assumption | apply keep_mdArm | apply keep_State_bump
    | dsimp only | split

theorem keep_execRxRearm {p : PortId} {rise : BitVec 8} {s : State} (h : Keep H s) : KeepO H (execRxRearm p rise s) := by
  unfold execRxRearm; try dsimp only
  apply keepO_next
  repeat' first
    | with_reducible
      first
      | assumption | apply keep_mdArm | apply keep_State_bump
    | dsimp only | split

theorem keep_updNode {s : State} {p : Nat} {id : Nat} {f : MdNode → MdNode} (h : Keep H s) : Keep H (updNode s p id f) := by
  unfold updNode; try dsimp only
  repeat' first
    | with_reducible
      first
      | assumption | apply keep_updMd
    | with_reducible intro _ | dsimp only | split

theorem keep_execRxOverlap {p : PortId} {rise : BitVec 8} {s : State} (h : Keep H s) : KeepO H (execRxOverlap p rise s)
    := by
  unfold execRxOverlap; try dsimp only
  apply keepO_next
  repeat' first
    | with_reducible
      first
      | assumption | apply keep_nextOpp | apply keep_updMd | apply keep_State_bump | apply keep_updNode
      | apply keep_mdGap | apply keep_mdFault | ((conv => arg 2; arg 20); apply keep_upd) | exact rfl | exact .inl rfl
    | (with_reducible apply Or.inr); exact Nat.le_of_ble_eq_true rfl | with_reducible intro _ | dsimp only | split

theorem keep_mdFrame {s : State} {p : Nat} {good : Bool} (h : Keep H s) : Keep H (mdFrame s p good) := by
  unfold mdFrame; try dsimp only
  repeat' first
    | with_reducible
      first
      | assumption | apply keep_updNode | apply keep_mdArm | apply keep_nextOpp
      | ((conv => arg 2; arg 20); apply keep_upd) | exact rfl | exact .inl rfl
    | (with_reducible apply Or.inr); exact Nat.le_of_ble_eq_true rfl | with_reducible intro _ | dsimp only | split

theorem keep_mdCycle {s : State} {p : Nat} (h : Keep H s) : Keep H (mdCycle s p) := by
  unfold mdCycle; try dsimp only
  repeat' first
    | with_reducible
      first
      | assumption | apply keep_updMd | apply keep_State_bump
    | with_reducible intro _ | dsimp only | split

theorem keep_plcaActive {s : State} {p : Nat} (h : Keep H s) : Keep H (plcaActive s p) := by
  unfold plcaActive; try dsimp only
  repeat' first
    | with_reducible
      first
      | assumption | apply keep_updMd | apply keep_setPlca
    | with_reducible intro _ | dsimp only | split

theorem keep_foreignBeacon {s : State} {p : Nat} (h : Keep H s) : Keep H (foreignBeacon s p) := by
  unfold foreignBeacon; try dsimp only
  repeat' first
    | with_reducible
      first
      | assumption | apply keep_mdFault | apply keep_State_bump | apply keep_updMd
    | with_reducible intro _ | dsimp only | split

theorem keep_execBeaconRx {p : PortId} {s : State} (h : Keep H s) : KeepO H (execBeaconRx p s) := by
  unfold execBeaconRx; try dsimp only
  apply keepO_next
  repeat' first
    | with_reducible
      first
      | assumption | apply keep_foreignBeacon | apply keep_updMd | apply keep_mdCycle | apply keep_plcaActive | apply keep_goUp
    | with_reducible intro _ | dsimp only | split

theorem keep_execPlcaListenTimeout {p : PortId} {s : State} (h : Keep H s) : KeepO H (execPlcaListenTimeout p s) := by
  unfold execPlcaListenTimeout; try dsimp only
  apply keepO_next
  repeat' first
    | with_reducible
      first
      | assumption | apply keep_goUp | apply keep_updMd | apply keep_plcaActive | apply keep_setPlca
      | apply keep_loseLink | ((conv => arg 2; arg 20); apply keep_upd) | exact rfl | exact .inl rfl
    | (with_reducible apply Or.inr); exact Nat.le_of_ble_eq_true rfl | with_reducible intro _ | dsimp only | split

theorem keep_execBeaconLossTimeout {p : PortId} {s : State} (h : Keep H s) : KeepO H (execBeaconLossTimeout p s) := by
  unfold execBeaconLossTimeout; try dsimp only
  apply keepO_next
  repeat' first
    | with_reducible
      first
      | assumption | apply keep_updMd | apply keep_State_bump | apply keep_setPlca | apply keep_loseLink
    | with_reducible intro _ | dsimp only | split

theorem keep_execPlcaCycleStart {p : PortId} {s : State} (h : Keep H s) : KeepO H (execPlcaCycleStart p s) := by
  unfold execPlcaCycleStart; try dsimp only
  apply keepO_next
  repeat' first
    | with_reducible
      first
      | assumption | apply keep_updMd | apply keep_mdCycle
    | with_reducible intro _ | dsimp only | split

theorem keep_macStart {s : State} {p : Nat} (h : Keep H s) : Keep H (macStart s p) := by
  unfold macStart; try dsimp only
  repeat' first
    | with_reducible
      first
      | assumption | apply keep_State_updEgr
    | with_reducible intro _ | dsimp only | split

theorem keep_execTxOpportunity {p : PortId} {s : State} (h : Keep H s) : KeepO H (execTxOpportunity p s) := by
  unfold execTxOpportunity; try dsimp only
  apply keepO_next
  repeat' first
    | with_reducible
      first
      | assumption | apply keep_updMd | apply keep_State_bump | apply keep_macStart
    | with_reducible intro _ | dsimp only | split

theorem keep_takeTurn {s t : State} {p : Nat} (h : Keep H s) (e : takeTurn s p = some t) : Keep H t := by
  unfold takeTurn at e
  dsimp only at e
  repeat' split at e
  all_goals first
    | (cases e; first | exact h | exact keep_updMd (keep_State_bump h))
    | cases e

theorem keep_mdSent {s : State} {p : Nat} (h : Keep H s) : Keep H (mdSent s p) := by
  unfold mdSent; try dsimp only
  repeat' first
    | with_reducible
      first
      | assumption | apply keep_updMd | apply keep_nextOpp | ((conv => arg 2; arg 20); apply keep_upd) | exact rfl
      | exact .inl rfl
    | (with_reducible apply Or.inr); exact Nat.le_of_ble_eq_true rfl | with_reducible intro _ | dsimp only | split

theorem keep_execTxCollision {p : PortId} {rise : BitVec 8} {s : State} (h : Keep H s) : KeepO H (execTxCollision p rise
    s) := by
  unfold execTxCollision; try dsimp only
  apply keepO_next
  repeat' first
    | with_reducible
      first
      | assumption | apply keep_State_bump | apply keep_nextOpp | apply keep_mdFault | apply keep_leaveRing
      | apply keep_updMd | apply keep_State_updEgr | ((conv => arg 2; arg 20); apply keep_upd) | exact rfl
      | exact .inl rfl
    | (with_reducible apply Or.inr); exact Nat.le_of_ble_eq_true rfl | with_reducible intro _ | dsimp only | split

theorem keep_execCsmaBackoffExpiry {p : PortId} {s : State} (h : Keep H s) : KeepO H (execCsmaBackoffExpiry p s) := by
  unfold execCsmaBackoffExpiry; try dsimp only
  apply keepO_next
  repeat' first
    | with_reducible
      first
      | assumption | apply keep_macStart | apply keep_updMd
    | with_reducible intro _ | dsimp only | split

theorem keep_mdApply {s : State} {p : Nat} {c : MdCfg} (hc : H.freeC) (h : Keep H s) : Keep H (mdApply s p c) := by
  unfold mdApply; try dsimp only
  repeat' first
    | with_reducible
      first
      | assumption | apply keep_State_updPcfg | apply keep_updMd | apply keep_mdGap
    | with_reducible intro _ | dsimp only | split

theorem keep_mdConfigCmd (hc : H.freeC) : KeepC H (mdConfigCmd) := by
  intro s r h
  dsimp only [mdConfigCmd, confCmd, doOk]
  repeat' first
    | with_reducible
      first
      | assumption | apply keep_mdApply
    | dsimp only | split

theorem keep_mdStatusCmd : KeepC H mdStatusCmd := fun _ _ h => h

theorem keep_mdCountersReadCmd : KeepC H mdCountersReadCmd := fun _ _ h => h

theorem keep_mdCountersClearCmd : KeepC H mdCountersClearCmd := fun _ _ h => keep_eachN h fun _ _ h => keep_State_clearCnt h

theorem keep_mdNodeTableReadCmd : KeepC H mdNodeTableReadCmd := fun _ _ h => h

theorem keep_mdNodeTableClearCmd : KeepC H (mdNodeTableClearCmd) := by
  intro s r h
  dsimp only [mdNodeTableClearCmd, clearCmd, doOk]
  repeat' first
    | with_reducible
      first
      | assumption | apply keep_updMd | apply keep_eachN
    | with_reducible intro _ | dsimp only | split

end Sys2Proof.Machine
end

