-- ==== Sys2Proof/Laws/KeepFrames.lean ====
section
/-! SUPPORT. What the operations of Machine/Frames.lean keep of `Laws.Keep`: one lemma for each. -/

set_option linter.unusedVariables false
set_option linter.unreachableTactic false
set_option linter.unusedTactic false

namespace Sys2Proof.Machine

variable {H : Hold}

theorem keep_carryError {s : State} {idx : Nat} (h : Keep H s) : Keep H (carryError s idx) := by
  unfold carryError; try dsimp only
  repeat' first
    | with_reducible
      first
      | assumption | apply keep_rateError | apply keep_State_bump
    | dsimp only | split

theorem keep_readCells1 {s : State} {f : Frame} {e' : Nat} {x : ReadErr} (h : Keep H s) : Keep H (readCells s f e' x).1 := by
  unfold readCells
  extract_lets sl ring
  split
  rename_i s1 one e1
  have h1 := keep_takeInject (H := H) h e1
  split
  rename_i s2 five e2
  have h2 := keep_takeInject (H := H) h1 e2
  split
  rename_i s3 c1 e3
  have h3 := keep_takeInject (H := H) h2 e3
  split
  rename_i s4 c2 e4
  have h4 : Keep H s4 := by
    split at e4
    · exact keep_takeInject h3 e4
    · cases e4; exact h3
  extract_lets s5 bad s6 s7 crc
  have h5 : Keep H s5 := keep_State_bumpBy h4
  have h6 : Keep H s6 := by
    have k : ∀ o : Option (Nat × Nat), Keep H (match o with
        | some (b, r) => uncorrectable (if x.bad.isNone then s5.draw.draw else s5) b r 1
        | none => s5) := by
      intro o
      split
      · refine keep_uncorrectable ?_
        split
        · exact keep_State_draw (keep_State_draw h5)
        · exact h5
      · exact h5
    exact k bad
  have h7 : Keep H s7 := by
    simp only [s7]
    split
    · exact keep_cellError (keep_State_bump h6)
    · exact h6
  show Keep H (if crc then carryError s7 0 else s7)
  split
  · exact keep_carryError h7
  · exact h7

theorem keep_readCells {s : State} {f : Frame} {e' : Nat} {x : ReadErr} {out : State} {snd : _} (h : Keep H s)
    (e : readCells s f e' x = (out, snd)) : Keep H out := by
  have k := keep_readCells1 (f := f) (e' := e') (x := x) h
  rw [e] at k; exact k

theorem keep_discardHead {s : State} {q : Nat} {i : Nat} (h : Keep H s) : Keep H (discardHead s q i) := by
  unfold discardHead; try dsimp only
  repeat' first
    | with_reducible
      first
      | assumption | apply keep_unqueue
    | dsimp only | split

theorem keep_dropLong {s : State} {e' t n : Nat} (h : Keep H s) : Keep H (dropLong e' t n s) := by
  induction n generalizing s with
  | zero => exact h
  | succ n ih =>
    unfold dropLong
    split
    · exact h
    · split
      · exact ih (keep_updGcl (keep_discardHead h))
      · exact h

theorem keep_handOver {s : State} {e' : Nat} {t : Nat} {id : Nat} {f : Frame} {started : Bool} (h : Keep H s) : Keep H
    (handOver s e' t id f started) := by
  unfold handOver; try dsimp only
  repeat' first
    | with_reducible
      first
      | assumption | apply keep_preemptFrame | apply keep_settleCredit | apply keep_unqueue | apply keep_enterRing
      | apply keep_State_bump | apply keep_State_bumpBy | apply keep_State_updEgr
      | ((conv => arg 2; arg 20); apply keep_upd) | exact rfl | exact .inl rfl
    | (with_reducible apply Or.inr); exact Nat.le_of_ble_eq_true rfl | with_reducible intro _ | dsimp only | split

theorem keep_dequeueClass {s : State} {e' t : Nat} {started : Bool} {x : ReadErr} (h : Keep H s) :
    Keep H (dequeueClass s e' t started x) := by
  unfold dequeueClass
  split
  · exact h
  · split
    · exact h
    · split
      · exact h
      · split
        · exact keep_State_bump (keep_discardHead h)
        · split
          rename_i s1 bad crc e1
          have h1 : Keep H s1 := keep_readCells (keep_cellsRead h) e1
          extract_lets turn
          split
          · exact keep_metaDrop (keep_discardHead h1)
          · split
            · exact keep_State_bump (keep_discardHead h1)
            · split
              · exact keep_discardHead h1
              · have ht : ∀ t, turn = some t → Keep H t := by
                  intro t e2
                  simp only [turn] at e2
                  split at e2
                  · exact keep_takeTurn h1 e2
                  · cases e2; exact h1
                clear_value turn
                split
                · exact h
                · exact keep_handOver (ht _ rfl)

theorem keep_execFrameDequeue {s : State} {e' : Fin 192} {started : Bool} {x : ReadErr} (h : Keep H s) :
    KeepO H (execFrameDequeue e' started x s) := by
  unfold execFrameDequeue
  apply keepO_next
  extract_lets k s1
  have h1 : Keep H s1 := keep_foldl h fun _ _ => keep_dropLong
  clear_value s1
  split
  · exact h
  · split
    · exact h1
    · split
      · exact h1
      · exact keep_dequeueClass (keep_State_updEgr h1)

theorem keep_loopSent {s : State} {p : Nat} (h : Keep H s) : Keep H (loopSent s p) := by
  unfold loopSent; try dsimp only
  repeat' first
    | with_reducible
      first
      | assumption | apply keep_State_updPort | apply keep_State_updEgr | apply keep_State_bump
      | ((conv => arg 2; arg 20); apply keep_upd) | exact rfl | exact .inl rfl
    | (with_reducible apply Or.inr); exact Nat.le_of_ble_eq_true rfl | with_reducible intro _ | dsimp only | split

theorem keep_countSent {s : State} {e' : Nat} {n : Nat} (h : Keep H s) : Keep H (countSent s e' n) := by
  unfold countSent; try dsimp only
  repeat' first
    | with_reducible
      first
      | assumption | apply keep_State_bumpBy | apply keep_State_bump
    | dsimp only | split

theorem keep_portFrameEnd {s : State} {p : Nat} (h : Keep H s) : Keep H (portFrameEnd s p) := by
  unfold portFrameEnd; try dsimp only
  repeat' first
    | with_reducible
      first
      | assumption | apply keep_breakLink | apply keep_slackGo | apply keep_cableGo
    | dsimp only | split

theorem keep_txEnd {s : State} {e' : Nat} {m : MacFrame} {x : ReadErr} {upset : Bool} {under : Bool} (h : Keep H s) :
    Keep H (txEnd s e' m x upset under) := by
  unfold txEnd; try dsimp only
  repeat' first
    | with_reducible
      first
      | assumption | apply keep_readCells1 | apply keep_settleCredit | apply keep_takeInject1 | apply keep_State_bump
      | apply keep_carryError | apply keep_countStomp | apply keep_countSent | apply keep_leaveRing
      | apply keep_State_updEgr | apply keep_mdSent | apply keep_resumeFrame | apply keep_portFrameEnd
      | apply keep_linkFrameEnd | apply keep_sendReplies | ((conv => arg 2; arg 20); apply keep_upd) | exact rfl
      | exact .inl rfl
    | refine keep_readCells (e := by assumption) ?_ | refine keep_takeInject (e := by assumption) ?_
    | (with_reducible apply Or.inr); exact Nat.le_of_ble_eq_true rfl | with_reducible intro _ | dsimp only | split

theorem keep_execFrameTxComplete {e' : Fin 192} {x : ReadErr} {upset : Bool} {under : Bool} {s : State} (h : Keep H s) :
    KeepO H (execFrameTxComplete e' x upset under s) := by
  unfold execFrameTxComplete; try dsimp only
  apply keepO_next
  repeat' first
    | with_reducible
      first
      | assumption | apply keep_loopSent | apply keep_txEnd
    | with_reducible intro _ | dsimp only | split

theorem keep_execEgressFlushTimeout {p : PortId} {s : State} (h : Keep H s) : KeepO H (execEgressFlushTimeout p s) := by
  unfold execEgressFlushTimeout; try dsimp only
  apply keepO_next
  repeat' first
    | with_reducible
      first
      | assumption | apply keep_flushEgress | apply keep_countFlush
    | with_reducible intro _ | dsimp only | split

end Sys2Proof.Machine
end

