-- ==== Sys2Proof/Laws/KeepVs50Frames.lean ====
section
/-! SUPPORT. What the operations of Machine/Vs50Frames.lean keep of `Laws.Keep`: one lemma for each. -/

set_option linter.unusedVariables false
set_option linter.unreachableTactic false
set_option linter.unusedTactic false

namespace Sys2Proof.Machine

variable {H : Hold}

theorem keep_countCw {s : State} {p : Nat} {sym : Option Nat} (h : Keep H s) : Keep H (countCw s p sym) := by
  unfold countCw; try dsimp only
  repeat' first
    | with_reducible
      first
      | assumption | apply keep_State_bump | apply keep_State_bumpBy
    | dsimp only | split

theorem keep_fecWindow {s : State} {p : Nat} {cw : Nat} {unc : Nat} {bitsFixed : Nat} (h : Keep H s)
    : Keep H (fecWindow s p cw unc bitsFixed) := by
  unfold fecWindow; try dsimp only
  repeat' first
    | with_reducible
      first
      | assumption | apply keep_State_updPort
    | with_reducible intro _ | dsimp only | split

theorem keep_countFrame {s : State} {p : Nat} {d : RegionRx} (h : Keep H s) : Keep H (countFrame s p d) := by
  unfold countFrame; try dsimp only
  repeat' first
    | with_reducible
      first
      | assumption | apply keep_State_bumpBy | apply keep_countCw | apply keep_fecWindow | apply keep_State_bump
    | dsimp only | split

theorem keep_loseLock {s : State} {p : Nat} (h : Keep H s) : Keep H (loseLock s p) := by
  unfold loseLock; try dsimp only
  repeat' first
    | with_reducible
      first
      | assumption | apply keep_updVs | apply keep_State_bump | apply keep_loseLink | apply keep_updStart
      | ((conv => arg 2; arg 20); apply keep_upd) | exact rfl | exact .inl rfl
    | (with_reducible apply Or.inr); exact Nat.le_of_ble_eq_true rfl | with_reducible intro _ | dsimp only | split

theorem keep_rxTraining {s : State} {q : Nat} {fcnt : Nat} {st0 : Option Nat} {margin : Int} {ys : List Nat} (h : Keep H
    s) : Keep H (rxTraining s q fcnt st0 margin ys) := by
  unfold rxTraining; try dsimp only
  repeat' first
    | with_reducible
      first
      | assumption | apply keep_takeBlock | apply keep_updStart | apply keep_updVs
      | ((conv => arg 2; arg 20); apply keep_upd) | exact rfl | exact .inl rfl
    | (with_reducible apply Or.inr); exact Nat.le_of_ble_eq_true rfl | with_reducible intro _ | dsimp only | split

theorem keep_rxData {s : State} {p : Nat} {scr : Nat} {ys : List Nat} (h : Keep H s) : Keep H (rxData s p scr ys) := by
  unfold rxData; try dsimp only
  repeat' first
    | with_reducible
      first
      | assumption | apply keep_updVs | apply keep_countFrame
    | with_reducible intro _ | dsimp only | split

theorem keep_headerFlags {s : State} {p : Nat} {h' : Vs50Hdr} (h : Keep H s) : Keep H (headerFlags s p h') := by
  unfold headerFlags; try dsimp only
  repeat' first
    | with_reducible
      first
      | assumption | apply keep_State_bump | apply keep_raise | apply keep_State_updPort
      | ((conv => arg 2; arg 20); apply keep_upd) | exact rfl | exact .inl rfl
    | (with_reducible apply Or.inr); exact Nat.le_of_ble_eq_true rfl | with_reducible intro _ | dsimp only | split

theorem keep_takeHeader {s : State} {p : Nat} {h' : Vs50Hdr} (h : Keep H s) : Keep H (takeHeader s p h') := by
  unfold takeHeader; try dsimp only
  repeat' first
    | with_reducible
      first
      | assumption | apply keep_headerFlags | apply keep_State_bump
    | with_reducible intro _ | dsimp only | split

theorem keep_rxLocked {s : State} {p : Nat} {h' : Option Vs50Hdr} {ys : List Nat} {margin : Int} (h : Keep H s) : Keep H
    (rxLocked s p h' ys margin) := by
  unfold rxLocked; try dsimp only
  repeat' first
    | with_reducible
      first
      | assumption | apply keep_takeHeader | apply keep_State_bump | apply keep_updVs | apply keep_loseLock
      | apply keep_setLpi | apply keep_rxTraining | apply keep_rxData | apply keep_updStart
      | ((conv => arg 2; arg 20); apply keep_upd) | exact rfl | exact .inl rfl
    | (with_reducible apply Or.inr); exact Nat.le_of_ble_eq_true rfl | with_reducible intro _ | dsimp only | split

theorem keep_rxVirtual {s : State} {p : Nat} (h : Keep H s) : Keep H (rxVirtual s p) := by
  unfold rxVirtual; try dsimp only
  repeat' first
    | with_reducible
      first
      | assumption | apply keep_State_updPort | ((conv => arg 2; arg 20); apply keep_upd) | exact rfl | exact .inl rfl
    | (with_reducible apply Or.inr); exact Nat.le_of_ble_eq_true rfl | with_reducible intro _ | dsimp only | split

theorem keep_rxSearch {s : State} {p : Nat} {w : BitVec 64} (h : Keep H s) : Keep H (rxSearch s p w) := by
  unfold rxSearch; try dsimp only
  repeat' first
    | with_reducible
      first
      | assumption | apply keep_updVs | apply keep_headerFlags | ((conv => arg 2; arg 20); apply keep_upd) | exact rfl
      | exact .inl rfl
    | (with_reducible apply Or.inr); exact Nat.le_of_ble_eq_true rfl | with_reducible intro _ | dsimp only | split

theorem keep_execVs50FrameRx {p : PortId} {hdr : BitVec 64} {region : List Nat} {margin : Int} {s : State} (h : Keep H s)
    : KeepO H (execVs50FrameRx p hdr region margin s) := by
  unfold execVs50FrameRx; try dsimp only
  apply keepO_next
  repeat' first
    | with_reducible
      first
      | assumption | apply keep_rxSearch | apply keep_updVs | apply keep_headerFlags | apply keep_rxLocked
      | apply keep_rxVirtual | ((conv => arg 2; arg 20); apply keep_upd) | exact rfl | exact .inl rfl
    | (with_reducible apply Or.inr); exact Nat.le_of_ble_eq_true rfl | with_reducible intro _ | dsimp only | split

theorem keep_applyAnnounced {s : State} {p : Nat} (h : Keep H s) : Keep H (applyAnnounced s p) := by
  unfold applyAnnounced; try dsimp only
  repeat' first
    | with_reducible
      first
      | assumption | apply keep_State_bump | apply keep_updVs | apply keep_updStart
    | with_reducible intro _ | dsimp only | split

theorem keep_wantAmp {s : State} {p : Nat} (h : Keep H s) : Keep H (wantAmp s p) := by
  unfold wantAmp; try dsimp only
  repeat' first
    | with_reducible
      first
      | assumption | apply keep_updVs
    | with_reducible intro _ | dsimp only | split

theorem keep_txFrame {s : State} {p : Nat} {type : Nat} {phase : Nat} (h : Keep H s) : Keep H (txFrame s p type phase) :=
    by
  unfold txFrame; try dsimp only
  repeat' first
    | with_reducible
      first
      | assumption | apply keep_oamField1 | apply keep_updVs | apply keep_updStart
      | ((conv => arg 2; arg 20); apply keep_upd) | exact rfl | exact .inl rfl
    | refine keep_oamField (e := by assumption) ?_ | (with_reducible apply Or.inr); exact Nat.le_of_ble_eq_true rfl
    | with_reducible intro _ | dsimp only | split

theorem keep_testSends {s : State} {p : Nat} (h : Keep H s) : Keep H (testSends s p) := by
  unfold testSends; try dsimp only
  repeat' first
    | with_reducible
      first
      | assumption | apply keep_txFrame | apply keep_updVs | ((conv => arg 2; arg 20); apply keep_upd) | exact rfl
      | exact .inl rfl
    | (with_reducible apply Or.inr); exact Nat.le_of_ble_eq_true rfl | with_reducible intro _ | dsimp only | split

theorem keep_execVs50FrameTx {p : PortId} {words : List MiiWord} {s : State} (h : Keep H s) : KeepO H (execVs50FrameTx p
    words s) := by
  unfold execVs50FrameTx; try dsimp only
  apply keepO_next
  repeat' first
    | with_reducible
      first
      | assumption | apply keep_testSends | apply keep_updVs | apply keep_wantAmp | apply keep_applyAnnounced
      | apply keep_txFrame | ((conv => arg 2; arg 20); apply keep_upd) | exact rfl | exact .inl rfl
    | (with_reducible apply Or.inr); exact Nat.le_of_ble_eq_true rfl | with_reducible intro _ | dsimp only | split

end Sys2Proof.Machine
end

