-- ==== Sys2Proof/Laws/KeepCommit.lean ====
section
/-! SUPPORT. What the operations of Machine/Commit.lean keep of `Laws.Keep`: one lemma for each. -/

set_option linter.unusedVariables false
set_option linter.unreachableTactic false
set_option linter.unusedTactic false

namespace Sys2Proof.Machine

variable {H : Hold}

theorem keep_applyView {s : State} (hc : H.freeC) (h : Keep H s) : Keep H (applyView s) := by
  unfold applyView; try dsimp only
  repeat' first
    | with_reducible
      first
      | assumption | ((conv => arg 2; arg 20); apply keep_upd) | ((conv => arg 2; arg 20); apply keep_updc) | exact rfl
      | exact .inl rfl
    | (with_reducible apply Or.inr); exact Nat.le_of_ble_eq_true rfl | with_reducible intro _ | dsimp only | split

theorem cmds_keep {pre : Precond} (hm : H.freeM) (hf : H.freeF) (hc : H.freeC) (hs : H.freeS) : ∀ c ∈ cmds pre, KeepC H c := by
  simp only [cmds, controlCmds, breakwaterCmds, portCmds, hostCmds, fabricCmds, tideCmds, clockCmds, resetCmds, nvmCmds,
    testCmds, List.forall_mem_append, List.forall_mem_cons, List.not_mem_nil, false_implies, implies_true, and_true]
  repeat' apply And.intro
  exact keep_identityReadCmd
  exact keep_deviceStatusCmd
  exact keep_controlCountersReadCmd
  exact keep_controlCountersClearCmd
  exact keep_authPolicySetCmd hc
  exact keep_authKeyProgramCmd hf hc
  exact keep_authKeyRevokeCmd hf hc
  exact keep_epochOpenCmd
  exact keep_epochCommitCmd
  exact keep_epochAbortCmd
  exact keep_epochStatusCmd
  exact keep_transportConfigCmd hc
  exact keep_eventRouteCmd hc
  exact keep_eventMaskCmd hc
  exact keep_eventReadCmd
  exact keep_eventAckCmd
  exact keep_integrityConfigCmd hc
  exact keep_integrityStatusCmd
  exact keep_integrityFaultClearCmd
  exact keep_faultLogReadCmd
  exact keep_integrityCountersReadCmd
  exact keep_integrityCountersClearCmd
  exact keep_faultInjectCmd
  exact keep_portModeSetCmd hc
  exact keep_portModeGetCmd
  exact keep_portAdminCmd hc
  exact keep_portStatusReadCmd
  exact keep_portCountersReadCmd
  exact keep_portCountersClearCmd
  exact keep_coveStatusCmd
  exact keep_vs50ConfigCmd hc
  exact keep_vs50StatusCmd
  exact keep_vs50CountersReadCmd
  exact keep_vs50CountersClearCmd
  exact keep_vs50OamSendCmd
  exact keep_vs50OamReadCmd
  exact keep_dspConfigCmd hc
  exact keep_dspStatusCmd
  exact keep_bundleGroupSetCmd hc
  exact keep_bundleGroupGetCmd
  exact keep_xtalkStatusCmd
  exact keep_echoWindowSetCmd hc
  exact keep_anchorControlCmd
  exact keep_dspCountersReadCmd
  exact keep_dspCountersClearCmd
  exact keep_tapReadCmd
  exact keep_startConfigCmd hc
  exact keep_startStatusCmd
  exact keep_startCountersReadCmd
  exact keep_startCountersClearCmd
  exact keep_relinkStoreReadCmd
  exact keep_relinkStoreClearCmd
  exact keep_startRestartCmd
  exact keep_mdConfigCmd hc
  exact keep_mdStatusCmd
  exact keep_mdCountersReadCmd
  exact keep_mdCountersClearCmd
  exact keep_mdNodeTableReadCmd
  exact keep_mdNodeTableClearCmd
  exact keep_healthConfigCmd hc
  exact keep_healthStatusCmd
  exact keep_healthCountersReadCmd
  exact keep_healthCountersClearCmd
  exact keep_soundingConfigCmd hc
  exact keep_soundingRunCmd
  exact keep_soundingResultReadCmd
  exact keep_soundingProfileReadCmd
  exact keep_soundingBaselineSetCmd
  exact keep_soundingBaselineReadCmd
  exact keep_soundingBaselineLoadCmd
  exact keep_cableTestRunCmd
  exact keep_cableTestResultCmd
  exact keep_cableTestProfileReadCmd
  exact keep_portPowerConfigCmd hc
  exact keep_portSlackCmd
  exact keep_portPowerStatusCmd
  exact keep_devicePowerSetCmd
  exact keep_devicePowerStatusCmd
  exact keep_wakeConfigCmd hc
  exact keep_powerCountersReadCmd
  exact keep_powerCountersClearCmd
  exact keep_hostLinkConfigCmd hc
  exact keep_hostLaneConfigCmd hc
  exact keep_hostLinkMacConfigCmd hc
  exact keep_hostAdminCmd hc
  exact keep_hostEbbCmd
  exact keep_hostLaneStatusCmd
  exact keep_hostLinkStatusCmd
  exact keep_hostLaneCountersReadCmd
  exact keep_hostLaneCountersClearCmd
  exact keep_hostLinkCountersReadCmd
  exact keep_hostLinkCountersClearCmd
  exact keep_eyeScanStartCmd
  exact keep_eyeScanReadCmd
  exact keep_hostTestCmd
  exact keep_fabricConfigCmd hc
  exact keep_fabricStatusCmd
  exact keep_queueConfigCmd hc
  exact keep_schedulerConfigCmd hc
  exact keep_shaperConfigCmd hc
  exact keep_cutThroughConfigCmd hc
  exact keep_queueStatusCmd
  exact keep_queueCountersReadCmd
  exact keep_queueCountersClearCmd
  exact keep_sliceCountersReadCmd
  exact keep_sliceCountersClearCmd
  exact keep_sliceGateCmd
  exact keep_streamTableConfigCmd hc
  exact keep_streamEntryWriteCmd hc
  exact keep_streamEntryDeleteCmd hc
  exact keep_streamEntryReadCmd
  exact keep_streamLookupCmd
  exact keep_streamTableStatusCmd
  exact keep_destWriteCmd hc
  exact keep_ingressProfileSetCmd hc
  exact keep_qciFilterSetCmd hc
  exact keep_qciMeterSetCmd hc
  exact keep_qciGateSetCmd hc
  exact keep_qciCountersReadCmd
  exact keep_qciCountersClearCmd
  exact keep_frerSeqgenSetCmd
  exact keep_frerRecoverySetCmd hc
  exact keep_frerCountersReadCmd
  exact keep_frerCountersClearCmd
  exact keep_gclLoadCmd hc
  exact keep_gclSetCmd hc
  exact keep_gclStatusCmd
  exact keep_gclReadCmd
  exact keep_preemptConfigCmd hc
  exact keep_preemptStatusCmd
  exact keep_preemptCountersReadCmd
  exact keep_preemptCountersClearCmd
  exact keep_ingressCountersReadCmd
  exact keep_ingressCountersClearCmd
  exact keep_timeReadCmd
  exact keep_timeAdjustCmd
  exact keep_gptpConfigCmd hc
  exact keep_gptpPortConfigCmd hc
  exact keep_gptpStatusCmd
  exact keep_gptpCountersReadCmd
  exact keep_ppsConfigCmd hc
  exact keep_ppsInReadCmd
  exact keep_ttSourceBindCmd hc
  exact keep_ttLayoutSetCmd hc
  exact keep_ttLayoutDeleteCmd hc
  exact keep_ttSignalDefineCmd hc
  exact keep_ttComposeSetCmd hc
  exact keep_ttComposeTemplateCmd hc
  exact keep_ttDigestRouteSetCmd hc
  exact keep_ttSignalReadCmd
  exact keep_ttSignalWriteCmd
  exact keep_ttLayoutStatusCmd
  exact keep_ttStatusCmd
  exact keep_ttComposeSendCmd
  exact keep_ttCountersReadCmd
  exact keep_ttCountersClearCmd
  exact keep_clockStatusCmd
  exact keep_dvfsConfigCmd hc
  exact keep_avsConfigCmd hc
  exact keep_islandGateCmd
  exact keep_clockFlagsClearCmd
  exact keep_clockCountersReadCmd
  exact keep_clockCountersClearCmd
  exact keep_resetBlockCmd
  exact keep_resetDomainCmd
  exact keep_resetStatusCmd
  exact keep_bootStatusCmd
  exact keep_watchdogConfigCmd hc
  exact keep_firmwareSelectCmd
  exact keep_resetCountersReadCmd
  exact keep_resetCountersClearCmd
  exact keep_calConfigCmd hc
  exact keep_calRunCmd
  exact keep_calStatusCmd
  exact keep_calStoreCmd hm
  exact keep_calCountersReadCmd
  exact keep_calCountersClearCmd
  exact keep_nvmSlotStatusCmd
  exact keep_nvmReadCmd
  exact keep_nvmWriteBeginCmd hm
  exact keep_nvmWriteCmd hm
  exact keep_nvmWriteEndCmd
  exact keep_nvmInvalidateCmd hm
  exact keep_nvmCountersReadCmd
  exact keep_nvmCountersClearCmd
  exact keep_selftestRunCmd
  exact keep_selftestStatusCmd
  exact keep_selftestAbortCmd
  exact keep_selftestResultReadCmd
  exact keep_repairStatusCmd
  exact keep_repairFuseCmd
  exact keep_portLoopbackCmd
  exact keep_portTestModeCmd
  exact keep_portTestCountersReadCmd
  exact keep_portTestCountersClearCmd
  exact keep_safeStateCmd hs
  exact keep_portQuietCmd
  exact keep_readFaultRecordCmd
  exact keep_domainResetCmd
  exact keep_deviceWarmResetCmd
  exact keep_echoCmd
  exact keep_readCoreStatusCmd

theorem keep_cmdOf {s : State} {op : Nat} {c : Cmd} (hm : H.freeM) (hf : H.freeF) (hc : H.freeC) (hs : H.freeS)
    (h : cmdOf s op = some c) : KeepC H c :=
  cmds_keep hm hf hc hs c (List.mem_of_find?_eq_some h)

theorem keep_applyOne1 {x : Staged} {acc : State × Option Nat} {b : Nat} (hm : H.freeM) (hf : H.freeF) (hc : H.freeC) (hs
    : H.freeS)
    (h : Keep H acc.1) : Keep H (applyOne x acc b).1 := by
  unfold applyOne
  split
  · extract_lets r
    split
    · exact h
    · exact keep_cmdOf hm hf hc hs ‹_› _ _ h
  · exact h

theorem keep_applyList1 {bs : List Nat} {l : List Staged} {acc : State × Option Nat} (hm : H.freeM) (hf : H.freeF)
    (hc : H.freeC) (hs : H.freeS) (h : Keep H acc.1) : Keep H (applyList bs l acc).1 := by
  induction l generalizing acc with
  | nil => exact h
  | cons x xs ih => exact ih (keep_foldl1 h fun _ _ h2 => keep_applyOne1 hm hf hc hs h2)

theorem keep_applyBlocks1 {s : State} {bs : List Nat} (hm : H.freeM) (hf : H.freeF) (hc : H.freeC) (hs : H.freeS)
    (h : Keep H s) : Keep H (applyBlocks s bs).1 := keep_applyList1 hm hf hc hs h

theorem keep_applyBlocks {s : State} {bs : List Nat} {out : State} {snd : _} (hm : H.freeM) (hf : H.freeF) (hc : H.freeC)
    (hs : H.freeS) (h : Keep H s) (e : applyBlocks s bs = (out, snd)) : Keep H out := by
  have k := keep_applyBlocks1 (bs := bs) hm hf hc hs h
  rw [e] at k; exact k

theorem keep_profileResult {s : State} {slot : Nat} {result : Nat} {pkt : Nat} {st : Nat} (h : Keep H s)
    : Keep H (profileResult s slot result pkt st) := by
  unfold profileResult; try dsimp only
  repeat' first
    | with_reducible
      first
      | assumption | apply keep_raiseReady
    | dsimp only | split

theorem keep_finishEpoch {s : State} {failed : Nat} {st : Status} (h : Keep H s) : Keep H (finishEpoch s failed st) := by
  unfold finishEpoch; try dsimp only
  repeat' first
    | with_reducible
      first
      | assumption | apply keep_endEpoch | apply keep_profileResult | apply keep_State_bump | apply keep_complete
    | dsimp only | split

theorem keep_restorePort {s : State} {p : Nat} {c : PortCfg} (hc : H.freeC) (h : Keep H s) : Keep H (restorePort s p c)
    := by
  unfold restorePort; try dsimp only
  repeat' first
    | with_reducible
      first
      | assumption | apply keep_State_updPcfg | apply keep_applyPins | apply keep_applyDsp | apply keep_mdApply
      | apply keep_applyPower | apply keep_applyVs50 | apply keep_applyMode | apply keep_quietPort
      | apply keep_setAdmin | ((conv => arg 2; arg 20); apply keep_upd) | ((conv => arg 2; arg 20); apply keep_updc)
      | exact rfl | exact .inl rfl
    | (with_reducible apply Or.inr); exact Nat.le_of_ble_eq_true rfl | with_reducible intro _ | dsimp only | split

theorem keep_restoreLane {s : State} {m : Nat} {c : LaneCfg} (hc : H.freeC) (h : Keep H s) : Keep H (restoreLane s m c) := by
  unfold restoreLane; try dsimp only
  repeat' first
    | with_reducible
      first
      | assumption | apply keep_setLaneCfg | apply keep_setLaneAdmin
    | dsimp only | split

theorem keep_restoreDevice {s : State} {c : Cfg} (hc : H.freeC) (h : Keep H s) : Keep H (restoreDevice s c) := by
  unfold restoreDevice; try dsimp only
  repeat' first
    | with_reducible
      first
      | assumption | apply keep_gptpElect | apply keep_updClk | apply keep_dvfsRestart | apply keep_eachN
      | ((conv => arg 2; arg 20); apply keep_upd) | ((conv => arg 2; arg 20); apply keep_updc) | exact rfl | exact .inl rfl
    | (with_reducible apply Or.inr); exact Nat.le_of_ble_eq_true rfl | with_reducible intro _ | dsimp only | split

theorem keep_restoreFabric {s : State} {c : Cfg} (hc : H.freeC) (h : Keep H s) : Keep H (restoreFabric s c) := by
  unfold restoreFabric; try dsimp only
  repeat' first
    | with_reducible
      first
      | assumption | apply keep_settleCredit | apply keep_eachN | ((conv => arg 2; arg 20); apply keep_upd)
      | ((conv => arg 2; arg 20); apply keep_updc) | exact rfl | exact .inl rfl
    | (with_reducible apply Or.inr); exact Nat.le_of_ble_eq_true rfl | with_reducible intro _ | dsimp only | split

theorem keep_restoreBlock {c : Cfg} {s : State} {b : Nat} (hc : H.freeC) (h : Keep H s) : Keep H (restoreBlock c s b) :=
    by
  unfold restoreBlock; try dsimp only
  repeat' first
    | with_reducible
      first
      | assumption | apply keep_restoreDevice | apply keep_restorePort | apply keep_applyGroup | apply keep_restoreLane
      | apply keep_setBond | apply keep_restoreFabric | apply keep_resetSig | apply keep_eachN
      | ((conv => arg 2; arg 20); apply keep_upd) | ((conv => arg 2; arg 20); apply keep_updc) | exact rfl
      | exact .inl rfl
    | (with_reducible apply Or.inr); exact Nat.le_of_ble_eq_true rfl | with_reducible intro _ | dsimp only | split

theorem keep_replan {s : State} (h : Keep H s) : Keep H (replan s) := by
  unfold replan; try dsimp only
  repeat' first
    | with_reducible
      first
      | assumption | apply keep_planCove | apply keep_eachN
    | with_reducible intro _ | dsimp only | split

theorem keep_returnBlocks {s : State} {bs : List Nat} (hc : H.freeC) (h : Keep H s) : Keep H (returnBlocks s bs) := by
  unfold returnBlocks; try dsimp only
  repeat' first
    | with_reducible
      first
      | assumption | apply keep_restoreBlock | apply keep_finishEpoch | apply keep_replan | apply keep_foldl
      | apply keep_foldl1 | ((conv => arg 2; arg 20); apply keep_upd) | ((conv => arg 2; arg 20); apply keep_updc)
      | exact rfl | exact .inl rfl
    | (with_reducible apply Or.inr); exact Nat.le_of_ble_eq_true rfl | with_reducible intro _ | dsimp only | split

theorem keep_rollback {s : State} {failed : Nat} {now : State → Nat → Bool} (hc : H.freeC) (h : Keep H s) : Keep H
    (rollback s failed now) := by
  unfold rollback; try dsimp only
  repeat' first
    | with_reducible
      first
      | assumption | apply keep_returnBlocks | ((conv => arg 2; arg 20); apply keep_upd)
      | ((conv => arg 2; arg 20); apply keep_updc) | exact rfl | exact .inl rfl
    | (with_reducible apply Or.inr); exact Nat.le_of_ble_eq_true rfl | with_reducible intro _ | dsimp only | split

theorem keep_reach {s : State} {bs : List Nat} {now : State → Nat → Bool} (hm : H.freeM) (hf : H.freeF) (hc : H.freeC)
    (hs : H.freeS) (h : Keep H s) : Keep H (reach s bs now) := by
  unfold reach; try dsimp only
  repeat' first
    | with_reducible
      first
      | assumption | apply keep_applyBlocks1 | apply keep_rollback | apply keep_finishEpoch
      | ((conv => arg 2; arg 20); apply keep_upd) | ((conv => arg 2; arg 20); apply keep_updc) | exact rfl
      | exact .inl rfl
    | refine keep_applyBlocks (e := by assumption) ?_ | (with_reducible apply Or.inr); exact Nat.le_of_ble_eq_true rfl
    | with_reducible intro _ | dsimp only | split

theorem keep_prepared {s : State} {now : State → Nat → Bool} (hm : H.freeM) (hf : H.freeF) (hc : H.freeC) (hs : H.freeS)
    (h : Keep H s) : Keep H (prepared s now) := by
  unfold prepared; try dsimp only
  repeat' first
    | with_reducible
      first
      | assumption | apply keep_rollback | apply keep_planCove | apply keep_reach | apply keep_eachN
      | ((conv => arg 2; arg 20); apply keep_upd) | ((conv => arg 2; arg 20); apply keep_updc) | exact rfl
      | exact .inl rfl
    | (with_reducible apply Or.inr); exact Nat.le_of_ble_eq_true rfl | with_reducible intro _ | dsimp only | split

theorem keep_execCommitPrepareDone {s : State} (hm : H.freeM) (hf : H.freeF) (hc : H.freeC) (hs : H.freeS) (h : Keep H s)
    : KeepO H (execCommitPrepareDone s) := by
  unfold execCommitPrepareDone; try dsimp only
  apply keepO_next
  repeat' first
    | with_reducible
      first
      | assumption | apply keep_prepared
    | with_reducible intro _ | dsimp only | split

theorem keep_endModeJobs {s : State} {b : Nat} {st : Status} (h : Keep H s) : Keep H (endModeJobs s b st) := by
  unfold endModeJobs; try dsimp only
  repeat' first
    | with_reducible
      first
      | assumption | apply keep_closeWaiter | apply keep_foldl | apply keep_foldl1
      | ((conv => arg 2; arg 20); apply keep_upd) | exact rfl | exact .inl rfl
    | (with_reducible apply Or.inr); exact Nat.le_of_ble_eq_true rfl | with_reducible intro _ | dsimp only | split

theorem keep_modeJobsApply {s : State} {b : Nat} (hc : H.freeC) (h : Keep H s) : Keep H (modeJobsApply s b) := by
  unfold modeJobsApply; try dsimp only
  repeat' first
    | with_reducible
      first
      | assumption | apply keep_endModeJobs | apply keep_modeNow | apply keep_foldl | apply keep_foldl1
    | with_reducible intro _ | dsimp only | split

theorem keep_atCommitBoundary {s : State} {b : Nat} (hm : H.freeM) (hf : H.freeF) (hc : H.freeC) (hs : H.freeS) (h : Keep
    H s) : Keep H (atCommitBoundary s b) := by
  unfold atCommitBoundary; try dsimp only
  repeat' first
    | with_reducible
      first
      | assumption | apply keep_returnBlocks | apply keep_reach
    | with_reducible intro _ | dsimp only | split

theorem keep_reachFree {s : State} {p : State → Nat → Bool} (hm : H.freeM) (hf : H.freeF) (hc : H.freeC) (hs : H.freeS)
    (h : Keep H s) : Keep H (reachFree s p) := by
  unfold reachFree; try dsimp only
  repeat' first
    | with_reducible
      first
      | assumption | apply keep_modeJobsApply | apply keep_returnBlocks | apply keep_reach | apply keep_foldl
      | apply keep_foldl1
    | with_reducible intro _ | dsimp only | split

theorem keep_reachHeld {s : State} (hm : H.freeM) (hf : H.freeF) (hc : H.freeC) (hs : H.freeS) (h : Keep H s) : Keep H
    (reachHeld s) := by
  unfold reachHeld; try dsimp only
  repeat' first
    | with_reducible
      first
      | assumption | apply keep_reachFree
    | with_reducible intro _ | dsimp only | split

theorem keep_execSafeState {r : Req} {s : State} (hm : H.freeM) (hf : H.freeF) (hc : H.freeC) (hs : H.freeS)
    (h : Keep H s) : KeepO H (execSafeState r s) :=
  keepO_next (keep_reachHeld hm hf hc hs (keep_serve (keep_safeStateCmd hs) h))

theorem keep_execPortQuiet {r : Req} {s : State} (hm : H.freeM) (hf : H.freeF) (hc : H.freeC) (hs : H.freeS)
    (h : Keep H s) : KeepO H (execPortQuiet r s) :=
  keepO_next (keep_reachHeld hm hf hc hs (keep_serve keep_portQuietCmd h))

theorem keep_commitFirst {s : State} {b : Nat} (hm : H.freeM) (hf : H.freeF) (hc : H.freeC) (hs : H.freeS) (h : Keep H s)
    : Keep H (commitFirst s b) := by
  unfold commitFirst; try dsimp only
  repeat' first
    | with_reducible
      first
      | assumption | apply keep_atCommitBoundary | apply keep_modeJobsApply
    | with_reducible intro _ | dsimp only | split

theorem keep_execCommitBoundaryApply {block : BitVec 32} {s : State} (hm : H.freeM) (hf : H.freeF) (hc : H.freeC) (hs :
    H.freeS) (h : Keep H s) : KeepO H (execCommitBoundaryApply block s) := by
  unfold execCommitBoundaryApply; try dsimp only
  apply keepO_next
  repeat' first
    | with_reducible
      first
      | assumption | apply keep_commitFirst
    | with_reducible intro _ | dsimp only | split

theorem keep_execUndertowStep {b : CalBlock} {s : State} (hm : H.freeM) (hf : H.freeF) (hc : H.freeC) (hs : H.freeS) (h :
    Keep H s) : KeepO H (execUndertowStep b s) := by
  unfold execUndertowStep; try dsimp only
  apply keepO_next
  repeat' first
    | with_reducible
      first
      | assumption | apply keep_undertowStep | apply keep_commitFirst
    | with_reducible intro _ | dsimp only | split

theorem keep_execAnchorReversion {p : PortId} {s : State} (hm : H.freeM) (hf : H.freeF) (hc : H.freeC) (hs : H.freeS) (h
    : Keep H s) : KeepO H (execAnchorReversion p s) := by
  unfold execAnchorReversion; try dsimp only
  apply keepO_next
  repeat' first
    | with_reducible
      first
      | assumption | apply keep_commitFirst | apply keep_revertNow
    | with_reducible intro _ | dsimp only | split

theorem keep_execCommitTimeout {p : Option PortId} {s : State} (hm : H.freeM) (hf : H.freeF) (hc : H.freeC) (hs :
    H.freeS) (h : Keep H s) : KeepO H (execCommitTimeout p s) := by
  unfold execCommitTimeout; try dsimp only
  apply keepO_next
  repeat' first
    | with_reducible
      first
      | assumption | apply keep_reachFree | apply keep_endModeJobs | apply keep_rollback
    | with_reducible intro _ | dsimp only | split

theorem keep_profilePacket {s t : State} {bs : List Byte} (h : Keep H s) (e : profilePacket s bs = .ok t) : Keep H t := by
  unfold profilePacket at e
  dsimp only at e
  repeat' split at e
  all_goals first | (cases e; exact keep_stageIn h) | cases e

theorem keep_stagePackets1 {n i : Nat} {bs : List Byte} {s : State} (h : Keep H s) : Keep H (stagePackets n i bs s).1 := by
  induction n generalizing i bs s with
  | zero => exact h
  | succ n ih =>
    unfold stagePackets
    split
    · exact h
    · exact ih (keep_profilePacket h ‹_›)

theorem keep_stagePackets {n i : Nat} {bs : List Byte} {s : State} {out : State} {snd : _} (h : Keep H s)
    (e : stagePackets n i bs s = (out, snd)) : Keep H out := by
  have k := keep_stagePackets1 (n := n) (i := i) (bs := bs) h
  rw [e] at k; exact k

theorem keep_openProfile {s : State} {timeout : Nat} (h : Keep H s) : Keep H (openProfile s timeout) := by
  unfold openProfile; try dsimp only
  repeat' first
    | with_reducible
      first
      | assumption | ((conv => arg 2; arg 20); apply keep_upd) | exact rfl | exact .inl rfl
    | (with_reducible apply Or.inr); exact Nat.le_of_ble_eq_true rfl | dsimp only | split

theorem keep_stageProfile1 {s : State} {region : Nat} (h : Keep H s) : Keep H (stageProfile s region).1 := by
  unfold stageProfile
  extract_lets bs
  clear_value bs
  split
  · exact h
  · split
    · exact h
    · split
      · exact keep_endEpoch (keep_stagePackets (keep_openProfile h) ‹_›)
      · exact keep_upd (keep_stagePackets (keep_openProfile h) ‹_›) rfl rfl rfl rfl rfl rfl (.inr (Nat.le_of_ble_eq_true rfl)) (.inl rfl)

theorem keep_stageProfile {s : State} {region : Nat} {out : State} {snd : _} (h : Keep H s)
    (e : stageProfile s region = (out, snd)) : Keep H out := by
  have k := keep_stageProfile1 (region := region) h
  rw [e] at k; exact k

theorem keep_applyStaged1 {y : State × Nat × Option (Nat × Status) × Bool} (hm : H.freeM) (hf : H.freeF) (hc : H.freeC) (hs
    : H.freeS)
    (h : Keep H y.1) : Keep H (applyStaged y).1 := by
  unfold applyStaged
  split
  · exact keep_State_bump h
  · exact h
  · extract_lets s2
    have h2 : Keep H s2 := keep_prepared hm hf hc hs h
    clear_value s2
    split
    · exact h2
    · exact keep_State_bump h2

theorem keep_startSlot1 {s : State} {region : Nat} (hm : H.freeM) (hf : H.freeF) (hc : H.freeC) (hs : H.freeS) (h : Keep
    H s) : Keep H (startSlot s region).1 := by
  unfold startSlot; try dsimp only
  repeat' first
    | with_reducible
      first
      | assumption | apply keep_applyStaged1 | apply keep_stageProfile1
    | refine keep_applyStaged (e := by assumption) ?_ | refine keep_stageProfile (e := by assumption) ?_
    | with_reducible intro _ | dsimp only | split

theorem keep_startSlot {s : State} {region : Nat} {out : State} {snd : _} (hm : H.freeM) (hf : H.freeF) (hc : H.freeC)
    (hs : H.freeS) (h : Keep H s)
    (e : startSlot s region = (out, snd)) : Keep H out := by
  have k := keep_startSlot1 (H := H) hm hf hc hs (h := h) (region := region)
  rw [e] at k; exact k

theorem keep_recordProfile {s : State} {slot : Nat} {result : Nat} {n : Nat} {f : Option (Nat × Status)} (h : Keep H s)
    : Keep H (recordProfile s slot result n f) := by
  unfold recordProfile; try dsimp only
  repeat' first
    | with_reducible
      first
      | assumption | apply keep_profileResult | ((conv => arg 2; arg 20); apply keep_upd) | exact rfl | exact .inl rfl
    | (with_reducible apply Or.inr); exact Nat.le_of_ble_eq_true rfl | dsimp only | split

theorem keep_secondSlot {slot : Nat} {y : State × Nat × Option (Nat × Status)} (h : Keep H y.1) : Keep H (secondSlot slot y)
    := by
  unfold secondSlot
  split
  · exact keep_recordProfile h
  · exact keep_recordProfile h

theorem keep_firstSlot {slot : Nat} {rest : List Nat} {y : State × Nat × Option (Nat × Status)}
    (hm : H.freeM) (hf : H.freeF) (hc : H.freeC) (hs : H.freeS) (h : Keep H y.1) :
    Keep H (firstSlot slot rest y) := by
  unfold firstSlot
  split
  · exact keep_recordProfile h
  · split
    · exact keep_recordProfile h
    · exact keep_secondSlot (keep_startSlot1 hm hf hc hs h)

theorem keep_startProfile {s : State} (hm : H.freeM) (hf : H.freeF) (hc : H.freeC) (hs : H.freeS) (h : Keep H s)
    : Keep H (startProfile s) := by
  unfold startProfile
  split
  · exact keep_recordProfile h
  · split
    · exact keep_recordProfile h
    · exact keep_firstSlot hm hf hc hs (keep_startSlot1 hm hf hc hs h)

theorem keep_flushOwed {s : State} (h : Keep H s) : Keep H (flushOwed s) := by
  unfold flushOwed; try dsimp only
  repeat' first
    | with_reducible
      first
      | assumption | apply keep_raiseFor | apply keep_foldl | apply keep_foldl1 | ((conv => arg 2; arg 20); apply keep_upd)
      | exact rfl | exact .inl rfl
    | (with_reducible apply Or.inr); exact Nat.le_of_ble_eq_true rfl | with_reducible intro _ | dsimp only | split

theorem keep_headlandUp {s : State} {kind : Nat} (h : Keep H s) : Keep H (headlandUp s kind) := by
  unfold headlandUp; try dsimp only
  repeat' first
    | with_reducible
      first
      | assumption | apply keep_raise | ((conv => arg 2; arg 20); apply keep_upd) | exact rfl | exact .inl rfl
    | (with_reducible apply Or.inr); exact Nat.le_of_ble_eq_true rfl | dsimp only | split

theorem keep_applyDue {s : State} (hc : H.freeC) (hs : H.freeS) (h : Keep H s) : Keep H (applyDue s) := by
  unfold applyDue; try dsimp only
  repeat' first
    | with_reducible
      first
      | assumption | apply keep_deviceReset | apply keep_beginBoot | apply keep_State_bump
    | with_reducible intro _ | dsimp only | split

theorem keep_startReady {s : State} (hm : H.freeM) (hf : H.freeF) (hc : H.freeC) (hs : H.freeS) (h : Keep H s) : Keep H
    (startReady s) := by
  unfold startReady; try dsimp only
  repeat' first
    | with_reducible
      first
      | assumption | apply keep_headlandUp | apply keep_startProfile | apply keep_applyDue | apply keep_applyRecorded
      | apply keep_raisePoint | apply keep_flushOwed | ((conv => arg 2; arg 20); apply keep_upd)
      | ((conv => arg 2; arg 20); apply keep_updc) | exact rfl | exact .inl rfl
    | (with_reducible apply Or.inr); exact Nat.le_of_ble_eq_true rfl | with_reducible intro _ | dsimp only | split

theorem keep_execHeadlandReady {s : State} (hm : H.freeM) (hf : H.freeF) (hc : H.freeC) (hs : H.freeS) (h : Keep H s) :
    KeepO H (execHeadlandReady s) := by
  unfold execHeadlandReady; try dsimp only
  apply keepO_next
  repeat' first
    | with_reducible
      first
      | assumption | apply keep_startReady | apply keep_endEpisode | apply keep_raisePoint | apply keep_flushOwed
      | apply keep_headlandUp
    | with_reducible intro _ | dsimp only | split

theorem keep_profileBegins {slot tag : Nat} {y : State × Nat × Option (Nat × Status) × Bool} (h : Keep H y.1) :
    Keep H (profileBegins slot tag y) := by
  unfold profileBegins
  split
  · exact keep_complete (keep_profileResult (keep_State_bump h))
  · exact keep_complete (keep_profileResult h)
  · exact keep_upd h rfl rfl rfl rfl rfl rfl (.inl rfl) (.inl rfl)

theorem keep_bootProfileApplyCmd : KeepC H bootProfileApplyCmd := by
  intro s r h
  dsimp only [bootProfileApplyCmd, doAccepted]
  with_reducible exact keep_profileBegins (keep_stageProfile1 h)

end Sys2Proof.Machine
end

