-- ==== Sys2Proof/Laws/KeepReceive.lean ====
section
/-! SUPPORT. What the operations of Machine/Receive.lean keep of `Laws.Keep`: one lemma for each. -/

set_option linter.unusedVariables false
set_option linter.unreachableTactic false
set_option linter.unusedTactic false

namespace Sys2Proof.Machine

variable {H : Hold}

theorem keep_actUndefined {op : Nat} {r : Req} {s : State} (h : Keep H s) : Keep H (actUndefined op r s) := by
  unfold actUndefined; try dsimp only
  repeat' first
    | with_reducible
      first
      | assumption | apply keep_refuse
    | with_reducible intro _ | dsimp only | split

theorem keep_takePacket {op : Nat} {r : Req} {s : State} (hm : H.freeM) (hf : H.freeF) (hc : H.freeC) (hs : H.freeS)
    (h : Keep H s) : Keep H (takePacket op r s) := by
  unfold takePacket
  split
  · exact keep_act h keep_bootProfileApplyCmd
  · split
    · split
      · exact keep_act (keep_noteFailed hc h) (keep_streamEntryWriteCmd hc)
      · exact keep_act h (keep_streamEntryWriteCmd hc)
    · split
      · exact keep_act h (keep_cmdOf hm hf hc hs ‹_›)
      · exact keep_actUndefined h

theorem keep_takeNext {s : State} (hm : H.freeM) (hf : H.freeF) (hc : H.freeC) (hs : H.freeS) (h : Keep H s) : Keep H
    (takeNext s) := by
  unfold takeNext; try dsimp only
  repeat' first
    | with_reducible
      first
      | assumption | apply keep_takePacket | ((conv => arg 2; arg 20); apply keep_upd)
      | ((conv => arg 2; arg 20); apply keep_updc) | exact rfl | exact .inl rfl
    | (with_reducible apply Or.inr); exact Nat.le_of_ble_eq_true rfl | with_reducible intro _ | dsimp only | split

theorem keep_arrive {op : Nat} {r : Req} {own pool : Nat} {s : State} (hm : H.freeM) (hf : H.freeF) (hc : H.freeC)
    (hs : H.freeS) (h : Keep H s) : Keep H (arrive op r own pool s) := by
  unfold arrive
  split
  · split
    · exact keep_reachHeld hm hf hc hs (keep_serve (keep_cmdOf hm hf hc hs ‹_›) h)
    · exact h
  · split
    · exact h
    · dsimp only
      split
      · exact keep_queueIn (keep_State_bump h)
      · exact keep_frontBusy (keep_State_bump h)

theorem keep_packetIn {src : SourceId} {sa : Nat} {bs : List Byte} {own : Nat} {pool : Nat} {s : State} (hm : H.freeM)
    (hf : H.freeF) (hc : H.freeC) (hs : H.freeS) (h : Keep H s) : Keep H (packetIn src sa bs own pool s) := by
  unfold packetIn; try dsimp only
  repeat' first
    | with_reducible
      first
      | assumption | apply keep_State_bump | apply keep_arrive
    | with_reducible intro _ | dsimp only | split

theorem keep_execMbxDoorbellSubmit {s : State} (hm : H.freeM) (hf : H.freeF) (hc : H.freeC) (hs : H.freeS) (h : Keep H s)
    : KeepO H (execMbxDoorbellSubmit s) := by
  unfold execMbxDoorbellSubmit; try dsimp only
  apply keepO_next
  repeat' first
    | with_reducible
      first
      | assumption | apply keep_packetIn | ((conv => arg 2; arg 20); apply keep_upd)
      | ((conv => arg 2; arg 20); apply keep_updc) | exact rfl | exact .inl rfl
    | (with_reducible apply Or.inr); exact Nat.le_of_ble_eq_true rfl | with_reducible intro _ | dsimp only | split

theorem keep_idle {s : State} (hm : H.freeM) (hf : H.freeF) (hc : H.freeC) (hs : H.freeS) (h : Keep H s) : Keep H (idle
    s) := by
  unfold idle; try dsimp only
  repeat' first
    | with_reducible
      first
      | assumption | apply keep_takeNext | apply keep_lpiSettle | apply keep_eachN
      | ((conv => arg 2; arg 20); apply keep_upd) | ((conv => arg 2; arg 20); apply keep_updc) | exact rfl
      | exact .inl rfl
    | (with_reducible apply Or.inr); exact Nat.le_of_ble_eq_true rfl | with_reducible intro _ | dsimp only | split

theorem keep_takeTokens {s : State} {k : Nat} {n : Nat} (h : Keep H s) : Keep H (takeTokens s k n) := by
  unfold takeTokens; try dsimp only
  repeat' first
    | with_reducible
      first
      | assumption | ((conv => arg 2; arg 20); apply keep_upd) | exact rfl | exact .inl rfl
    | (with_reducible apply Or.inr); exact Nat.le_of_ble_eq_true rfl | dsimp only | split

theorem keep_commandFrame {s : State} {k : Fin 64} {bs : List Byte} (hm : H.freeM) (hf : H.freeF) (hc : H.freeC) (hs
    : H.freeS) (h : Keep H s) : Keep H (commandFrame s k bs) := by
  unfold commandFrame; try dsimp only
  repeat' first
    | with_reducible
      first
      | assumption | apply keep_State_bump | apply keep_packetIn | apply keep_takeTokens
    | dsimp only | split

theorem keep_countRx {s : State} {pos : Nat} {outcome : Nat} {bs : List Byte} (h : Keep H s)
    : Keep H (countRx s pos outcome bs) := by
  unfold countRx; try dsimp only
  repeat' first
    | with_reducible
      first
      | assumption | apply keep_State_bump | apply keep_State_bumpBy
    | dsimp only | split

theorem keep_countFrags {s : State} {p : Nat} {outcome : Nat} {x : RxFrame} (h : Keep H s)
    : Keep H (countFrags s p outcome x) := by
  unfold countFrags; try dsimp only
  repeat' first
    | with_reducible
      first
      | assumption | apply keep_State_bumpBy | apply keep_State_bump
    | dsimp only | split

theorem keep_checkFrame {s : State} {p : Nat} {x : RxFrame} (h : Keep H s) : Keep H (checkFrame s p x) := by
  unfold checkFrame; try dsimp only
  repeat' first
    | with_reducible
      first
      | assumption | apply keep_State_bumpBy | apply keep_State_bump | apply keep_State_updPort
    | with_reducible intro _ | dsimp only | split

theorem keep_testRx {s : State} {p : Nat} {x : RxFrame} (h : Keep H s) : Keep H (testRx s p x) := by
  unfold testRx; try dsimp only
  repeat' first
    | with_reducible
      first
      | assumption | apply keep_checkFrame
    | dsimp only | split

theorem keep_slackFrame {s : State} {p : Nat} {bs : List Byte} (h : Keep H s) : Keep H (slackFrame s p bs) := by
  unfold slackFrame; try dsimp only
  repeat' first
    | with_reducible
      first
      | assumption | apply keep_slackIn
    | with_reducible intro _ | dsimp only | split

theorem keep_goodFrame {s : State} {pos : Nat} {x : RxFrame} (hm : H.freeM) (hf : H.freeF) (hc : H.freeC) (hs : H.freeS) (h
    : Keep H s) : Keep H (goodFrame s pos x) := by
  unfold goodFrame; try dsimp only
  repeat' first
    | with_reducible
      first
      | assumption | apply keep_countRx | apply keep_slackFrame | apply keep_commandFrame | apply keep_ingressFrame
    | dsimp only | split

theorem keep_badFrame {s : State} {pos : Nat} {outcome : Nat} {x : RxFrame} (h : Keep H s)
    : Keep H (badFrame s pos outcome x) := by
  unfold badFrame; try dsimp only
  repeat' first
    | with_reducible
      first
      | assumption | apply keep_countRx | apply keep_ingressFrame
    | dsimp only | split

theorem keep_mgmtFrame {s : State} {x : RxFrame} (hm : H.freeM) (hf : H.freeF) (hc : H.freeC) (hs : H.freeS) (h : Keep H
    s) : Keep H (mgmtFrame s x) := by
  unfold mgmtFrame; try dsimp only
  repeat' first
    | with_reducible
      first
      | assumption | apply keep_packetIn
    | with_reducible intro _ | dsimp only | split

theorem keep_cutRx {s : State} {pos : Nat} {x : RxFrame} (h : Keep H s) : Keep H (cutRx s pos x) := by
  unfold cutRx; try dsimp only
  repeat' first
    | with_reducible
      first
      | assumption | apply keep_countRx | apply keep_State_updPort | apply keep_State_updLink
      | ((conv => arg 2; arg 20); apply keep_upd) | exact rfl | exact .inl rfl
    | (with_reducible apply Or.inr); exact Nat.le_of_ble_eq_true rfl | with_reducible intro _ | dsimp only | split

theorem keep_packetRx1 {s : State} {pos : Nat} {x : RxFrame} (h : Keep H s) : Keep H (packetRx s pos x).1 := by
  unfold packetRx; try dsimp only
  repeat' first
    | with_reducible
      first
      | assumption | apply keep_updVs | ((conv => arg 2; arg 20); apply keep_upd) | exact rfl | exact .inl rfl
    | (with_reducible apply Or.inr); exact Nat.le_of_ble_eq_true rfl | with_reducible intro _ | dsimp only | split

theorem keep_packetRx {s : State} {pos : Nat} {x : RxFrame} {out : State} {snd : _} (h : Keep H s)
    (e : packetRx s pos x = (out, snd)) : Keep H out := by
  have k := keep_packetRx1 (H := H) (h := h) (pos := pos) (x := x)
  rw [e] at k; exact k

theorem keep_liveRx {s : State} {pos : Nat} {x : RxFrame} (hm : H.freeM) (hf : H.freeF) (hc : H.freeC) (hs : H.freeS) (h
    : Keep H s) : Keep H (liveRx s pos x) := by
  unfold liveRx; try dsimp only
  repeat' first
    | with_reducible
      first
      | assumption | apply keep_packetRx1 | apply keep_State_bump | apply keep_countFrags | apply keep_goodFrame
      | apply keep_badFrame
    | refine keep_packetRx (e := by assumption) ?_ | with_reducible intro _ | dsimp only | split

theorem keep_execFrameRx {pos : Fin 193} {x : RxFrame} {s : State} (hm : H.freeM) (hf : H.freeF) (hc : H.freeC) (hs :
    H.freeS) (h : Keep H s) : KeepO H (execFrameRx pos x s) := by
  unfold execFrameRx; try dsimp only
  apply keepO_next
  repeat' first
    | with_reducible
      first
      | assumption | apply keep_mgmtFrame | apply keep_testRx | apply keep_cutRx | apply keep_mdArm
      | apply keep_mdFrame | apply keep_liveRx
    | with_reducible intro _ | dsimp only | split

end Sys2Proof.Machine
end

