-- ==== Sys2Proof/Laws/State.lean ====
section
/-! SUPPORT. Laws of the record updates: for each update, what every field of the state reads as after it; and what queueing an
event, or changing a port, leaves. -/

namespace Sys2Proof.Machine

/-! ### `State.bumpBy` -/

@[simp] theorem State.bumpBy_pending (s : State) (op blk idx n : Nat) : (s.bumpBy op blk idx n).pending = s.pending := rfl
@[simp] theorem State.bumpBy_now (s : State) (op blk idx n : Nat) : (s.bumpBy op blk idx n).now = s.now := rfl
@[simp] theorem State.bumpBy_freeCtr (s : State) (op blk idx n : Nat) : (s.bumpBy op blk idx n).freeCtr = s.freeCtr := rfl
@[simp] theorem State.bumpBy_ctl (s : State) (op blk idx n : Nat) : (s.bumpBy op blk idx n).ctl = s.ctl := rfl
@[simp] theorem State.bumpBy_fuses (s : State) (op blk idx n : Nat) : (s.bumpBy op blk idx n).fuses = s.fuses := rfl
@[simp] theorem State.bumpBy_cfg (s : State) (op blk idx n : Nat) : (s.bumpBy op blk idx n).cfg = s.cfg := rfl
@[simp] theorem State.bumpBy_epoch (s : State) (op blk idx n : Nat) : (s.bumpBy op blk idx n).epoch = s.epoch := rfl
@[simp] theorem State.bumpBy_modeJobs (s : State) (op blk idx n : Nat) : (s.bumpBy op blk idx n).modeJobs = s.modeJobs := rfl
@[simp] theorem State.bumpBy_counters (s : State) (op blk idx n : Nat) : (s.bumpBy op blk idx n).counters = s.counters.upd 0 (ckey op blk idx) fun v => (v + n) % 2 ^ 64 := rfl
@[simp] theorem State.bumpBy_cleared (s : State) (op blk idx n : Nat) : (s.bumpBy op blk idx n).cleared = s.cleared := rfl
@[simp] theorem State.bumpBy_integ (s : State) (op blk idx n : Nat) : (s.bumpBy op blk idx n).integ = s.integ := rfl
@[simp] theorem State.bumpBy_clk (s : State) (op blk idx n : Nat) : (s.bumpBy op blk idx n).clk = s.clk := rfl
@[simp] theorem State.bumpBy_rst (s : State) (op blk idx n : Nat) : (s.bumpBy op blk idx n).rst = s.rst := rfl
@[simp] theorem State.bumpBy_nvm (s : State) (op blk idx n : Nat) : (s.bumpBy op blk idx n).nvm = s.nvm := rfl
@[simp] theorem State.bumpBy_calib (s : State) (op blk idx n : Nat) : (s.bumpBy op blk idx n).calib = s.calib := rfl
@[simp] theorem State.bumpBy_stest (s : State) (op blk idx n : Nat) : (s.bumpBy op blk idx n).stest = s.stest := rfl
@[simp] theorem State.bumpBy_elec (s : State) (op blk idx n : Nat) : (s.bumpBy op blk idx n).elec = s.elec := rfl
@[simp] theorem State.bumpBy_ports (s : State) (op blk idx n : Nat) : (s.bumpBy op blk idx n).ports = s.ports := rfl
@[simp] theorem State.bumpBy_relinks (s : State) (op blk idx n : Nat) : (s.bumpBy op blk idx n).relinks = s.relinks := rfl
@[simp] theorem State.bumpBy_baselines (s : State) (op blk idx n : Nat) : (s.bumpBy op blk idx n).baselines = s.baselines := rfl
@[simp] theorem State.bumpBy_power (s : State) (op blk idx n : Nat) : (s.bumpBy op blk idx n).power = s.power := rfl
@[simp] theorem State.bumpBy_coves (s : State) (op blk idx n : Nat) : (s.bumpBy op blk idx n).coves = s.coves := rfl
@[simp] theorem State.bumpBy_lanes (s : State) (op blk idx n : Nat) : (s.bumpBy op blk idx n).lanes = s.lanes := rfl
@[simp] theorem State.bumpBy_links (s : State) (op blk idx n : Nat) : (s.bumpBy op blk idx n).links = s.links := rfl
@[simp] theorem State.bumpBy_ebbJobs (s : State) (op blk idx n : Nat) : (s.bumpBy op blk idx n).ebbJobs = s.ebbJobs := rfl
@[simp] theorem State.bumpBy_fabric (s : State) (op blk idx n : Nat) : (s.bumpBy op blk idx n).fabric = s.fabric := rfl
@[simp] theorem State.bumpBy_strm (s : State) (op blk idx n : Nat) : (s.bumpBy op blk idx n).strm = s.strm := rfl
@[simp] theorem State.bumpBy_tide (s : State) (op blk idx n : Nat) : (s.bumpBy op blk idx n).tide = s.tide := rfl

/-! ### `State.bump` -/

@[simp] theorem State.bump_pending (s : State) (op blk idx : Nat) : (s.bump op blk idx).pending = s.pending := rfl
@[simp] theorem State.bump_now (s : State) (op blk idx : Nat) : (s.bump op blk idx).now = s.now := rfl
@[simp] theorem State.bump_freeCtr (s : State) (op blk idx : Nat) : (s.bump op blk idx).freeCtr = s.freeCtr := rfl
@[simp] theorem State.bump_ctl (s : State) (op blk idx : Nat) : (s.bump op blk idx).ctl = s.ctl := rfl
@[simp] theorem State.bump_fuses (s : State) (op blk idx : Nat) : (s.bump op blk idx).fuses = s.fuses := rfl
@[simp] theorem State.bump_cfg (s : State) (op blk idx : Nat) : (s.bump op blk idx).cfg = s.cfg := rfl
@[simp] theorem State.bump_epoch (s : State) (op blk idx : Nat) : (s.bump op blk idx).epoch = s.epoch := rfl
@[simp] theorem State.bump_modeJobs (s : State) (op blk idx : Nat) : (s.bump op blk idx).modeJobs = s.modeJobs := rfl
@[simp] theorem State.bump_counters (s : State) (op blk idx : Nat) : (s.bump op blk idx).counters = s.counters.upd 0 (ckey op blk idx) fun v => (v + 1) % 2 ^ 64 := rfl
@[simp] theorem State.bump_cleared (s : State) (op blk idx : Nat) : (s.bump op blk idx).cleared = s.cleared := rfl
@[simp] theorem State.bump_integ (s : State) (op blk idx : Nat) : (s.bump op blk idx).integ = s.integ := rfl
@[simp] theorem State.bump_clk (s : State) (op blk idx : Nat) : (s.bump op blk idx).clk = s.clk := rfl
@[simp] theorem State.bump_rst (s : State) (op blk idx : Nat) : (s.bump op blk idx).rst = s.rst := rfl
@[simp] theorem State.bump_nvm (s : State) (op blk idx : Nat) : (s.bump op blk idx).nvm = s.nvm := rfl
@[simp] theorem State.bump_calib (s : State) (op blk idx : Nat) : (s.bump op blk idx).calib = s.calib := rfl
@[simp] theorem State.bump_stest (s : State) (op blk idx : Nat) : (s.bump op blk idx).stest = s.stest := rfl
@[simp] theorem State.bump_elec (s : State) (op blk idx : Nat) : (s.bump op blk idx).elec = s.elec := rfl
@[simp] theorem State.bump_ports (s : State) (op blk idx : Nat) : (s.bump op blk idx).ports = s.ports := rfl
@[simp] theorem State.bump_relinks (s : State) (op blk idx : Nat) : (s.bump op blk idx).relinks = s.relinks := rfl
@[simp] theorem State.bump_baselines (s : State) (op blk idx : Nat) : (s.bump op blk idx).baselines = s.baselines := rfl
@[simp] theorem State.bump_power (s : State) (op blk idx : Nat) : (s.bump op blk idx).power = s.power := rfl
@[simp] theorem State.bump_coves (s : State) (op blk idx : Nat) : (s.bump op blk idx).coves = s.coves := rfl
@[simp] theorem State.bump_lanes (s : State) (op blk idx : Nat) : (s.bump op blk idx).lanes = s.lanes := rfl
@[simp] theorem State.bump_links (s : State) (op blk idx : Nat) : (s.bump op blk idx).links = s.links := rfl
@[simp] theorem State.bump_ebbJobs (s : State) (op blk idx : Nat) : (s.bump op blk idx).ebbJobs = s.ebbJobs := rfl
@[simp] theorem State.bump_fabric (s : State) (op blk idx : Nat) : (s.bump op blk idx).fabric = s.fabric := rfl
@[simp] theorem State.bump_strm (s : State) (op blk idx : Nat) : (s.bump op blk idx).strm = s.strm := rfl
@[simp] theorem State.bump_tide (s : State) (op blk idx : Nat) : (s.bump op blk idx).tide = s.tide := rfl

/-! ### `State.draw` -/

@[simp] theorem State.draw_pending (s : State) : (s.draw).pending = s.pending := rfl
@[simp] theorem State.draw_now (s : State) : (s.draw).now = s.now := rfl
@[simp] theorem State.draw_freeCtr (s : State) : (s.draw).freeCtr = s.freeCtr + 1 := rfl
@[simp] theorem State.draw_ctl (s : State) : (s.draw).ctl = s.ctl := rfl
@[simp] theorem State.draw_fuses (s : State) : (s.draw).fuses = s.fuses := rfl
@[simp] theorem State.draw_cfg (s : State) : (s.draw).cfg = s.cfg := rfl
@[simp] theorem State.draw_epoch (s : State) : (s.draw).epoch = s.epoch := rfl
@[simp] theorem State.draw_modeJobs (s : State) : (s.draw).modeJobs = s.modeJobs := rfl
@[simp] theorem State.draw_counters (s : State) : (s.draw).counters = s.counters := rfl
@[simp] theorem State.draw_cleared (s : State) : (s.draw).cleared = s.cleared := rfl
@[simp] theorem State.draw_integ (s : State) : (s.draw).integ = s.integ := rfl
@[simp] theorem State.draw_clk (s : State) : (s.draw).clk = s.clk := rfl
@[simp] theorem State.draw_rst (s : State) : (s.draw).rst = s.rst := rfl
@[simp] theorem State.draw_nvm (s : State) : (s.draw).nvm = s.nvm := rfl
@[simp] theorem State.draw_calib (s : State) : (s.draw).calib = s.calib := rfl
@[simp] theorem State.draw_stest (s : State) : (s.draw).stest = s.stest := rfl
@[simp] theorem State.draw_elec (s : State) : (s.draw).elec = s.elec := rfl
@[simp] theorem State.draw_ports (s : State) : (s.draw).ports = s.ports := rfl
@[simp] theorem State.draw_relinks (s : State) : (s.draw).relinks = s.relinks := rfl
@[simp] theorem State.draw_baselines (s : State) : (s.draw).baselines = s.baselines := rfl
@[simp] theorem State.draw_power (s : State) : (s.draw).power = s.power := rfl
@[simp] theorem State.draw_coves (s : State) : (s.draw).coves = s.coves := rfl
@[simp] theorem State.draw_lanes (s : State) : (s.draw).lanes = s.lanes := rfl
@[simp] theorem State.draw_links (s : State) : (s.draw).links = s.links := rfl
@[simp] theorem State.draw_ebbJobs (s : State) : (s.draw).ebbJobs = s.ebbJobs := rfl
@[simp] theorem State.draw_fabric (s : State) : (s.draw).fabric = s.fabric := rfl
@[simp] theorem State.draw_strm (s : State) : (s.draw).strm = s.strm := rfl
@[simp] theorem State.draw_tide (s : State) : (s.draw).tide = s.tide := rfl

/-! ### `State.updPort` -/

@[simp] theorem State.updPort_pending (s : State) (p : Nat) (f : Port → Port) : (s.updPort p f).pending = s.pending := rfl
@[simp] theorem State.updPort_now (s : State) (p : Nat) (f : Port → Port) : (s.updPort p f).now = s.now := rfl
@[simp] theorem State.updPort_freeCtr (s : State) (p : Nat) (f : Port → Port) : (s.updPort p f).freeCtr = s.freeCtr := rfl
@[simp] theorem State.updPort_ctl (s : State) (p : Nat) (f : Port → Port) : (s.updPort p f).ctl = s.ctl := rfl
@[simp] theorem State.updPort_fuses (s : State) (p : Nat) (f : Port → Port) : (s.updPort p f).fuses = s.fuses := rfl
@[simp] theorem State.updPort_cfg (s : State) (p : Nat) (f : Port → Port) : (s.updPort p f).cfg = s.cfg := rfl
@[simp] theorem State.updPort_epoch (s : State) (p : Nat) (f : Port → Port) : (s.updPort p f).epoch = s.epoch := rfl
@[simp] theorem State.updPort_modeJobs (s : State) (p : Nat) (f : Port → Port) : (s.updPort p f).modeJobs = s.modeJobs := rfl
@[simp] theorem State.updPort_counters (s : State) (p : Nat) (f : Port → Port) : (s.updPort p f).counters = s.counters := rfl
@[simp] theorem State.updPort_cleared (s : State) (p : Nat) (f : Port → Port) : (s.updPort p f).cleared = s.cleared := rfl
@[simp] theorem State.updPort_integ (s : State) (p : Nat) (f : Port → Port) : (s.updPort p f).integ = s.integ := rfl
@[simp] theorem State.updPort_clk (s : State) (p : Nat) (f : Port → Port) : (s.updPort p f).clk = s.clk := rfl
@[simp] theorem State.updPort_rst (s : State) (p : Nat) (f : Port → Port) : (s.updPort p f).rst = s.rst := rfl
@[simp] theorem State.updPort_nvm (s : State) (p : Nat) (f : Port → Port) : (s.updPort p f).nvm = s.nvm := rfl
@[simp] theorem State.updPort_calib (s : State) (p : Nat) (f : Port → Port) : (s.updPort p f).calib = s.calib := rfl
@[simp] theorem State.updPort_stest (s : State) (p : Nat) (f : Port → Port) : (s.updPort p f).stest = s.stest := rfl
@[simp] theorem State.updPort_elec (s : State) (p : Nat) (f : Port → Port) : (s.updPort p f).elec = s.elec := rfl
@[simp] theorem State.updPort_ports (s : State) (p : Nat) (f : Port → Port) : (s.updPort p f).ports = s.ports.upd {} p f := rfl
@[simp] theorem State.updPort_relinks (s : State) (p : Nat) (f : Port → Port) : (s.updPort p f).relinks = s.relinks := rfl
@[simp] theorem State.updPort_baselines (s : State) (p : Nat) (f : Port → Port) : (s.updPort p f).baselines = s.baselines := rfl
@[simp] theorem State.updPort_power (s : State) (p : Nat) (f : Port → Port) : (s.updPort p f).power = s.power := rfl
@[simp] theorem State.updPort_coves (s : State) (p : Nat) (f : Port → Port) : (s.updPort p f).coves = s.coves := rfl
@[simp] theorem State.updPort_lanes (s : State) (p : Nat) (f : Port → Port) : (s.updPort p f).lanes = s.lanes := rfl
@[simp] theorem State.updPort_links (s : State) (p : Nat) (f : Port → Port) : (s.updPort p f).links = s.links := rfl
@[simp] theorem State.updPort_ebbJobs (s : State) (p : Nat) (f : Port → Port) : (s.updPort p f).ebbJobs = s.ebbJobs := rfl
@[simp] theorem State.updPort_fabric (s : State) (p : Nat) (f : Port → Port) : (s.updPort p f).fabric = s.fabric := rfl
@[simp] theorem State.updPort_strm (s : State) (p : Nat) (f : Port → Port) : (s.updPort p f).strm = s.strm := rfl
@[simp] theorem State.updPort_tide (s : State) (p : Nat) (f : Port → Port) : (s.updPort p f).tide = s.tide := rfl

/-! ### `State.updPcfg` -/

@[simp] theorem State.updPcfg_pending (s : State) (p : Nat) (f : PortCfg → PortCfg) : (s.updPcfg p f).pending = s.pending := rfl
@[simp] theorem State.updPcfg_now (s : State) (p : Nat) (f : PortCfg → PortCfg) : (s.updPcfg p f).now = s.now := rfl
@[simp] theorem State.updPcfg_freeCtr (s : State) (p : Nat) (f : PortCfg → PortCfg) : (s.updPcfg p f).freeCtr = s.freeCtr := rfl
@[simp] theorem State.updPcfg_ctl (s : State) (p : Nat) (f : PortCfg → PortCfg) : (s.updPcfg p f).ctl = s.ctl := rfl
@[simp] theorem State.updPcfg_fuses (s : State) (p : Nat) (f : PortCfg → PortCfg) : (s.updPcfg p f).fuses = s.fuses := rfl
@[simp] theorem State.updPcfg_cfg (s : State) (p : Nat) (f : PortCfg → PortCfg) : (s.updPcfg p f).cfg = { s.cfg with ports := s.cfg.ports.upd {} p f } := rfl
@[simp] theorem State.updPcfg_epoch (s : State) (p : Nat) (f : PortCfg → PortCfg) : (s.updPcfg p f).epoch = s.epoch := rfl
@[simp] theorem State.updPcfg_modeJobs (s : State) (p : Nat) (f : PortCfg → PortCfg) : (s.updPcfg p f).modeJobs = s.modeJobs := rfl
@[simp] theorem State.updPcfg_counters (s : State) (p : Nat) (f : PortCfg → PortCfg) : (s.updPcfg p f).counters = s.counters := rfl
@[simp] theorem State.updPcfg_cleared (s : State) (p : Nat) (f : PortCfg → PortCfg) : (s.updPcfg p f).cleared = s.cleared := rfl
@[simp] theorem State.updPcfg_integ (s : State) (p : Nat) (f : PortCfg → PortCfg) : (s.updPcfg p f).integ = s.integ := rfl
@[simp] theorem State.updPcfg_clk (s : State) (p : Nat) (f : PortCfg → PortCfg) : (s.updPcfg p f).clk = s.clk := rfl
@[simp] theorem State.updPcfg_rst (s : State) (p : Nat) (f : PortCfg → PortCfg) : (s.updPcfg p f).rst = s.rst := rfl
@[simp] theorem State.updPcfg_nvm (s : State) (p : Nat) (f : PortCfg → PortCfg) : (s.updPcfg p f).nvm = s.nvm := rfl
@[simp] theorem State.updPcfg_calib (s : State) (p : Nat) (f : PortCfg → PortCfg) : (s.updPcfg p f).calib = s.calib := rfl
@[simp] theorem State.updPcfg_stest (s : State) (p : Nat) (f : PortCfg → PortCfg) : (s.updPcfg p f).stest = s.stest := rfl
@[simp] theorem State.updPcfg_elec (s : State) (p : Nat) (f : PortCfg → PortCfg) : (s.updPcfg p f).elec = s.elec := rfl
@[simp] theorem State.updPcfg_ports (s : State) (p : Nat) (f : PortCfg → PortCfg) : (s.updPcfg p f).ports = s.ports := rfl
@[simp] theorem State.updPcfg_relinks (s : State) (p : Nat) (f : PortCfg → PortCfg) : (s.updPcfg p f).relinks = s.relinks := rfl
@[simp] theorem State.updPcfg_baselines (s : State) (p : Nat) (f : PortCfg → PortCfg) : (s.updPcfg p f).baselines = s.baselines := rfl
@[simp] theorem State.updPcfg_power (s : State) (p : Nat) (f : PortCfg → PortCfg) : (s.updPcfg p f).power = s.power := rfl
@[simp] theorem State.updPcfg_coves (s : State) (p : Nat) (f : PortCfg → PortCfg) : (s.updPcfg p f).coves = s.coves := rfl
@[simp] theorem State.updPcfg_lanes (s : State) (p : Nat) (f : PortCfg → PortCfg) : (s.updPcfg p f).lanes = s.lanes := rfl
@[simp] theorem State.updPcfg_links (s : State) (p : Nat) (f : PortCfg → PortCfg) : (s.updPcfg p f).links = s.links := rfl
@[simp] theorem State.updPcfg_ebbJobs (s : State) (p : Nat) (f : PortCfg → PortCfg) : (s.updPcfg p f).ebbJobs = s.ebbJobs := rfl
@[simp] theorem State.updPcfg_fabric (s : State) (p : Nat) (f : PortCfg → PortCfg) : (s.updPcfg p f).fabric = s.fabric := rfl
@[simp] theorem State.updPcfg_strm (s : State) (p : Nat) (f : PortCfg → PortCfg) : (s.updPcfg p f).strm = s.strm := rfl
@[simp] theorem State.updPcfg_tide (s : State) (p : Nat) (f : PortCfg → PortCfg) : (s.updPcfg p f).tide = s.tide := rfl

/-! ### `State.updLane` -/

@[simp] theorem State.updLane_pending (s : State) (m : Nat) (f : Lane → Lane) : (s.updLane m f).pending = s.pending := rfl
@[simp] theorem State.updLane_now (s : State) (m : Nat) (f : Lane → Lane) : (s.updLane m f).now = s.now := rfl
@[simp] theorem State.updLane_freeCtr (s : State) (m : Nat) (f : Lane → Lane) : (s.updLane m f).freeCtr = s.freeCtr := rfl
@[simp] theorem State.updLane_ctl (s : State) (m : Nat) (f : Lane → Lane) : (s.updLane m f).ctl = s.ctl := rfl
@[simp] theorem State.updLane_fuses (s : State) (m : Nat) (f : Lane → Lane) : (s.updLane m f).fuses = s.fuses := rfl
@[simp] theorem State.updLane_cfg (s : State) (m : Nat) (f : Lane → Lane) : (s.updLane m f).cfg = s.cfg := rfl
@[simp] theorem State.updLane_epoch (s : State) (m : Nat) (f : Lane → Lane) : (s.updLane m f).epoch = s.epoch := rfl
@[simp] theorem State.updLane_modeJobs (s : State) (m : Nat) (f : Lane → Lane) : (s.updLane m f).modeJobs = s.modeJobs := rfl
@[simp] theorem State.updLane_counters (s : State) (m : Nat) (f : Lane → Lane) : (s.updLane m f).counters = s.counters := rfl
@[simp] theorem State.updLane_cleared (s : State) (m : Nat) (f : Lane → Lane) : (s.updLane m f).cleared = s.cleared := rfl
@[simp] theorem State.updLane_integ (s : State) (m : Nat) (f : Lane → Lane) : (s.updLane m f).integ = s.integ := rfl
@[simp] theorem State.updLane_clk (s : State) (m : Nat) (f : Lane → Lane) : (s.updLane m f).clk = s.clk := rfl
@[simp] theorem State.updLane_rst (s : State) (m : Nat) (f : Lane → Lane) : (s.updLane m f).rst = s.rst := rfl
@[simp] theorem State.updLane_nvm (s : State) (m : Nat) (f : Lane → Lane) : (s.updLane m f).nvm = s.nvm := rfl
@[simp] theorem State.updLane_calib (s : State) (m : Nat) (f : Lane → Lane) : (s.updLane m f).calib = s.calib := rfl
@[simp] theorem State.updLane_stest (s : State) (m : Nat) (f : Lane → Lane) : (s.updLane m f).stest = s.stest := rfl
@[simp] theorem State.updLane_elec (s : State) (m : Nat) (f : Lane → Lane) : (s.updLane m f).elec = s.elec := rfl
@[simp] theorem State.updLane_ports (s : State) (m : Nat) (f : Lane → Lane) : (s.updLane m f).ports = s.ports := rfl
@[simp] theorem State.updLane_relinks (s : State) (m : Nat) (f : Lane → Lane) : (s.updLane m f).relinks = s.relinks := rfl
@[simp] theorem State.updLane_baselines (s : State) (m : Nat) (f : Lane → Lane) : (s.updLane m f).baselines = s.baselines := rfl
@[simp] theorem State.updLane_power (s : State) (m : Nat) (f : Lane → Lane) : (s.updLane m f).power = s.power := rfl
@[simp] theorem State.updLane_coves (s : State) (m : Nat) (f : Lane → Lane) : (s.updLane m f).coves = s.coves := rfl
@[simp] theorem State.updLane_lanes (s : State) (m : Nat) (f : Lane → Lane) : (s.updLane m f).lanes = s.lanes.upd {} m f := rfl
@[simp] theorem State.updLane_links (s : State) (m : Nat) (f : Lane → Lane) : (s.updLane m f).links = s.links := rfl
@[simp] theorem State.updLane_ebbJobs (s : State) (m : Nat) (f : Lane → Lane) : (s.updLane m f).ebbJobs = s.ebbJobs := rfl
@[simp] theorem State.updLane_fabric (s : State) (m : Nat) (f : Lane → Lane) : (s.updLane m f).fabric = s.fabric := rfl
@[simp] theorem State.updLane_strm (s : State) (m : Nat) (f : Lane → Lane) : (s.updLane m f).strm = s.strm := rfl
@[simp] theorem State.updLane_tide (s : State) (m : Nat) (f : Lane → Lane) : (s.updLane m f).tide = s.tide := rfl

/-! ### `State.updLink` -/

@[simp] theorem State.updLink_pending (s : State) (k : Nat) (f : Link → Link) : (s.updLink k f).pending = s.pending := rfl
@[simp] theorem State.updLink_now (s : State) (k : Nat) (f : Link → Link) : (s.updLink k f).now = s.now := rfl
@[simp] theorem State.updLink_freeCtr (s : State) (k : Nat) (f : Link → Link) : (s.updLink k f).freeCtr = s.freeCtr := rfl
@[simp] theorem State.updLink_ctl (s : State) (k : Nat) (f : Link → Link) : (s.updLink k f).ctl = s.ctl := rfl
@[simp] theorem State.updLink_fuses (s : State) (k : Nat) (f : Link → Link) : (s.updLink k f).fuses = s.fuses := rfl
@[simp] theorem State.updLink_cfg (s : State) (k : Nat) (f : Link → Link) : (s.updLink k f).cfg = s.cfg := rfl
@[simp] theorem State.updLink_epoch (s : State) (k : Nat) (f : Link → Link) : (s.updLink k f).epoch = s.epoch := rfl
@[simp] theorem State.updLink_modeJobs (s : State) (k : Nat) (f : Link → Link) : (s.updLink k f).modeJobs = s.modeJobs := rfl
@[simp] theorem State.updLink_counters (s : State) (k : Nat) (f : Link → Link) : (s.updLink k f).counters = s.counters := rfl
@[simp] theorem State.updLink_cleared (s : State) (k : Nat) (f : Link → Link) : (s.updLink k f).cleared = s.cleared := rfl
@[simp] theorem State.updLink_integ (s : State) (k : Nat) (f : Link → Link) : (s.updLink k f).integ = s.integ := rfl
@[simp] theorem State.updLink_clk (s : State) (k : Nat) (f : Link → Link) : (s.updLink k f).clk = s.clk := rfl
@[simp] theorem State.updLink_rst (s : State) (k : Nat) (f : Link → Link) : (s.updLink k f).rst = s.rst := rfl
@[simp] theorem State.updLink_nvm (s : State) (k : Nat) (f : Link → Link) : (s.updLink k f).nvm = s.nvm := rfl
@[simp] theorem State.updLink_calib (s : State) (k : Nat) (f : Link → Link) : (s.updLink k f).calib = s.calib := rfl
@[simp] theorem State.updLink_stest (s : State) (k : Nat) (f : Link → Link) : (s.updLink k f).stest = s.stest := rfl
@[simp] theorem State.updLink_elec (s : State) (k : Nat) (f : Link → Link) : (s.updLink k f).elec = s.elec := rfl
@[simp] theorem State.updLink_ports (s : State) (k : Nat) (f : Link → Link) : (s.updLink k f).ports = s.ports := rfl
@[simp] theorem State.updLink_relinks (s : State) (k : Nat) (f : Link → Link) : (s.updLink k f).relinks = s.relinks := rfl
@[simp] theorem State.updLink_baselines (s : State) (k : Nat) (f : Link → Link) : (s.updLink k f).baselines = s.baselines := rfl
@[simp] theorem State.updLink_power (s : State) (k : Nat) (f : Link → Link) : (s.updLink k f).power = s.power := rfl
@[simp] theorem State.updLink_coves (s : State) (k : Nat) (f : Link → Link) : (s.updLink k f).coves = s.coves := rfl
@[simp] theorem State.updLink_lanes (s : State) (k : Nat) (f : Link → Link) : (s.updLink k f).lanes = s.lanes := rfl
@[simp] theorem State.updLink_links (s : State) (k : Nat) (f : Link → Link) : (s.updLink k f).links = s.links.upd {} k f := rfl
@[simp] theorem State.updLink_ebbJobs (s : State) (k : Nat) (f : Link → Link) : (s.updLink k f).ebbJobs = s.ebbJobs := rfl
@[simp] theorem State.updLink_fabric (s : State) (k : Nat) (f : Link → Link) : (s.updLink k f).fabric = s.fabric := rfl
@[simp] theorem State.updLink_strm (s : State) (k : Nat) (f : Link → Link) : (s.updLink k f).strm = s.strm := rfl
@[simp] theorem State.updLink_tide (s : State) (k : Nat) (f : Link → Link) : (s.updLink k f).tide = s.tide := rfl

/-! ### `State.updSlice` -/

@[simp] theorem State.updSlice_pending (s : State) (i : Nat) (f : Slice → Slice) : (s.updSlice i f).pending = s.pending := rfl
@[simp] theorem State.updSlice_now (s : State) (i : Nat) (f : Slice → Slice) : (s.updSlice i f).now = s.now := rfl
@[simp] theorem State.updSlice_freeCtr (s : State) (i : Nat) (f : Slice → Slice) : (s.updSlice i f).freeCtr = s.freeCtr := rfl
@[simp] theorem State.updSlice_ctl (s : State) (i : Nat) (f : Slice → Slice) : (s.updSlice i f).ctl = s.ctl := rfl
@[simp] theorem State.updSlice_fuses (s : State) (i : Nat) (f : Slice → Slice) : (s.updSlice i f).fuses = s.fuses := rfl
@[simp] theorem State.updSlice_cfg (s : State) (i : Nat) (f : Slice → Slice) : (s.updSlice i f).cfg = s.cfg := rfl
@[simp] theorem State.updSlice_epoch (s : State) (i : Nat) (f : Slice → Slice) : (s.updSlice i f).epoch = s.epoch := rfl
@[simp] theorem State.updSlice_modeJobs (s : State) (i : Nat) (f : Slice → Slice) : (s.updSlice i f).modeJobs = s.modeJobs := rfl
@[simp] theorem State.updSlice_counters (s : State) (i : Nat) (f : Slice → Slice) : (s.updSlice i f).counters = s.counters := rfl
@[simp] theorem State.updSlice_cleared (s : State) (i : Nat) (f : Slice → Slice) : (s.updSlice i f).cleared = s.cleared := rfl
@[simp] theorem State.updSlice_integ (s : State) (i : Nat) (f : Slice → Slice) : (s.updSlice i f).integ = s.integ := rfl
@[simp] theorem State.updSlice_clk (s : State) (i : Nat) (f : Slice → Slice) : (s.updSlice i f).clk = s.clk := rfl
@[simp] theorem State.updSlice_rst (s : State) (i : Nat) (f : Slice → Slice) : (s.updSlice i f).rst = s.rst := rfl
@[simp] theorem State.updSlice_nvm (s : State) (i : Nat) (f : Slice → Slice) : (s.updSlice i f).nvm = s.nvm := rfl
@[simp] theorem State.updSlice_calib (s : State) (i : Nat) (f : Slice → Slice) : (s.updSlice i f).calib = s.calib := rfl
@[simp] theorem State.updSlice_stest (s : State) (i : Nat) (f : Slice → Slice) : (s.updSlice i f).stest = s.stest := rfl
@[simp] theorem State.updSlice_elec (s : State) (i : Nat) (f : Slice → Slice) : (s.updSlice i f).elec = s.elec := rfl
@[simp] theorem State.updSlice_ports (s : State) (i : Nat) (f : Slice → Slice) : (s.updSlice i f).ports = s.ports := rfl
@[simp] theorem State.updSlice_relinks (s : State) (i : Nat) (f : Slice → Slice) : (s.updSlice i f).relinks = s.relinks := rfl
@[simp] theorem State.updSlice_baselines (s : State) (i : Nat) (f : Slice → Slice) : (s.updSlice i f).baselines = s.baselines := rfl
@[simp] theorem State.updSlice_power (s : State) (i : Nat) (f : Slice → Slice) : (s.updSlice i f).power = s.power := rfl
@[simp] theorem State.updSlice_coves (s : State) (i : Nat) (f : Slice → Slice) : (s.updSlice i f).coves = s.coves := rfl
@[simp] theorem State.updSlice_lanes (s : State) (i : Nat) (f : Slice → Slice) : (s.updSlice i f).lanes = s.lanes := rfl
@[simp] theorem State.updSlice_links (s : State) (i : Nat) (f : Slice → Slice) : (s.updSlice i f).links = s.links := rfl
@[simp] theorem State.updSlice_ebbJobs (s : State) (i : Nat) (f : Slice → Slice) : (s.updSlice i f).ebbJobs = s.ebbJobs := rfl
@[simp] theorem State.updSlice_fabric (s : State) (i : Nat) (f : Slice → Slice) : (s.updSlice i f).fabric = { s.fabric with slices := s.fabric.slices.upd {} i f } := rfl
@[simp] theorem State.updSlice_strm (s : State) (i : Nat) (f : Slice → Slice) : (s.updSlice i f).strm = s.strm := rfl
@[simp] theorem State.updSlice_tide (s : State) (i : Nat) (f : Slice → Slice) : (s.updSlice i f).tide = s.tide := rfl

/-! ### `State.updEgr` -/

@[simp] theorem State.updEgr_pending (s : State) (e : Nat) (f : Egress → Egress) : (s.updEgr e f).pending = s.pending := rfl
@[simp] theorem State.updEgr_now (s : State) (e : Nat) (f : Egress → Egress) : (s.updEgr e f).now = s.now := rfl
@[simp] theorem State.updEgr_freeCtr (s : State) (e : Nat) (f : Egress → Egress) : (s.updEgr e f).freeCtr = s.freeCtr := rfl
@[simp] theorem State.updEgr_ctl (s : State) (e : Nat) (f : Egress → Egress) : (s.updEgr e f).ctl = s.ctl := rfl
@[simp] theorem State.updEgr_fuses (s : State) (e : Nat) (f : Egress → Egress) : (s.updEgr e f).fuses = s.fuses := rfl
@[simp] theorem State.updEgr_cfg (s : State) (e : Nat) (f : Egress → Egress) : (s.updEgr e f).cfg = s.cfg := rfl
@[simp] theorem State.updEgr_epoch (s : State) (e : Nat) (f : Egress → Egress) : (s.updEgr e f).epoch = s.epoch := rfl
@[simp] theorem State.updEgr_modeJobs (s : State) (e : Nat) (f : Egress → Egress) : (s.updEgr e f).modeJobs = s.modeJobs := rfl
@[simp] theorem State.updEgr_counters (s : State) (e : Nat) (f : Egress → Egress) : (s.updEgr e f).counters = s.counters := rfl
@[simp] theorem State.updEgr_cleared (s : State) (e : Nat) (f : Egress → Egress) : (s.updEgr e f).cleared = s.cleared := rfl
@[simp] theorem State.updEgr_integ (s : State) (e : Nat) (f : Egress → Egress) : (s.updEgr e f).integ = s.integ := rfl
@[simp] theorem State.updEgr_clk (s : State) (e : Nat) (f : Egress → Egress) : (s.updEgr e f).clk = s.clk := rfl
@[simp] theorem State.updEgr_rst (s : State) (e : Nat) (f : Egress → Egress) : (s.updEgr e f).rst = s.rst := rfl
@[simp] theorem State.updEgr_nvm (s : State) (e : Nat) (f : Egress → Egress) : (s.updEgr e f).nvm = s.nvm := rfl
@[simp] theorem State.updEgr_calib (s : State) (e : Nat) (f : Egress → Egress) : (s.updEgr e f).calib = s.calib := rfl
@[simp] theorem State.updEgr_stest (s : State) (e : Nat) (f : Egress → Egress) : (s.updEgr e f).stest = s.stest := rfl
@[simp] theorem State.updEgr_elec (s : State) (e : Nat) (f : Egress → Egress) : (s.updEgr e f).elec = s.elec := rfl
@[simp] theorem State.updEgr_ports (s : State) (e : Nat) (f : Egress → Egress) : (s.updEgr e f).ports = s.ports := rfl
@[simp] theorem State.updEgr_relinks (s : State) (e : Nat) (f : Egress → Egress) : (s.updEgr e f).relinks = s.relinks := rfl
@[simp] theorem State.updEgr_baselines (s : State) (e : Nat) (f : Egress → Egress) : (s.updEgr e f).baselines = s.baselines := rfl
@[simp] theorem State.updEgr_power (s : State) (e : Nat) (f : Egress → Egress) : (s.updEgr e f).power = s.power := rfl
@[simp] theorem State.updEgr_coves (s : State) (e : Nat) (f : Egress → Egress) : (s.updEgr e f).coves = s.coves := rfl
@[simp] theorem State.updEgr_lanes (s : State) (e : Nat) (f : Egress → Egress) : (s.updEgr e f).lanes = s.lanes := rfl
@[simp] theorem State.updEgr_links (s : State) (e : Nat) (f : Egress → Egress) : (s.updEgr e f).links = s.links := rfl
@[simp] theorem State.updEgr_ebbJobs (s : State) (e : Nat) (f : Egress → Egress) : (s.updEgr e f).ebbJobs = s.ebbJobs := rfl
@[simp] theorem State.updEgr_fabric (s : State) (e : Nat) (f : Egress → Egress) : (s.updEgr e f).fabric = { s.fabric with egress := s.fabric.egress.upd {} e f } := rfl
@[simp] theorem State.updEgr_strm (s : State) (e : Nat) (f : Egress → Egress) : (s.updEgr e f).strm = s.strm := rfl
@[simp] theorem State.updEgr_tide (s : State) (e : Nat) (f : Egress → Egress) : (s.updEgr e f).tide = s.tide := rfl

/-! ### `State.updCal` -/

@[simp] theorem State.updCal_pending (s : State) (b : Nat) (f : Cal → Cal) : (s.updCal b f).pending = s.pending := rfl
@[simp] theorem State.updCal_now (s : State) (b : Nat) (f : Cal → Cal) : (s.updCal b f).now = s.now := rfl
@[simp] theorem State.updCal_freeCtr (s : State) (b : Nat) (f : Cal → Cal) : (s.updCal b f).freeCtr = s.freeCtr := rfl
@[simp] theorem State.updCal_ctl (s : State) (b : Nat) (f : Cal → Cal) : (s.updCal b f).ctl = s.ctl := rfl
@[simp] theorem State.updCal_fuses (s : State) (b : Nat) (f : Cal → Cal) : (s.updCal b f).fuses = s.fuses := rfl
@[simp] theorem State.updCal_cfg (s : State) (b : Nat) (f : Cal → Cal) : (s.updCal b f).cfg = s.cfg := rfl
@[simp] theorem State.updCal_epoch (s : State) (b : Nat) (f : Cal → Cal) : (s.updCal b f).epoch = s.epoch := rfl
@[simp] theorem State.updCal_modeJobs (s : State) (b : Nat) (f : Cal → Cal) : (s.updCal b f).modeJobs = s.modeJobs := rfl
@[simp] theorem State.updCal_counters (s : State) (b : Nat) (f : Cal → Cal) : (s.updCal b f).counters = s.counters := rfl
@[simp] theorem State.updCal_cleared (s : State) (b : Nat) (f : Cal → Cal) : (s.updCal b f).cleared = s.cleared := rfl
@[simp] theorem State.updCal_integ (s : State) (b : Nat) (f : Cal → Cal) : (s.updCal b f).integ = s.integ := rfl
@[simp] theorem State.updCal_clk (s : State) (b : Nat) (f : Cal → Cal) : (s.updCal b f).clk = s.clk := rfl
@[simp] theorem State.updCal_rst (s : State) (b : Nat) (f : Cal → Cal) : (s.updCal b f).rst = s.rst := rfl
@[simp] theorem State.updCal_nvm (s : State) (b : Nat) (f : Cal → Cal) : (s.updCal b f).nvm = s.nvm := rfl
@[simp] theorem State.updCal_calib (s : State) (b : Nat) (f : Cal → Cal) : (s.updCal b f).calib = { s.calib with blocks := s.calib.blocks.upd {} b f } := rfl
@[simp] theorem State.updCal_stest (s : State) (b : Nat) (f : Cal → Cal) : (s.updCal b f).stest = s.stest := rfl
@[simp] theorem State.updCal_elec (s : State) (b : Nat) (f : Cal → Cal) : (s.updCal b f).elec = s.elec := rfl
@[simp] theorem State.updCal_ports (s : State) (b : Nat) (f : Cal → Cal) : (s.updCal b f).ports = s.ports := rfl
@[simp] theorem State.updCal_relinks (s : State) (b : Nat) (f : Cal → Cal) : (s.updCal b f).relinks = s.relinks := rfl
@[simp] theorem State.updCal_baselines (s : State) (b : Nat) (f : Cal → Cal) : (s.updCal b f).baselines = s.baselines := rfl
@[simp] theorem State.updCal_power (s : State) (b : Nat) (f : Cal → Cal) : (s.updCal b f).power = s.power := rfl
@[simp] theorem State.updCal_coves (s : State) (b : Nat) (f : Cal → Cal) : (s.updCal b f).coves = s.coves := rfl
@[simp] theorem State.updCal_lanes (s : State) (b : Nat) (f : Cal → Cal) : (s.updCal b f).lanes = s.lanes := rfl
@[simp] theorem State.updCal_links (s : State) (b : Nat) (f : Cal → Cal) : (s.updCal b f).links = s.links := rfl
@[simp] theorem State.updCal_ebbJobs (s : State) (b : Nat) (f : Cal → Cal) : (s.updCal b f).ebbJobs = s.ebbJobs := rfl
@[simp] theorem State.updCal_fabric (s : State) (b : Nat) (f : Cal → Cal) : (s.updCal b f).fabric = s.fabric := rfl
@[simp] theorem State.updCal_strm (s : State) (b : Nat) (f : Cal → Cal) : (s.updCal b f).strm = s.strm := rfl
@[simp] theorem State.updCal_tide (s : State) (b : Nat) (f : Cal → Cal) : (s.updCal b f).tide = s.tide := rfl

/-! ### `updClk` -/

@[simp] theorem updClk_pending (s : State) (f : Clk → Clk) : (updClk s f).pending = s.pending := rfl
@[simp] theorem updClk_now (s : State) (f : Clk → Clk) : (updClk s f).now = s.now := rfl
@[simp] theorem updClk_freeCtr (s : State) (f : Clk → Clk) : (updClk s f).freeCtr = s.freeCtr := rfl
@[simp] theorem updClk_ctl (s : State) (f : Clk → Clk) : (updClk s f).ctl = s.ctl := rfl
@[simp] theorem updClk_fuses (s : State) (f : Clk → Clk) : (updClk s f).fuses = s.fuses := rfl
@[simp] theorem updClk_cfg (s : State) (f : Clk → Clk) : (updClk s f).cfg = s.cfg := rfl
@[simp] theorem updClk_epoch (s : State) (f : Clk → Clk) : (updClk s f).epoch = s.epoch := rfl
@[simp] theorem updClk_modeJobs (s : State) (f : Clk → Clk) : (updClk s f).modeJobs = s.modeJobs := rfl
@[simp] theorem updClk_counters (s : State) (f : Clk → Clk) : (updClk s f).counters = s.counters := rfl
@[simp] theorem updClk_cleared (s : State) (f : Clk → Clk) : (updClk s f).cleared = s.cleared := rfl
@[simp] theorem updClk_integ (s : State) (f : Clk → Clk) : (updClk s f).integ = s.integ := rfl
@[simp] theorem updClk_clk (s : State) (f : Clk → Clk) : (updClk s f).clk = f s.clk := rfl
@[simp] theorem updClk_rst (s : State) (f : Clk → Clk) : (updClk s f).rst = s.rst := rfl
@[simp] theorem updClk_nvm (s : State) (f : Clk → Clk) : (updClk s f).nvm = s.nvm := rfl
@[simp] theorem updClk_calib (s : State) (f : Clk → Clk) : (updClk s f).calib = s.calib := rfl
@[simp] theorem updClk_stest (s : State) (f : Clk → Clk) : (updClk s f).stest = s.stest := rfl
@[simp] theorem updClk_elec (s : State) (f : Clk → Clk) : (updClk s f).elec = s.elec := rfl
@[simp] theorem updClk_ports (s : State) (f : Clk → Clk) : (updClk s f).ports = s.ports := rfl
@[simp] theorem updClk_relinks (s : State) (f : Clk → Clk) : (updClk s f).relinks = s.relinks := rfl
@[simp] theorem updClk_baselines (s : State) (f : Clk → Clk) : (updClk s f).baselines = s.baselines := rfl
@[simp] theorem updClk_power (s : State) (f : Clk → Clk) : (updClk s f).power = s.power := rfl
@[simp] theorem updClk_coves (s : State) (f : Clk → Clk) : (updClk s f).coves = s.coves := rfl
@[simp] theorem updClk_lanes (s : State) (f : Clk → Clk) : (updClk s f).lanes = s.lanes := rfl
@[simp] theorem updClk_links (s : State) (f : Clk → Clk) : (updClk s f).links = s.links := rfl
@[simp] theorem updClk_ebbJobs (s : State) (f : Clk → Clk) : (updClk s f).ebbJobs = s.ebbJobs := rfl
@[simp] theorem updClk_fabric (s : State) (f : Clk → Clk) : (updClk s f).fabric = s.fabric := rfl
@[simp] theorem updClk_strm (s : State) (f : Clk → Clk) : (updClk s f).strm = s.strm := rfl
@[simp] theorem updClk_tide (s : State) (f : Clk → Clk) : (updClk s f).tide = s.tide := rfl

/-! ### `updPower` -/

@[simp] theorem updPower_pending (s : State) (f : DevPower → DevPower) : (updPower s f).pending = s.pending := rfl
@[simp] theorem updPower_now (s : State) (f : DevPower → DevPower) : (updPower s f).now = s.now := rfl
@[simp] theorem updPower_freeCtr (s : State) (f : DevPower → DevPower) : (updPower s f).freeCtr = s.freeCtr := rfl
@[simp] theorem updPower_ctl (s : State) (f : DevPower → DevPower) : (updPower s f).ctl = s.ctl := rfl
@[simp] theorem updPower_fuses (s : State) (f : DevPower → DevPower) : (updPower s f).fuses = s.fuses := rfl
@[simp] theorem updPower_cfg (s : State) (f : DevPower → DevPower) : (updPower s f).cfg = s.cfg := rfl
@[simp] theorem updPower_epoch (s : State) (f : DevPower → DevPower) : (updPower s f).epoch = s.epoch := rfl
@[simp] theorem updPower_modeJobs (s : State) (f : DevPower → DevPower) : (updPower s f).modeJobs = s.modeJobs := rfl
@[simp] theorem updPower_counters (s : State) (f : DevPower → DevPower) : (updPower s f).counters = s.counters := rfl
@[simp] theorem updPower_cleared (s : State) (f : DevPower → DevPower) : (updPower s f).cleared = s.cleared := rfl
@[simp] theorem updPower_integ (s : State) (f : DevPower → DevPower) : (updPower s f).integ = s.integ := rfl
@[simp] theorem updPower_clk (s : State) (f : DevPower → DevPower) : (updPower s f).clk = s.clk := rfl
@[simp] theorem updPower_rst (s : State) (f : DevPower → DevPower) : (updPower s f).rst = s.rst := rfl
@[simp] theorem updPower_nvm (s : State) (f : DevPower → DevPower) : (updPower s f).nvm = s.nvm := rfl
@[simp] theorem updPower_calib (s : State) (f : DevPower → DevPower) : (updPower s f).calib = s.calib := rfl
@[simp] theorem updPower_stest (s : State) (f : DevPower → DevPower) : (updPower s f).stest = s.stest := rfl
@[simp] theorem updPower_elec (s : State) (f : DevPower → DevPower) : (updPower s f).elec = s.elec := rfl
@[simp] theorem updPower_ports (s : State) (f : DevPower → DevPower) : (updPower s f).ports = s.ports := rfl
@[simp] theorem updPower_relinks (s : State) (f : DevPower → DevPower) : (updPower s f).relinks = s.relinks := rfl
@[simp] theorem updPower_baselines (s : State) (f : DevPower → DevPower) : (updPower s f).baselines = s.baselines := rfl
@[simp] theorem updPower_power (s : State) (f : DevPower → DevPower) : (updPower s f).power = f s.power := rfl
@[simp] theorem updPower_coves (s : State) (f : DevPower → DevPower) : (updPower s f).coves = s.coves := rfl
@[simp] theorem updPower_lanes (s : State) (f : DevPower → DevPower) : (updPower s f).lanes = s.lanes := rfl
@[simp] theorem updPower_links (s : State) (f : DevPower → DevPower) : (updPower s f).links = s.links := rfl
@[simp] theorem updPower_ebbJobs (s : State) (f : DevPower → DevPower) : (updPower s f).ebbJobs = s.ebbJobs := rfl
@[simp] theorem updPower_fabric (s : State) (f : DevPower → DevPower) : (updPower s f).fabric = s.fabric := rfl
@[simp] theorem updPower_strm (s : State) (f : DevPower → DevPower) : (updPower s f).strm = s.strm := rfl
@[simp] theorem updPower_tide (s : State) (f : DevPower → DevPower) : (updPower s f).tide = s.tide := rfl

/-! ### `updDev` -/

@[simp] theorem updDev_pending (s : State) (f : DevCfg → DevCfg) : (updDev s f).pending = s.pending := rfl
@[simp] theorem updDev_now (s : State) (f : DevCfg → DevCfg) : (updDev s f).now = s.now := rfl
@[simp] theorem updDev_freeCtr (s : State) (f : DevCfg → DevCfg) : (updDev s f).freeCtr = s.freeCtr := rfl
@[simp] theorem updDev_ctl (s : State) (f : DevCfg → DevCfg) : (updDev s f).ctl = s.ctl := rfl
@[simp] theorem updDev_fuses (s : State) (f : DevCfg → DevCfg) : (updDev s f).fuses = s.fuses := rfl
@[simp] theorem updDev_cfg (s : State) (f : DevCfg → DevCfg) : (updDev s f).cfg = { s.cfg with dev := f s.cfg.dev } := rfl
@[simp] theorem updDev_epoch (s : State) (f : DevCfg → DevCfg) : (updDev s f).epoch = s.epoch := rfl
@[simp] theorem updDev_modeJobs (s : State) (f : DevCfg → DevCfg) : (updDev s f).modeJobs = s.modeJobs := rfl
@[simp] theorem updDev_counters (s : State) (f : DevCfg → DevCfg) : (updDev s f).counters = s.counters := rfl
@[simp] theorem updDev_cleared (s : State) (f : DevCfg → DevCfg) : (updDev s f).cleared = s.cleared := rfl
@[simp] theorem updDev_integ (s : State) (f : DevCfg → DevCfg) : (updDev s f).integ = s.integ := rfl
@[simp] theorem updDev_clk (s : State) (f : DevCfg → DevCfg) : (updDev s f).clk = s.clk := rfl
@[simp] theorem updDev_rst (s : State) (f : DevCfg → DevCfg) : (updDev s f).rst = s.rst := rfl
@[simp] theorem updDev_nvm (s : State) (f : DevCfg → DevCfg) : (updDev s f).nvm = s.nvm := rfl
@[simp] theorem updDev_calib (s : State) (f : DevCfg → DevCfg) : (updDev s f).calib = s.calib := rfl
@[simp] theorem updDev_stest (s : State) (f : DevCfg → DevCfg) : (updDev s f).stest = s.stest := rfl
@[simp] theorem updDev_elec (s : State) (f : DevCfg → DevCfg) : (updDev s f).elec = s.elec := rfl
@[simp] theorem updDev_ports (s : State) (f : DevCfg → DevCfg) : (updDev s f).ports = s.ports := rfl
@[simp] theorem updDev_relinks (s : State) (f : DevCfg → DevCfg) : (updDev s f).relinks = s.relinks := rfl
@[simp] theorem updDev_baselines (s : State) (f : DevCfg → DevCfg) : (updDev s f).baselines = s.baselines := rfl
@[simp] theorem updDev_power (s : State) (f : DevCfg → DevCfg) : (updDev s f).power = s.power := rfl
@[simp] theorem updDev_coves (s : State) (f : DevCfg → DevCfg) : (updDev s f).coves = s.coves := rfl
@[simp] theorem updDev_lanes (s : State) (f : DevCfg → DevCfg) : (updDev s f).lanes = s.lanes := rfl
@[simp] theorem updDev_links (s : State) (f : DevCfg → DevCfg) : (updDev s f).links = s.links := rfl
@[simp] theorem updDev_ebbJobs (s : State) (f : DevCfg → DevCfg) : (updDev s f).ebbJobs = s.ebbJobs := rfl
@[simp] theorem updDev_fabric (s : State) (f : DevCfg → DevCfg) : (updDev s f).fabric = s.fabric := rfl
@[simp] theorem updDev_strm (s : State) (f : DevCfg → DevCfg) : (updDev s f).strm = s.strm := rfl
@[simp] theorem updDev_tide (s : State) (f : DevCfg → DevCfg) : (updDev s f).tide = s.tide := rfl

/-! ### `updFabricCfg` -/

@[simp] theorem updFabricCfg_pending (s : State) (f : FabricCfg → FabricCfg) : (updFabricCfg s f).pending = s.pending := rfl
@[simp] theorem updFabricCfg_now (s : State) (f : FabricCfg → FabricCfg) : (updFabricCfg s f).now = s.now := rfl
@[simp] theorem updFabricCfg_freeCtr (s : State) (f : FabricCfg → FabricCfg) : (updFabricCfg s f).freeCtr = s.freeCtr := rfl
@[simp] theorem updFabricCfg_ctl (s : State) (f : FabricCfg → FabricCfg) : (updFabricCfg s f).ctl = s.ctl := rfl
@[simp] theorem updFabricCfg_fuses (s : State) (f : FabricCfg → FabricCfg) : (updFabricCfg s f).fuses = s.fuses := rfl
@[simp] theorem updFabricCfg_cfg (s : State) (f : FabricCfg → FabricCfg) : (updFabricCfg s f).cfg = { s.cfg with fabric := f s.cfg.fabric } := rfl
@[simp] theorem updFabricCfg_epoch (s : State) (f : FabricCfg → FabricCfg) : (updFabricCfg s f).epoch = s.epoch := rfl
@[simp] theorem updFabricCfg_modeJobs (s : State) (f : FabricCfg → FabricCfg) : (updFabricCfg s f).modeJobs = s.modeJobs := rfl
@[simp] theorem updFabricCfg_counters (s : State) (f : FabricCfg → FabricCfg) : (updFabricCfg s f).counters = s.counters := rfl
@[simp] theorem updFabricCfg_cleared (s : State) (f : FabricCfg → FabricCfg) : (updFabricCfg s f).cleared = s.cleared := rfl
@[simp] theorem updFabricCfg_integ (s : State) (f : FabricCfg → FabricCfg) : (updFabricCfg s f).integ = s.integ := rfl
@[simp] theorem updFabricCfg_clk (s : State) (f : FabricCfg → FabricCfg) : (updFabricCfg s f).clk = s.clk := rfl
@[simp] theorem updFabricCfg_rst (s : State) (f : FabricCfg → FabricCfg) : (updFabricCfg s f).rst = s.rst := rfl
@[simp] theorem updFabricCfg_nvm (s : State) (f : FabricCfg → FabricCfg) : (updFabricCfg s f).nvm = s.nvm := rfl
@[simp] theorem updFabricCfg_calib (s : State) (f : FabricCfg → FabricCfg) : (updFabricCfg s f).calib = s.calib := rfl
@[simp] theorem updFabricCfg_stest (s : State) (f : FabricCfg → FabricCfg) : (updFabricCfg s f).stest = s.stest := rfl
@[simp] theorem updFabricCfg_elec (s : State) (f : FabricCfg → FabricCfg) : (updFabricCfg s f).elec = s.elec := rfl
@[simp] theorem updFabricCfg_ports (s : State) (f : FabricCfg → FabricCfg) : (updFabricCfg s f).ports = s.ports := rfl
@[simp] theorem updFabricCfg_relinks (s : State) (f : FabricCfg → FabricCfg) : (updFabricCfg s f).relinks = s.relinks := rfl
@[simp] theorem updFabricCfg_baselines (s : State) (f : FabricCfg → FabricCfg) : (updFabricCfg s f).baselines = s.baselines := rfl
@[simp] theorem updFabricCfg_power (s : State) (f : FabricCfg → FabricCfg) : (updFabricCfg s f).power = s.power := rfl
@[simp] theorem updFabricCfg_coves (s : State) (f : FabricCfg → FabricCfg) : (updFabricCfg s f).coves = s.coves := rfl
@[simp] theorem updFabricCfg_lanes (s : State) (f : FabricCfg → FabricCfg) : (updFabricCfg s f).lanes = s.lanes := rfl
@[simp] theorem updFabricCfg_links (s : State) (f : FabricCfg → FabricCfg) : (updFabricCfg s f).links = s.links := rfl
@[simp] theorem updFabricCfg_ebbJobs (s : State) (f : FabricCfg → FabricCfg) : (updFabricCfg s f).ebbJobs = s.ebbJobs := rfl
@[simp] theorem updFabricCfg_fabric (s : State) (f : FabricCfg → FabricCfg) : (updFabricCfg s f).fabric = s.fabric := rfl
@[simp] theorem updFabricCfg_strm (s : State) (f : FabricCfg → FabricCfg) : (updFabricCfg s f).strm = s.strm := rfl
@[simp] theorem updFabricCfg_tide (s : State) (f : FabricCfg → FabricCfg) : (updFabricCfg s f).tide = s.tide := rfl

/-! ### `updStreamCfg` -/

@[simp] theorem updStreamCfg_pending (s : State) (f : StreamCfg → StreamCfg) : (updStreamCfg s f).pending = s.pending := rfl
@[simp] theorem updStreamCfg_now (s : State) (f : StreamCfg → StreamCfg) : (updStreamCfg s f).now = s.now := rfl
@[simp] theorem updStreamCfg_freeCtr (s : State) (f : StreamCfg → StreamCfg) : (updStreamCfg s f).freeCtr = s.freeCtr := rfl
@[simp] theorem updStreamCfg_ctl (s : State) (f : StreamCfg → StreamCfg) : (updStreamCfg s f).ctl = s.ctl := rfl
@[simp] theorem updStreamCfg_fuses (s : State) (f : StreamCfg → StreamCfg) : (updStreamCfg s f).fuses = s.fuses := rfl
@[simp] theorem updStreamCfg_cfg (s : State) (f : StreamCfg → StreamCfg) : (updStreamCfg s f).cfg = { s.cfg with streams := f s.cfg.streams } := rfl
@[simp] theorem updStreamCfg_epoch (s : State) (f : StreamCfg → StreamCfg) : (updStreamCfg s f).epoch = s.epoch := rfl
@[simp] theorem updStreamCfg_modeJobs (s : State) (f : StreamCfg → StreamCfg) : (updStreamCfg s f).modeJobs = s.modeJobs := rfl
@[simp] theorem updStreamCfg_counters (s : State) (f : StreamCfg → StreamCfg) : (updStreamCfg s f).counters = s.counters := rfl
@[simp] theorem updStreamCfg_cleared (s : State) (f : StreamCfg → StreamCfg) : (updStreamCfg s f).cleared = s.cleared := rfl
@[simp] theorem updStreamCfg_integ (s : State) (f : StreamCfg → StreamCfg) : (updStreamCfg s f).integ = s.integ := rfl
@[simp] theorem updStreamCfg_clk (s : State) (f : StreamCfg → StreamCfg) : (updStreamCfg s f).clk = s.clk := rfl
@[simp] theorem updStreamCfg_rst (s : State) (f : StreamCfg → StreamCfg) : (updStreamCfg s f).rst = s.rst := rfl
@[simp] theorem updStreamCfg_nvm (s : State) (f : StreamCfg → StreamCfg) : (updStreamCfg s f).nvm = s.nvm := rfl
@[simp] theorem updStreamCfg_calib (s : State) (f : StreamCfg → StreamCfg) : (updStreamCfg s f).calib = s.calib := rfl
@[simp] theorem updStreamCfg_stest (s : State) (f : StreamCfg → StreamCfg) : (updStreamCfg s f).stest = s.stest := rfl
@[simp] theorem updStreamCfg_elec (s : State) (f : StreamCfg → StreamCfg) : (updStreamCfg s f).elec = s.elec := rfl
@[simp] theorem updStreamCfg_ports (s : State) (f : StreamCfg → StreamCfg) : (updStreamCfg s f).ports = s.ports := rfl
@[simp] theorem updStreamCfg_relinks (s : State) (f : StreamCfg → StreamCfg) : (updStreamCfg s f).relinks = s.relinks := rfl
@[simp] theorem updStreamCfg_baselines (s : State) (f : StreamCfg → StreamCfg) : (updStreamCfg s f).baselines = s.baselines := rfl
@[simp] theorem updStreamCfg_power (s : State) (f : StreamCfg → StreamCfg) : (updStreamCfg s f).power = s.power := rfl
@[simp] theorem updStreamCfg_coves (s : State) (f : StreamCfg → StreamCfg) : (updStreamCfg s f).coves = s.coves := rfl
@[simp] theorem updStreamCfg_lanes (s : State) (f : StreamCfg → StreamCfg) : (updStreamCfg s f).lanes = s.lanes := rfl
@[simp] theorem updStreamCfg_links (s : State) (f : StreamCfg → StreamCfg) : (updStreamCfg s f).links = s.links := rfl
@[simp] theorem updStreamCfg_ebbJobs (s : State) (f : StreamCfg → StreamCfg) : (updStreamCfg s f).ebbJobs = s.ebbJobs := rfl
@[simp] theorem updStreamCfg_fabric (s : State) (f : StreamCfg → StreamCfg) : (updStreamCfg s f).fabric = s.fabric := rfl
@[simp] theorem updStreamCfg_strm (s : State) (f : StreamCfg → StreamCfg) : (updStreamCfg s f).strm = s.strm := rfl
@[simp] theorem updStreamCfg_tide (s : State) (f : StreamCfg → StreamCfg) : (updStreamCfg s f).tide = s.tide := rfl

/-! ### `updTideCfg` -/

@[simp] theorem updTideCfg_pending (s : State) (f : TideCfg → TideCfg) : (updTideCfg s f).pending = s.pending := rfl
@[simp] theorem updTideCfg_now (s : State) (f : TideCfg → TideCfg) : (updTideCfg s f).now = s.now := rfl
@[simp] theorem updTideCfg_freeCtr (s : State) (f : TideCfg → TideCfg) : (updTideCfg s f).freeCtr = s.freeCtr := rfl
@[simp] theorem updTideCfg_ctl (s : State) (f : TideCfg → TideCfg) : (updTideCfg s f).ctl = s.ctl := rfl
@[simp] theorem updTideCfg_fuses (s : State) (f : TideCfg → TideCfg) : (updTideCfg s f).fuses = s.fuses := rfl
@[simp] theorem updTideCfg_cfg (s : State) (f : TideCfg → TideCfg) : (updTideCfg s f).cfg = { s.cfg with tide := f s.cfg.tide } := rfl
@[simp] theorem updTideCfg_epoch (s : State) (f : TideCfg → TideCfg) : (updTideCfg s f).epoch = s.epoch := rfl
@[simp] theorem updTideCfg_modeJobs (s : State) (f : TideCfg → TideCfg) : (updTideCfg s f).modeJobs = s.modeJobs := rfl
@[simp] theorem updTideCfg_counters (s : State) (f : TideCfg → TideCfg) : (updTideCfg s f).counters = s.counters := rfl
@[simp] theorem updTideCfg_cleared (s : State) (f : TideCfg → TideCfg) : (updTideCfg s f).cleared = s.cleared := rfl
@[simp] theorem updTideCfg_integ (s : State) (f : TideCfg → TideCfg) : (updTideCfg s f).integ = s.integ := rfl
@[simp] theorem updTideCfg_clk (s : State) (f : TideCfg → TideCfg) : (updTideCfg s f).clk = s.clk := rfl
@[simp] theorem updTideCfg_rst (s : State) (f : TideCfg → TideCfg) : (updTideCfg s f).rst = s.rst := rfl
@[simp] theorem updTideCfg_nvm (s : State) (f : TideCfg → TideCfg) : (updTideCfg s f).nvm = s.nvm := rfl
@[simp] theorem updTideCfg_calib (s : State) (f : TideCfg → TideCfg) : (updTideCfg s f).calib = s.calib := rfl
@[simp] theorem updTideCfg_stest (s : State) (f : TideCfg → TideCfg) : (updTideCfg s f).stest = s.stest := rfl
@[simp] theorem updTideCfg_elec (s : State) (f : TideCfg → TideCfg) : (updTideCfg s f).elec = s.elec := rfl
@[simp] theorem updTideCfg_ports (s : State) (f : TideCfg → TideCfg) : (updTideCfg s f).ports = s.ports := rfl
@[simp] theorem updTideCfg_relinks (s : State) (f : TideCfg → TideCfg) : (updTideCfg s f).relinks = s.relinks := rfl
@[simp] theorem updTideCfg_baselines (s : State) (f : TideCfg → TideCfg) : (updTideCfg s f).baselines = s.baselines := rfl
@[simp] theorem updTideCfg_power (s : State) (f : TideCfg → TideCfg) : (updTideCfg s f).power = s.power := rfl
@[simp] theorem updTideCfg_coves (s : State) (f : TideCfg → TideCfg) : (updTideCfg s f).coves = s.coves := rfl
@[simp] theorem updTideCfg_lanes (s : State) (f : TideCfg → TideCfg) : (updTideCfg s f).lanes = s.lanes := rfl
@[simp] theorem updTideCfg_links (s : State) (f : TideCfg → TideCfg) : (updTideCfg s f).links = s.links := rfl
@[simp] theorem updTideCfg_ebbJobs (s : State) (f : TideCfg → TideCfg) : (updTideCfg s f).ebbJobs = s.ebbJobs := rfl
@[simp] theorem updTideCfg_fabric (s : State) (f : TideCfg → TideCfg) : (updTideCfg s f).fabric = s.fabric := rfl
@[simp] theorem updTideCfg_strm (s : State) (f : TideCfg → TideCfg) : (updTideCfg s f).strm = s.strm := rfl
@[simp] theorem updTideCfg_tide (s : State) (f : TideCfg → TideCfg) : (updTideCfg s f).tide = s.tide := rfl

/-! ### `updStrm` -/

@[simp] theorem updStrm_pending (s : State) (f : Strm → Strm) : (updStrm s f).pending = s.pending := rfl
@[simp] theorem updStrm_now (s : State) (f : Strm → Strm) : (updStrm s f).now = s.now := rfl
@[simp] theorem updStrm_freeCtr (s : State) (f : Strm → Strm) : (updStrm s f).freeCtr = s.freeCtr := rfl
@[simp] theorem updStrm_ctl (s : State) (f : Strm → Strm) : (updStrm s f).ctl = s.ctl := rfl
@[simp] theorem updStrm_fuses (s : State) (f : Strm → Strm) : (updStrm s f).fuses = s.fuses := rfl
@[simp] theorem updStrm_cfg (s : State) (f : Strm → Strm) : (updStrm s f).cfg = s.cfg := rfl
@[simp] theorem updStrm_epoch (s : State) (f : Strm → Strm) : (updStrm s f).epoch = s.epoch := rfl
@[simp] theorem updStrm_modeJobs (s : State) (f : Strm → Strm) : (updStrm s f).modeJobs = s.modeJobs := rfl
@[simp] theorem updStrm_counters (s : State) (f : Strm → Strm) : (updStrm s f).counters = s.counters := rfl
@[simp] theorem updStrm_cleared (s : State) (f : Strm → Strm) : (updStrm s f).cleared = s.cleared := rfl
@[simp] theorem updStrm_integ (s : State) (f : Strm → Strm) : (updStrm s f).integ = s.integ := rfl
@[simp] theorem updStrm_clk (s : State) (f : Strm → Strm) : (updStrm s f).clk = s.clk := rfl
@[simp] theorem updStrm_rst (s : State) (f : Strm → Strm) : (updStrm s f).rst = s.rst := rfl
@[simp] theorem updStrm_nvm (s : State) (f : Strm → Strm) : (updStrm s f).nvm = s.nvm := rfl
@[simp] theorem updStrm_calib (s : State) (f : Strm → Strm) : (updStrm s f).calib = s.calib := rfl
@[simp] theorem updStrm_stest (s : State) (f : Strm → Strm) : (updStrm s f).stest = s.stest := rfl
@[simp] theorem updStrm_elec (s : State) (f : Strm → Strm) : (updStrm s f).elec = s.elec := rfl
@[simp] theorem updStrm_ports (s : State) (f : Strm → Strm) : (updStrm s f).ports = s.ports := rfl
@[simp] theorem updStrm_relinks (s : State) (f : Strm → Strm) : (updStrm s f).relinks = s.relinks := rfl
@[simp] theorem updStrm_baselines (s : State) (f : Strm → Strm) : (updStrm s f).baselines = s.baselines := rfl
@[simp] theorem updStrm_power (s : State) (f : Strm → Strm) : (updStrm s f).power = s.power := rfl
@[simp] theorem updStrm_coves (s : State) (f : Strm → Strm) : (updStrm s f).coves = s.coves := rfl
@[simp] theorem updStrm_lanes (s : State) (f : Strm → Strm) : (updStrm s f).lanes = s.lanes := rfl
@[simp] theorem updStrm_links (s : State) (f : Strm → Strm) : (updStrm s f).links = s.links := rfl
@[simp] theorem updStrm_ebbJobs (s : State) (f : Strm → Strm) : (updStrm s f).ebbJobs = s.ebbJobs := rfl
@[simp] theorem updStrm_fabric (s : State) (f : Strm → Strm) : (updStrm s f).fabric = s.fabric := rfl
@[simp] theorem updStrm_strm (s : State) (f : Strm → Strm) : (updStrm s f).strm = f s.strm := rfl
@[simp] theorem updStrm_tide (s : State) (f : Strm → Strm) : (updStrm s f).tide = s.tide := rfl

/-! ### `updTide` -/

@[simp] theorem updTide_pending (s : State) (f : Tide → Tide) : (updTide s f).pending = s.pending := rfl
@[simp] theorem updTide_now (s : State) (f : Tide → Tide) : (updTide s f).now = s.now := rfl
@[simp] theorem updTide_freeCtr (s : State) (f : Tide → Tide) : (updTide s f).freeCtr = s.freeCtr := rfl
@[simp] theorem updTide_ctl (s : State) (f : Tide → Tide) : (updTide s f).ctl = s.ctl := rfl
@[simp] theorem updTide_fuses (s : State) (f : Tide → Tide) : (updTide s f).fuses = s.fuses := rfl
@[simp] theorem updTide_cfg (s : State) (f : Tide → Tide) : (updTide s f).cfg = s.cfg := rfl
@[simp] theorem updTide_epoch (s : State) (f : Tide → Tide) : (updTide s f).epoch = s.epoch := rfl
@[simp] theorem updTide_modeJobs (s : State) (f : Tide → Tide) : (updTide s f).modeJobs = s.modeJobs := rfl
@[simp] theorem updTide_counters (s : State) (f : Tide → Tide) : (updTide s f).counters = s.counters := rfl
@[simp] theorem updTide_cleared (s : State) (f : Tide → Tide) : (updTide s f).cleared = s.cleared := rfl
@[simp] theorem updTide_integ (s : State) (f : Tide → Tide) : (updTide s f).integ = s.integ := rfl
@[simp] theorem updTide_clk (s : State) (f : Tide → Tide) : (updTide s f).clk = s.clk := rfl
@[simp] theorem updTide_rst (s : State) (f : Tide → Tide) : (updTide s f).rst = s.rst := rfl
@[simp] theorem updTide_nvm (s : State) (f : Tide → Tide) : (updTide s f).nvm = s.nvm := rfl
@[simp] theorem updTide_calib (s : State) (f : Tide → Tide) : (updTide s f).calib = s.calib := rfl
@[simp] theorem updTide_stest (s : State) (f : Tide → Tide) : (updTide s f).stest = s.stest := rfl
@[simp] theorem updTide_elec (s : State) (f : Tide → Tide) : (updTide s f).elec = s.elec := rfl
@[simp] theorem updTide_ports (s : State) (f : Tide → Tide) : (updTide s f).ports = s.ports := rfl
@[simp] theorem updTide_relinks (s : State) (f : Tide → Tide) : (updTide s f).relinks = s.relinks := rfl
@[simp] theorem updTide_baselines (s : State) (f : Tide → Tide) : (updTide s f).baselines = s.baselines := rfl
@[simp] theorem updTide_power (s : State) (f : Tide → Tide) : (updTide s f).power = s.power := rfl
@[simp] theorem updTide_coves (s : State) (f : Tide → Tide) : (updTide s f).coves = s.coves := rfl
@[simp] theorem updTide_lanes (s : State) (f : Tide → Tide) : (updTide s f).lanes = s.lanes := rfl
@[simp] theorem updTide_links (s : State) (f : Tide → Tide) : (updTide s f).links = s.links := rfl
@[simp] theorem updTide_ebbJobs (s : State) (f : Tide → Tide) : (updTide s f).ebbJobs = s.ebbJobs := rfl
@[simp] theorem updTide_fabric (s : State) (f : Tide → Tide) : (updTide s f).fabric = s.fabric := rfl
@[simp] theorem updTide_strm (s : State) (f : Tide → Tide) : (updTide s f).strm = s.strm := rfl
@[simp] theorem updTide_tide (s : State) (f : Tide → Tide) : (updTide s f).tide = f s.tide := rfl

/-! ### `updDsp` -/

@[simp] theorem updDsp_pending (s : State) (p : Nat) (f : Dsp → Dsp) : (updDsp s p f).pending = s.pending := rfl
@[simp] theorem updDsp_now (s : State) (p : Nat) (f : Dsp → Dsp) : (updDsp s p f).now = s.now := rfl
@[simp] theorem updDsp_freeCtr (s : State) (p : Nat) (f : Dsp → Dsp) : (updDsp s p f).freeCtr = s.freeCtr := rfl
@[simp] theorem updDsp_ctl (s : State) (p : Nat) (f : Dsp → Dsp) : (updDsp s p f).ctl = s.ctl := rfl
@[simp] theorem updDsp_fuses (s : State) (p : Nat) (f : Dsp → Dsp) : (updDsp s p f).fuses = s.fuses := rfl
@[simp] theorem updDsp_cfg (s : State) (p : Nat) (f : Dsp → Dsp) : (updDsp s p f).cfg = s.cfg := rfl
@[simp] theorem updDsp_epoch (s : State) (p : Nat) (f : Dsp → Dsp) : (updDsp s p f).epoch = s.epoch := rfl
@[simp] theorem updDsp_modeJobs (s : State) (p : Nat) (f : Dsp → Dsp) : (updDsp s p f).modeJobs = s.modeJobs := rfl
@[simp] theorem updDsp_counters (s : State) (p : Nat) (f : Dsp → Dsp) : (updDsp s p f).counters = s.counters := rfl
@[simp] theorem updDsp_cleared (s : State) (p : Nat) (f : Dsp → Dsp) : (updDsp s p f).cleared = s.cleared := rfl
@[simp] theorem updDsp_integ (s : State) (p : Nat) (f : Dsp → Dsp) : (updDsp s p f).integ = s.integ := rfl
@[simp] theorem updDsp_clk (s : State) (p : Nat) (f : Dsp → Dsp) : (updDsp s p f).clk = s.clk := rfl
@[simp] theorem updDsp_rst (s : State) (p : Nat) (f : Dsp → Dsp) : (updDsp s p f).rst = s.rst := rfl
@[simp] theorem updDsp_nvm (s : State) (p : Nat) (f : Dsp → Dsp) : (updDsp s p f).nvm = s.nvm := rfl
@[simp] theorem updDsp_calib (s : State) (p : Nat) (f : Dsp → Dsp) : (updDsp s p f).calib = s.calib := rfl
@[simp] theorem updDsp_stest (s : State) (p : Nat) (f : Dsp → Dsp) : (updDsp s p f).stest = s.stest := rfl
@[simp] theorem updDsp_elec (s : State) (p : Nat) (f : Dsp → Dsp) : (updDsp s p f).elec = s.elec := rfl
@[simp] theorem updDsp_ports (s : State) (p : Nat) (f : Dsp → Dsp) : (updDsp s p f).ports = s.ports.upd {} p fun x => { x with dsp := f x.dsp } := rfl
@[simp] theorem updDsp_relinks (s : State) (p : Nat) (f : Dsp → Dsp) : (updDsp s p f).relinks = s.relinks := rfl
@[simp] theorem updDsp_baselines (s : State) (p : Nat) (f : Dsp → Dsp) : (updDsp s p f).baselines = s.baselines := rfl
@[simp] theorem updDsp_power (s : State) (p : Nat) (f : Dsp → Dsp) : (updDsp s p f).power = s.power := rfl
@[simp] theorem updDsp_coves (s : State) (p : Nat) (f : Dsp → Dsp) : (updDsp s p f).coves = s.coves := rfl
@[simp] theorem updDsp_lanes (s : State) (p : Nat) (f : Dsp → Dsp) : (updDsp s p f).lanes = s.lanes := rfl
@[simp] theorem updDsp_links (s : State) (p : Nat) (f : Dsp → Dsp) : (updDsp s p f).links = s.links := rfl
@[simp] theorem updDsp_ebbJobs (s : State) (p : Nat) (f : Dsp → Dsp) : (updDsp s p f).ebbJobs = s.ebbJobs := rfl
@[simp] theorem updDsp_fabric (s : State) (p : Nat) (f : Dsp → Dsp) : (updDsp s p f).fabric = s.fabric := rfl
@[simp] theorem updDsp_strm (s : State) (p : Nat) (f : Dsp → Dsp) : (updDsp s p f).strm = s.strm := rfl
@[simp] theorem updDsp_tide (s : State) (p : Nat) (f : Dsp → Dsp) : (updDsp s p f).tide = s.tide := rfl

/-! ### `updMd` -/

@[simp] theorem updMd_pending (s : State) (p : Nat) (f : Md → Md) : (updMd s p f).pending = s.pending := rfl
@[simp] theorem updMd_now (s : State) (p : Nat) (f : Md → Md) : (updMd s p f).now = s.now := rfl
@[simp] theorem updMd_freeCtr (s : State) (p : Nat) (f : Md → Md) : (updMd s p f).freeCtr = s.freeCtr := rfl
@[simp] theorem updMd_ctl (s : State) (p : Nat) (f : Md → Md) : (updMd s p f).ctl = s.ctl := rfl
@[simp] theorem updMd_fuses (s : State) (p : Nat) (f : Md → Md) : (updMd s p f).fuses = s.fuses := rfl
@[simp] theorem updMd_cfg (s : State) (p : Nat) (f : Md → Md) : (updMd s p f).cfg = s.cfg := rfl
@[simp] theorem updMd_epoch (s : State) (p : Nat) (f : Md → Md) : (updMd s p f).epoch = s.epoch := rfl
@[simp] theorem updMd_modeJobs (s : State) (p : Nat) (f : Md → Md) : (updMd s p f).modeJobs = s.modeJobs := rfl
@[simp] theorem updMd_counters (s : State) (p : Nat) (f : Md → Md) : (updMd s p f).counters = s.counters := rfl
@[simp] theorem updMd_cleared (s : State) (p : Nat) (f : Md → Md) : (updMd s p f).cleared = s.cleared := rfl
@[simp] theorem updMd_integ (s : State) (p : Nat) (f : Md → Md) : (updMd s p f).integ = s.integ := rfl
@[simp] theorem updMd_clk (s : State) (p : Nat) (f : Md → Md) : (updMd s p f).clk = s.clk := rfl
@[simp] theorem updMd_rst (s : State) (p : Nat) (f : Md → Md) : (updMd s p f).rst = s.rst := rfl
@[simp] theorem updMd_nvm (s : State) (p : Nat) (f : Md → Md) : (updMd s p f).nvm = s.nvm := rfl
@[simp] theorem updMd_calib (s : State) (p : Nat) (f : Md → Md) : (updMd s p f).calib = s.calib := rfl
@[simp] theorem updMd_stest (s : State) (p : Nat) (f : Md → Md) : (updMd s p f).stest = s.stest := rfl
@[simp] theorem updMd_elec (s : State) (p : Nat) (f : Md → Md) : (updMd s p f).elec = s.elec := rfl
@[simp] theorem updMd_ports (s : State) (p : Nat) (f : Md → Md) : (updMd s p f).ports = s.ports.upd {} p fun x => { x with md := f x.md } := rfl
@[simp] theorem updMd_relinks (s : State) (p : Nat) (f : Md → Md) : (updMd s p f).relinks = s.relinks := rfl
@[simp] theorem updMd_baselines (s : State) (p : Nat) (f : Md → Md) : (updMd s p f).baselines = s.baselines := rfl
@[simp] theorem updMd_power (s : State) (p : Nat) (f : Md → Md) : (updMd s p f).power = s.power := rfl
@[simp] theorem updMd_coves (s : State) (p : Nat) (f : Md → Md) : (updMd s p f).coves = s.coves := rfl
@[simp] theorem updMd_lanes (s : State) (p : Nat) (f : Md → Md) : (updMd s p f).lanes = s.lanes := rfl
@[simp] theorem updMd_links (s : State) (p : Nat) (f : Md → Md) : (updMd s p f).links = s.links := rfl
@[simp] theorem updMd_ebbJobs (s : State) (p : Nat) (f : Md → Md) : (updMd s p f).ebbJobs = s.ebbJobs := rfl
@[simp] theorem updMd_fabric (s : State) (p : Nat) (f : Md → Md) : (updMd s p f).fabric = s.fabric := rfl
@[simp] theorem updMd_strm (s : State) (p : Nat) (f : Md → Md) : (updMd s p f).strm = s.strm := rfl
@[simp] theorem updMd_tide (s : State) (p : Nat) (f : Md → Md) : (updMd s p f).tide = s.tide := rfl

/-! ### `updHealth` -/

@[simp] theorem updHealth_pending (s : State) (p : Nat) (f : Health → Health) : (updHealth s p f).pending = s.pending := rfl
@[simp] theorem updHealth_now (s : State) (p : Nat) (f : Health → Health) : (updHealth s p f).now = s.now := rfl
@[simp] theorem updHealth_freeCtr (s : State) (p : Nat) (f : Health → Health) : (updHealth s p f).freeCtr = s.freeCtr := rfl
@[simp] theorem updHealth_ctl (s : State) (p : Nat) (f : Health → Health) : (updHealth s p f).ctl = s.ctl := rfl
@[simp] theorem updHealth_fuses (s : State) (p : Nat) (f : Health → Health) : (updHealth s p f).fuses = s.fuses := rfl
@[simp] theorem updHealth_cfg (s : State) (p : Nat) (f : Health → Health) : (updHealth s p f).cfg = s.cfg := rfl
@[simp] theorem updHealth_epoch (s : State) (p : Nat) (f : Health → Health) : (updHealth s p f).epoch = s.epoch := rfl
@[simp] theorem updHealth_modeJobs (s : State) (p : Nat) (f : Health → Health) : (updHealth s p f).modeJobs = s.modeJobs := rfl
@[simp] theorem updHealth_counters (s : State) (p : Nat) (f : Health → Health) : (updHealth s p f).counters = s.counters := rfl
@[simp] theorem updHealth_cleared (s : State) (p : Nat) (f : Health → Health) : (updHealth s p f).cleared = s.cleared := rfl
@[simp] theorem updHealth_integ (s : State) (p : Nat) (f : Health → Health) : (updHealth s p f).integ = s.integ := rfl
@[simp] theorem updHealth_clk (s : State) (p : Nat) (f : Health → Health) : (updHealth s p f).clk = s.clk := rfl
@[simp] theorem updHealth_rst (s : State) (p : Nat) (f : Health → Health) : (updHealth s p f).rst = s.rst := rfl
@[simp] theorem updHealth_nvm (s : State) (p : Nat) (f : Health → Health) : (updHealth s p f).nvm = s.nvm := rfl
@[simp] theorem updHealth_calib (s : State) (p : Nat) (f : Health → Health) : (updHealth s p f).calib = s.calib := rfl
@[simp] theorem updHealth_stest (s : State) (p : Nat) (f : Health → Health) : (updHealth s p f).stest = s.stest := rfl
@[simp] theorem updHealth_elec (s : State) (p : Nat) (f : Health → Health) : (updHealth s p f).elec = s.elec := rfl
@[simp] theorem updHealth_ports (s : State) (p : Nat) (f : Health → Health) : (updHealth s p f).ports = s.ports.upd {} p fun x => { x with health := f x.health } := rfl
@[simp] theorem updHealth_relinks (s : State) (p : Nat) (f : Health → Health) : (updHealth s p f).relinks = s.relinks := rfl
@[simp] theorem updHealth_baselines (s : State) (p : Nat) (f : Health → Health) : (updHealth s p f).baselines = s.baselines := rfl
@[simp] theorem updHealth_power (s : State) (p : Nat) (f : Health → Health) : (updHealth s p f).power = s.power := rfl
@[simp] theorem updHealth_coves (s : State) (p : Nat) (f : Health → Health) : (updHealth s p f).coves = s.coves := rfl
@[simp] theorem updHealth_lanes (s : State) (p : Nat) (f : Health → Health) : (updHealth s p f).lanes = s.lanes := rfl
@[simp] theorem updHealth_links (s : State) (p : Nat) (f : Health → Health) : (updHealth s p f).links = s.links := rfl
@[simp] theorem updHealth_ebbJobs (s : State) (p : Nat) (f : Health → Health) : (updHealth s p f).ebbJobs = s.ebbJobs := rfl
@[simp] theorem updHealth_fabric (s : State) (p : Nat) (f : Health → Health) : (updHealth s p f).fabric = s.fabric := rfl
@[simp] theorem updHealth_strm (s : State) (p : Nat) (f : Health → Health) : (updHealth s p f).strm = s.strm := rfl
@[simp] theorem updHealth_tide (s : State) (p : Nat) (f : Health → Health) : (updHealth s p f).tide = s.tide := rfl

/-! ### `updPw` -/

@[simp] theorem updPw_pending (s : State) (p : Nat) (f : Power → Power) : (updPw s p f).pending = s.pending := rfl
@[simp] theorem updPw_now (s : State) (p : Nat) (f : Power → Power) : (updPw s p f).now = s.now := rfl
@[simp] theorem updPw_freeCtr (s : State) (p : Nat) (f : Power → Power) : (updPw s p f).freeCtr = s.freeCtr := rfl
@[simp] theorem updPw_ctl (s : State) (p : Nat) (f : Power → Power) : (updPw s p f).ctl = s.ctl := rfl
@[simp] theorem updPw_fuses (s : State) (p : Nat) (f : Power → Power) : (updPw s p f).fuses = s.fuses := rfl
@[simp] theorem updPw_cfg (s : State) (p : Nat) (f : Power → Power) : (updPw s p f).cfg = s.cfg := rfl
@[simp] theorem updPw_epoch (s : State) (p : Nat) (f : Power → Power) : (updPw s p f).epoch = s.epoch := rfl
@[simp] theorem updPw_modeJobs (s : State) (p : Nat) (f : Power → Power) : (updPw s p f).modeJobs = s.modeJobs := rfl
@[simp] theorem updPw_counters (s : State) (p : Nat) (f : Power → Power) : (updPw s p f).counters = s.counters := rfl
@[simp] theorem updPw_cleared (s : State) (p : Nat) (f : Power → Power) : (updPw s p f).cleared = s.cleared := rfl
@[simp] theorem updPw_integ (s : State) (p : Nat) (f : Power → Power) : (updPw s p f).integ = s.integ := rfl
@[simp] theorem updPw_clk (s : State) (p : Nat) (f : Power → Power) : (updPw s p f).clk = s.clk := rfl
@[simp] theorem updPw_rst (s : State) (p : Nat) (f : Power → Power) : (updPw s p f).rst = s.rst := rfl
@[simp] theorem updPw_nvm (s : State) (p : Nat) (f : Power → Power) : (updPw s p f).nvm = s.nvm := rfl
@[simp] theorem updPw_calib (s : State) (p : Nat) (f : Power → Power) : (updPw s p f).calib = s.calib := rfl
@[simp] theorem updPw_stest (s : State) (p : Nat) (f : Power → Power) : (updPw s p f).stest = s.stest := rfl
@[simp] theorem updPw_elec (s : State) (p : Nat) (f : Power → Power) : (updPw s p f).elec = s.elec := rfl
@[simp] theorem updPw_ports (s : State) (p : Nat) (f : Power → Power) : (updPw s p f).ports = s.ports.upd {} p fun x => { x with power := f x.power } := rfl
@[simp] theorem updPw_relinks (s : State) (p : Nat) (f : Power → Power) : (updPw s p f).relinks = s.relinks := rfl
@[simp] theorem updPw_baselines (s : State) (p : Nat) (f : Power → Power) : (updPw s p f).baselines = s.baselines := rfl
@[simp] theorem updPw_power (s : State) (p : Nat) (f : Power → Power) : (updPw s p f).power = s.power := rfl
@[simp] theorem updPw_coves (s : State) (p : Nat) (f : Power → Power) : (updPw s p f).coves = s.coves := rfl
@[simp] theorem updPw_lanes (s : State) (p : Nat) (f : Power → Power) : (updPw s p f).lanes = s.lanes := rfl
@[simp] theorem updPw_links (s : State) (p : Nat) (f : Power → Power) : (updPw s p f).links = s.links := rfl
@[simp] theorem updPw_ebbJobs (s : State) (p : Nat) (f : Power → Power) : (updPw s p f).ebbJobs = s.ebbJobs := rfl
@[simp] theorem updPw_fabric (s : State) (p : Nat) (f : Power → Power) : (updPw s p f).fabric = s.fabric := rfl
@[simp] theorem updPw_strm (s : State) (p : Nat) (f : Power → Power) : (updPw s p f).strm = s.strm := rfl
@[simp] theorem updPw_tide (s : State) (p : Nat) (f : Power → Power) : (updPw s p f).tide = s.tide := rfl

/-! ### `updStart` -/

@[simp] theorem updStart_pending (s : State) (p : Nat) (f : Start → Start) : (updStart s p f).pending = s.pending := rfl
@[simp] theorem updStart_now (s : State) (p : Nat) (f : Start → Start) : (updStart s p f).now = s.now := rfl
@[simp] theorem updStart_freeCtr (s : State) (p : Nat) (f : Start → Start) : (updStart s p f).freeCtr = s.freeCtr := rfl
@[simp] theorem updStart_ctl (s : State) (p : Nat) (f : Start → Start) : (updStart s p f).ctl = s.ctl := rfl
@[simp] theorem updStart_fuses (s : State) (p : Nat) (f : Start → Start) : (updStart s p f).fuses = s.fuses := rfl
@[simp] theorem updStart_cfg (s : State) (p : Nat) (f : Start → Start) : (updStart s p f).cfg = s.cfg := rfl
@[simp] theorem updStart_epoch (s : State) (p : Nat) (f : Start → Start) : (updStart s p f).epoch = s.epoch := rfl
@[simp] theorem updStart_modeJobs (s : State) (p : Nat) (f : Start → Start) : (updStart s p f).modeJobs = s.modeJobs := rfl
@[simp] theorem updStart_counters (s : State) (p : Nat) (f : Start → Start) : (updStart s p f).counters = s.counters := rfl
@[simp] theorem updStart_cleared (s : State) (p : Nat) (f : Start → Start) : (updStart s p f).cleared = s.cleared := rfl
@[simp] theorem updStart_integ (s : State) (p : Nat) (f : Start → Start) : (updStart s p f).integ = s.integ := rfl
@[simp] theorem updStart_clk (s : State) (p : Nat) (f : Start → Start) : (updStart s p f).clk = s.clk := rfl
@[simp] theorem updStart_rst (s : State) (p : Nat) (f : Start → Start) : (updStart s p f).rst = s.rst := rfl
@[simp] theorem updStart_nvm (s : State) (p : Nat) (f : Start → Start) : (updStart s p f).nvm = s.nvm := rfl
@[simp] theorem updStart_calib (s : State) (p : Nat) (f : Start → Start) : (updStart s p f).calib = s.calib := rfl
@[simp] theorem updStart_stest (s : State) (p : Nat) (f : Start → Start) : (updStart s p f).stest = s.stest := rfl
@[simp] theorem updStart_elec (s : State) (p : Nat) (f : Start → Start) : (updStart s p f).elec = s.elec := rfl
@[simp] theorem updStart_ports (s : State) (p : Nat) (f : Start → Start) : (updStart s p f).ports = s.ports.upd {} p fun x => { x with start := f x.start } := rfl
@[simp] theorem updStart_relinks (s : State) (p : Nat) (f : Start → Start) : (updStart s p f).relinks = s.relinks := rfl
@[simp] theorem updStart_baselines (s : State) (p : Nat) (f : Start → Start) : (updStart s p f).baselines = s.baselines := rfl
@[simp] theorem updStart_power (s : State) (p : Nat) (f : Start → Start) : (updStart s p f).power = s.power := rfl
@[simp] theorem updStart_coves (s : State) (p : Nat) (f : Start → Start) : (updStart s p f).coves = s.coves := rfl
@[simp] theorem updStart_lanes (s : State) (p : Nat) (f : Start → Start) : (updStart s p f).lanes = s.lanes := rfl
@[simp] theorem updStart_links (s : State) (p : Nat) (f : Start → Start) : (updStart s p f).links = s.links := rfl
@[simp] theorem updStart_ebbJobs (s : State) (p : Nat) (f : Start → Start) : (updStart s p f).ebbJobs = s.ebbJobs := rfl
@[simp] theorem updStart_fabric (s : State) (p : Nat) (f : Start → Start) : (updStart s p f).fabric = s.fabric := rfl
@[simp] theorem updStart_strm (s : State) (p : Nat) (f : Start → Start) : (updStart s p f).strm = s.strm := rfl
@[simp] theorem updStart_tide (s : State) (p : Nat) (f : Start → Start) : (updStart s p f).tide = s.tide := rfl

/-! ### `updVs` -/

@[simp] theorem updVs_pending (s : State) (p : Nat) (f : Vs50 → Vs50) : (updVs s p f).pending = s.pending := rfl
@[simp] theorem updVs_now (s : State) (p : Nat) (f : Vs50 → Vs50) : (updVs s p f).now = s.now := rfl
@[simp] theorem updVs_freeCtr (s : State) (p : Nat) (f : Vs50 → Vs50) : (updVs s p f).freeCtr = s.freeCtr := rfl
@[simp] theorem updVs_ctl (s : State) (p : Nat) (f : Vs50 → Vs50) : (updVs s p f).ctl = s.ctl := rfl
@[simp] theorem updVs_fuses (s : State) (p : Nat) (f : Vs50 → Vs50) : (updVs s p f).fuses = s.fuses := rfl
@[simp] theorem updVs_cfg (s : State) (p : Nat) (f : Vs50 → Vs50) : (updVs s p f).cfg = s.cfg := rfl
@[simp] theorem updVs_epoch (s : State) (p : Nat) (f : Vs50 → Vs50) : (updVs s p f).epoch = s.epoch := rfl
@[simp] theorem updVs_modeJobs (s : State) (p : Nat) (f : Vs50 → Vs50) : (updVs s p f).modeJobs = s.modeJobs := rfl
@[simp] theorem updVs_counters (s : State) (p : Nat) (f : Vs50 → Vs50) : (updVs s p f).counters = s.counters := rfl
@[simp] theorem updVs_cleared (s : State) (p : Nat) (f : Vs50 → Vs50) : (updVs s p f).cleared = s.cleared := rfl
@[simp] theorem updVs_integ (s : State) (p : Nat) (f : Vs50 → Vs50) : (updVs s p f).integ = s.integ := rfl
@[simp] theorem updVs_clk (s : State) (p : Nat) (f : Vs50 → Vs50) : (updVs s p f).clk = s.clk := rfl
@[simp] theorem updVs_rst (s : State) (p : Nat) (f : Vs50 → Vs50) : (updVs s p f).rst = s.rst := rfl
@[simp] theorem updVs_nvm (s : State) (p : Nat) (f : Vs50 → Vs50) : (updVs s p f).nvm = s.nvm := rfl
@[simp] theorem updVs_calib (s : State) (p : Nat) (f : Vs50 → Vs50) : (updVs s p f).calib = s.calib := rfl
@[simp] theorem updVs_stest (s : State) (p : Nat) (f : Vs50 → Vs50) : (updVs s p f).stest = s.stest := rfl
@[simp] theorem updVs_elec (s : State) (p : Nat) (f : Vs50 → Vs50) : (updVs s p f).elec = s.elec := rfl
@[simp] theorem updVs_ports (s : State) (p : Nat) (f : Vs50 → Vs50) : (updVs s p f).ports = s.ports.upd {} p fun x => { x with vs := f x.vs } := rfl
@[simp] theorem updVs_relinks (s : State) (p : Nat) (f : Vs50 → Vs50) : (updVs s p f).relinks = s.relinks := rfl
@[simp] theorem updVs_baselines (s : State) (p : Nat) (f : Vs50 → Vs50) : (updVs s p f).baselines = s.baselines := rfl
@[simp] theorem updVs_power (s : State) (p : Nat) (f : Vs50 → Vs50) : (updVs s p f).power = s.power := rfl
@[simp] theorem updVs_coves (s : State) (p : Nat) (f : Vs50 → Vs50) : (updVs s p f).coves = s.coves := rfl
@[simp] theorem updVs_lanes (s : State) (p : Nat) (f : Vs50 → Vs50) : (updVs s p f).lanes = s.lanes := rfl
@[simp] theorem updVs_links (s : State) (p : Nat) (f : Vs50 → Vs50) : (updVs s p f).links = s.links := rfl
@[simp] theorem updVs_ebbJobs (s : State) (p : Nat) (f : Vs50 → Vs50) : (updVs s p f).ebbJobs = s.ebbJobs := rfl
@[simp] theorem updVs_fabric (s : State) (p : Nat) (f : Vs50 → Vs50) : (updVs s p f).fabric = s.fabric := rfl
@[simp] theorem updVs_strm (s : State) (p : Nat) (f : Vs50 → Vs50) : (updVs s p f).strm = s.strm := rfl
@[simp] theorem updVs_tide (s : State) (p : Nat) (f : Vs50 → Vs50) : (updVs s p f).tide = s.tide := rfl

/-! ### `raise`: the event queue and the counters alone change -/

@[simp] theorem raise_pending (s : State) (code sev src : Nat) (d : List Byte) :
    (raise s code sev src d).pending = s.pending := by
  unfold raise raiseFor; split <;> rfl
@[simp] theorem raise_now (s : State) (code sev src : Nat) (d : List Byte) :
    (raise s code sev src d).now = s.now := by
  unfold raise raiseFor; split <;> rfl
@[simp] theorem raise_freeCtr (s : State) (code sev src : Nat) (d : List Byte) :
    (raise s code sev src d).freeCtr = s.freeCtr := by
  unfold raise raiseFor; split <;> rfl
@[simp] theorem raise_fuses (s : State) (code sev src : Nat) (d : List Byte) :
    (raise s code sev src d).fuses = s.fuses := by
  unfold raise raiseFor; split <;> rfl
@[simp] theorem raise_cfg (s : State) (code sev src : Nat) (d : List Byte) :
    (raise s code sev src d).cfg = s.cfg := by
  unfold raise raiseFor; split <;> rfl
@[simp] theorem raise_epoch (s : State) (code sev src : Nat) (d : List Byte) :
    (raise s code sev src d).epoch = s.epoch := by
  unfold raise raiseFor; split <;> rfl
@[simp] theorem raise_modeJobs (s : State) (code sev src : Nat) (d : List Byte) :
    (raise s code sev src d).modeJobs = s.modeJobs := by
  unfold raise raiseFor; split <;> rfl
@[simp] theorem raise_cleared (s : State) (code sev src : Nat) (d : List Byte) :
    (raise s code sev src d).cleared = s.cleared := by
  unfold raise raiseFor; split <;> rfl
@[simp] theorem raise_integ (s : State) (code sev src : Nat) (d : List Byte) :
    (raise s code sev src d).integ = s.integ := by
  unfold raise raiseFor; split <;> rfl
@[simp] theorem raise_clk (s : State) (code sev src : Nat) (d : List Byte) :
    (raise s code sev src d).clk = s.clk := by
  unfold raise raiseFor; split <;> rfl
@[simp] theorem raise_rst (s : State) (code sev src : Nat) (d : List Byte) :
    (raise s code sev src d).rst = s.rst := by
  unfold raise raiseFor; split <;> rfl
@[simp] theorem raise_nvm (s : State) (code sev src : Nat) (d : List Byte) :
    (raise s code sev src d).nvm = s.nvm := by
  unfold raise raiseFor; split <;> rfl
@[simp] theorem raise_calib (s : State) (code sev src : Nat) (d : List Byte) :
    (raise s code sev src d).calib = s.calib := by
  unfold raise raiseFor; split <;> rfl
@[simp] theorem raise_stest (s : State) (code sev src : Nat) (d : List Byte) :
    (raise s code sev src d).stest = s.stest := by
  unfold raise raiseFor; split <;> rfl
@[simp] theorem raise_elec (s : State) (code sev src : Nat) (d : List Byte) :
    (raise s code sev src d).elec = s.elec := by
  unfold raise raiseFor; split <;> rfl
@[simp] theorem raise_ports (s : State) (code sev src : Nat) (d : List Byte) :
    (raise s code sev src d).ports = s.ports := by
  unfold raise raiseFor; split <;> rfl
@[simp] theorem raise_relinks (s : State) (code sev src : Nat) (d : List Byte) :
    (raise s code sev src d).relinks = s.relinks := by
  unfold raise raiseFor; split <;> rfl
@[simp] theorem raise_baselines (s : State) (code sev src : Nat) (d : List Byte) :
    (raise s code sev src d).baselines = s.baselines := by
  unfold raise raiseFor; split <;> rfl
@[simp] theorem raise_power (s : State) (code sev src : Nat) (d : List Byte) :
    (raise s code sev src d).power = s.power := by
  unfold raise raiseFor; split <;> rfl
@[simp] theorem raise_coves (s : State) (code sev src : Nat) (d : List Byte) :
    (raise s code sev src d).coves = s.coves := by
  unfold raise raiseFor; split <;> rfl
@[simp] theorem raise_lanes (s : State) (code sev src : Nat) (d : List Byte) :
    (raise s code sev src d).lanes = s.lanes := by
  unfold raise raiseFor; split <;> rfl
@[simp] theorem raise_links (s : State) (code sev src : Nat) (d : List Byte) :
    (raise s code sev src d).links = s.links := by
  unfold raise raiseFor; split <;> rfl
@[simp] theorem raise_ebbJobs (s : State) (code sev src : Nat) (d : List Byte) :
    (raise s code sev src d).ebbJobs = s.ebbJobs := by
  unfold raise raiseFor; split <;> rfl
@[simp] theorem raise_fabric (s : State) (code sev src : Nat) (d : List Byte) :
    (raise s code sev src d).fabric = s.fabric := by
  unfold raise raiseFor; split <;> rfl
@[simp] theorem raise_strm (s : State) (code sev src : Nat) (d : List Byte) :
    (raise s code sev src d).strm = s.strm := by
  unfold raise raiseFor; split <;> rfl
@[simp] theorem raise_tide (s : State) (code sev src : Nat) (d : List Byte) :
    (raise s code sev src d).tide = s.tide := by
  unfold raise raiseFor; split <;> rfl

/-! ### Reading a port after a change -/

@[simp] theorem port_bumpBy (s : State) (op blk idx n q : Nat) : (s.bumpBy op blk idx n).port q = s.port q := rfl
@[simp] theorem port_bump (s : State) (op blk idx q : Nat) : (s.bump op blk idx).port q = s.port q := rfl
@[simp] theorem port_draw (s : State) (q : Nat) : s.draw.port q = s.port q := rfl
@[simp] theorem port_raise (s : State) (code sev src : Nat) (d : List Byte) (q : Nat) :
    (raise s code sev src d).port q = s.port q := by
  unfold State.port; rw [raise_ports]

/-- Another port reads as before. -/
theorem port_updPort_ne {s : State} {p q : Nat} {f : Port → Port} (h : q ≠ p) : (s.updPort p f).port q = s.port q :=
  Tab.get_upd_ne h

/-- The port reads as it was set, where it is not at its reset value. -/
theorem port_updPort_self {s : State} {p : Nat} {f : Port → Port} (h : f (s.port p) ≠ {}) :
    (s.updPort p f).port p = f (s.port p) := by
  show Tab.get {} (Tab.set {} s.ports p (f (Tab.get {} s.ports p))) p = _
  unfold Tab.set
  rw [if_neg (show f (Tab.get {} s.ports p) ≠ {} from h)]
  exact Tab.get_put_self

/-- The port reads as it was set, where the table of ports has its canonical form. -/
theorem port_updPort_wf {s : State} {p : Nat} {f : Port → Port} (h : Tab.wf {} s.ports) :
    (s.updPort p f).port p = f (s.port p) := Tab.get_upd_self h

/-- A counter that fits reads as the sum, modulo 2 to the 64 (R674). -/
theorem cnt_bumpBy_self {s : State} {op blk idx n : Nat} (h : Tab.wf 0 s.counters) :
    (s.bumpBy op blk idx n).cnt op blk idx = (s.cnt op blk idx + n) % 2 ^ 64 :=
  Tab.get_upd_self (f := fun v => (v + n) % 2 ^ 64) h

end Sys2Proof.Machine
end

