-- ==== Sys2Proof/Machine/Pins.lean ====
section
/-! DEFINITION. The balls of the package and what the sideband pins present (R13, R557, R635 to R640, R645, R656). -/

namespace Sys2Proof.Machine

/-! ### Balls (R13, R635 to R638) -/

/-- A ball: row index 1 to 73 and column 1 to 73. -/
structure Ball where
  row : Nat
  col : Nat
  deriving DecidableEq, Repr

/-- The row letters (R13). -/
def rowLetters : List Char :=
  ['A', 'B', 'C', 'D', 'E', 'F', 'G', 'H', 'J', 'K', 'L', 'M', 'N', 'P', 'T', 'U', 'V', 'W', 'Y']

/-- Name of a row: one letter for 1 to 19, then two (R13). -/
def rowName (row : Nat) : List Char :=
  let i := row - 1
  (if i < 19 then [] else [rowLetters.getD (i / 19 - 1) '?']) ++ [rowLetters.getD (i % 19) '?']

/-- A sideband, reference, management or debug signal, or a rail. -/
inductive Net where
  | vss
  | rsvd
  | rail (k : Nat)
  | lineP (port : Nat)
  | lineN (port : Nat)
  | htxP (lane : Nat)
  | htxN (lane : Nat)
  | hrxP (lane : Nat)
  | hrxN (lane : Nat)
  | signal (k : Nat)
  deriving DecidableEq, Repr

/-- Balls of a port's pair, P then N (R636). -/
def lineBalls (n : Nat) : Ball × Ball :=
  if n < 64 then (if n % 2 = 0 then (⟨4 + n, 2⟩, ⟨4 + n, 3⟩) else (⟨4 + n, 5⟩, ⟨4 + n, 6⟩))
  else if n % 2 = 0 then (⟨72, n - 55⟩, ⟨71, n - 55⟩) else (⟨69, n - 55⟩, ⟨68, n - 55⟩)

/-- Balls of a host lane: HTX P and N, HRX P and N (R637). -/
def hostBalls (m : Nat) : List Ball :=
  (if m % 2 = 0 then [64, 65, 70, 71] else [66, 67, 72, 73]).map fun c => ⟨4 + m, c⟩

/-- The north band's signals in the order of their table: the left column, then the right one (R638). -/
def northSignals : List Ball :=
  [12, 13, 20, 21, 22, 23, 30, 31, 34, 35, 40, 41, 42, 43, 44, 45, 46, 48, 49, 51, 52, 54, 55, 56, 57, 58, 60, 61].map (⟨2, ·⟩)

/-- A checkerboard of a rail (R635). -/
def checker (b : Ball) (k : Nat) : Net := if (b.row + b.col) % 2 = 0 then .rail k else .vss

/-- What a ball of the north band carries (R638). -/
def northNet (b : Ball) : Net :=
  if b.row = 1 ∧ within b.col 30 39 then .rail 6
  else if b.row = 1 ∧ within b.col 40 41 then .rail 7
  else if (b.row = 1 ∨ b.row = 3) ∧ within b.col 70 73 then .rsvd
  else match northSignals.findIdx? (· == b) with
    | some k => .signal k
    | none => .vss

/-- The port of which the ball carries a line, if any (R636). -/
def lineNet (b : Ball) : Net :=
  match (List.range 128).find? fun n => (lineBalls n).1 == b || (lineBalls n).2 == b with
  | some n => if (lineBalls n).1 = b then .lineP n else .lineN n
  | none => .vss

/-- The lane of which the ball carries a line, if any (R637). -/
def hostNet (b : Ball) : Net :=
  match (hostBalls (b.row - 4)).findIdx? (· == b) with
  | some 0 => .htxP (b.row - 4)
  | some 1 => .htxN (b.row - 4)
  | some 2 => .hrxP (b.row - 4)
  | some _ => .hrxN (b.row - 4)
  | none => .vss

/-- What a ball carries, by the regions of R635. -/
def ballNet (b : Ball) : Net :=
  if b.row ≤ 3 then northNet b
  else if 68 ≤ b.row ∨ b.col ≤ 8 then lineNet b
  else if 62 ≤ b.col then hostNet b
  else if b.col ≤ 11 then checker b 3
  else if b.col ≤ 14 then checker b 2
  else if 60 ≤ b.col then checker b 5
  else if 56 ≤ b.col then checker b 4
  else if 65 ≤ b.row then checker b 3
  else if 62 ≤ b.row then checker b 2
  else if b.col ≤ 22 ∨ 54 ≤ b.row then checker b 1
  else checker b 0

/-! ### Pulls (R640, R656) -/

/-- Level that an input reads when nothing drives it, by its place in `northSignals`; none where no pull holds it. Signals 0 to 5 are
LREF_XI, LREF_XO, MSCK, MSI, MCS_N and MSO; 10 to 16 RESET_N, PGOOD_IN, INT_N, FAULT_N, WAKE_N and BOOTSEL; 21 to 25 the debug pins. -/
def pullLevel (k : Nat) : Option Bool :=
  match k with
  | 4 => some true
  | 11 | 15 | 16 | 21 | 22 | 23 | 25 => some false
  | _ => none

/-- What an input pin reads: the level driven, or that of its pull. -/
def inputLevel (k : Nat) (driven : Option Bool) : Option Bool := match driven with
  | some v => some v
  | none => pullLevel k

/-! ### Sideband outputs (R557) -/

/-- What an output pin presents. -/
inductive PinOut where
  | highZ
  | low
  | high
  | running
  deriving DecidableEq, Repr

/-- The sideband outputs and the management transmitter. -/
structure SidePins where
  mgtTx : PinOut
  mso : PinOut
  intN : PinOut
  faultN : PinOut
  wakeN : PinOut
  ppsOut : PinOut
  avs : PinOut
  deriving DecidableEq, Repr

/-- The pins by phase: unpowered, reset asserted, start-up, READY (R557, R645). `MSO` is driven only while `MCS_N` is low, which no
row shows; `running` says that it then answers. An open-drain pin that is released is high impedance. -/
def sidePins (s : State) : SidePins :=
  if !s.rst.powered then { mgtTx := .highZ, mso := .highZ, intN := .highZ, faultN := .highZ, wakeN := .highZ, ppsOut := .highZ, avs := .highZ }
  else if s.rst.asserted then
    { mgtTx := .low, mso := .highZ, intN := .highZ, faultN := .low, wakeN := .highZ, ppsOut := .low, avs := .highZ }
  else
    { mgtTx := if s.ctl.feReady then .running else .low
      mso := .running
      intN := if !s.rst.starting && intN s then .low else .highZ
      faultN := if faultN s then .low else .highZ
      wakeN := if s.elec.wakeDriven then .low else .highZ
      ppsOut := if s.elec.ppsOut then .high else .low
      avs := if (pmbusNow s).isSome then .running else .highZ }

end Sys2Proof.Machine
end

