-- ==== Sys2Proof/WellFormed.lean ====
section
/-! DEFINITION. Which commands can arrive at all: a Flaes request has at most 1,024 bytes of parameters (R35) and a CMAC tag
exactly when its AUTH flag is 1 (R34, R84); mailbox accesses and the symbols of a frame keep to what their transport carries. -/

namespace Sys2Proof

/-- A request as step 1 of R47 lets it pass. -/
def Req.wf (r : Req) : Bool := r.params.length ≤ 1024 && r.cmac.isSome == r.flags.getLsbD 0

/-- A command that can arrive. -/
def Instr.wf : Instr → Bool
  | .mbxDoorbellSubmit => true
  | .mbxDoorbellRelease => true
  | .requestWindowWrite addr bytes => addr.toNat % 4 == 0 && bytes.length % 4 == 0 && addr.toNat + bytes.length ≤ 2048
  | .identityRead r => r.wf
  | .deviceStatus r => r.wf
  | .controlCountersRead r => r.wf
  | .controlCountersClear r => r.wf
  | .authPolicySet r => r.wf
  | .authKeyProgram r => r.wf
  | .authKeyRevoke r => r.wf
  | .epochOpen r => r.wf
  | .epochCommit r => r.wf
  | .epochAbort r => r.wf
  | .epochStatus r => r.wf
  | .transportConfig r => r.wf
  | .eventRoute r => r.wf
  | .eventMask r => r.wf
  | .eventRead r => r.wf
  | .eventAck r => r.wf
  | .eventNotify => true
  | .safeState r => r.wf
  | .portQuiet r => r.wf
  | .readFaultRecord r => r.wf
  | .domainReset r => r.wf
  | .deviceWarmReset r => r.wf
  | .warmResetAssert => true
  | .echo r => r.wf
  | .readCoreStatus r => r.wf
  | .integrityConfig r => r.wf
  | .integrityStatus r => r.wf
  | .integrityFaultClear r => r.wf
  | .faultLogRead r => r.wf
  | .integrityCountersRead r => r.wf
  | .integrityCountersClear r => r.wf
  | .faultInject r => r.wf
  | .portModeSet r => r.wf
  | .portModeGet r => r.wf
  | .portAdmin r => r.wf
  | .portStatusRead r => r.wf
  | .portCountersRead r => r.wf
  | .portCountersClear r => r.wf
  | .coveStatus r => r.wf
  | .vs50Config r => r.wf
  | .vs50Status r => r.wf
  | .vs50CountersRead r => r.wf
  | .vs50CountersClear r => r.wf
  | .vs50OamSend r => r.wf
  | .vs50OamRead r => r.wf
  | .dspConfig r => r.wf
  | .dspStatus r => r.wf
  | .bundleGroupSet r => r.wf
  | .bundleGroupGet r => r.wf
  | .xtalkStatus r => r.wf
  | .echoWindowSet r => r.wf
  | .anchorControl r => r.wf
  | .dspCountersRead r => r.wf
  | .dspCountersClear r => r.wf
  | .tapRead r => r.wf
  | .startConfig r => r.wf
  | .startStatus r => r.wf
  | .startCountersRead r => r.wf
  | .startCountersClear r => r.wf
  | .relinkStoreRead r => r.wf
  | .relinkStoreClear r => r.wf
  | .startRestart r => r.wf
  | .mdConfig r => r.wf
  | .mdStatus r => r.wf
  | .mdCountersRead r => r.wf
  | .mdCountersClear r => r.wf
  | .mdNodeTableRead r => r.wf
  | .mdNodeTableClear r => r.wf
  | .healthConfig r => r.wf
  | .healthStatus r => r.wf
  | .healthCountersRead r => r.wf
  | .healthCountersClear r => r.wf
  | .soundingConfig r => r.wf
  | .soundingRun r => r.wf
  | .soundingResultRead r => r.wf
  | .soundingProfileRead r => r.wf
  | .soundingBaselineSet r => r.wf
  | .soundingBaselineRead r => r.wf
  | .soundingBaselineLoad r => r.wf
  | .cableTestRun r => r.wf
  | .cableTestResult r => r.wf
  | .cableTestProfileRead r => r.wf
  | .portPowerConfig r => r.wf
  | .portSlack r => r.wf
  | .portPowerStatus r => r.wf
  | .devicePowerSet r => r.wf
  | .devicePowerStatus r => r.wf
  | .wakeConfig r => r.wf
  | .powerCountersRead r => r.wf
  | .powerCountersClear r => r.wf
  | .hostLinkConfig r => r.wf
  | .hostLaneConfig r => r.wf
  | .hostLinkMacConfig r => r.wf
  | .hostAdmin r => r.wf
  | .hostEbb r => r.wf
  | .hostLaneStatus r => r.wf
  | .hostLinkStatus r => r.wf
  | .hostLaneCountersRead r => r.wf
  | .hostLaneCountersClear r => r.wf
  | .hostLinkCountersRead r => r.wf
  | .hostLinkCountersClear r => r.wf
  | .eyeScanStart r => r.wf
  | .eyeScanRead r => r.wf
  | .hostTest r => r.wf
  | .fabricConfig r => r.wf
  | .fabricStatus r => r.wf
  | .queueConfig r => r.wf
  | .schedulerConfig r => r.wf
  | .shaperConfig r => r.wf
  | .cutThroughConfig r => r.wf
  | .queueStatus r => r.wf
  | .queueCountersRead r => r.wf
  | .queueCountersClear r => r.wf
  | .sliceCountersRead r => r.wf
  | .sliceCountersClear r => r.wf
  | .sliceGate r => r.wf
  | .streamTableConfig r => r.wf
  | .streamEntryWrite r => r.wf
  | .streamEntryDelete r => r.wf
  | .streamEntryRead r => r.wf
  | .streamLookup r => r.wf
  | .streamTableStatus r => r.wf
  | .destWrite r => r.wf
  | .ingressProfileSet r => r.wf
  | .qciFilterSet r => r.wf
  | .qciMeterSet r => r.wf
  | .qciGateSet r => r.wf
  | .qciCountersRead r => r.wf
  | .qciCountersClear r => r.wf
  | .frerSeqgenSet r => r.wf
  | .frerRecoverySet r => r.wf
  | .frerCountersRead r => r.wf
  | .frerCountersClear r => r.wf
  | .gclLoad r => r.wf
  | .gclSet r => r.wf
  | .gclStatus r => r.wf
  | .gclRead r => r.wf
  | .preemptConfig r => r.wf
  | .preemptStatus r => r.wf
  | .preemptCountersRead r => r.wf
  | .preemptCountersClear r => r.wf
  | .ingressCountersRead r => r.wf
  | .ingressCountersClear r => r.wf
  | .timeRead r => r.wf
  | .timeAdjust r => r.wf
  | .gptpConfig r => r.wf
  | .gptpPortConfig r => r.wf
  | .gptpStatus r => r.wf
  | .gptpCountersRead r => r.wf
  | .ppsConfig r => r.wf
  | .ppsInRead r => r.wf
  | .ttSourceBind r => r.wf
  | .ttLayoutSet r => r.wf
  | .ttLayoutDelete r => r.wf
  | .ttSignalDefine r => r.wf
  | .ttComposeSet r => r.wf
  | .ttComposeTemplate r => r.wf
  | .ttDigestRouteSet r => r.wf
  | .ttSignalRead r => r.wf
  | .ttSignalWrite r => r.wf
  | .ttLayoutStatus r => r.wf
  | .ttStatus r => r.wf
  | .ttComposeSend r => r.wf
  | .ttCountersRead r => r.wf
  | .ttCountersClear r => r.wf
  | .clockStatus r => r.wf
  | .dvfsConfig r => r.wf
  | .avsConfig r => r.wf
  | .islandGate r => r.wf
  | .clockFlagsClear r => r.wf
  | .clockCountersRead r => r.wf
  | .clockCountersClear r => r.wf
  | .resetBlock r => r.wf
  | .resetDomain r => r.wf
  | .resetStatus r => r.wf
  | .bootStatus r => r.wf
  | .watchdogConfig r => r.wf
  | .firmwareSelect r => r.wf
  | .bootProfileApply r => r.wf
  | .resetCountersRead r => r.wf
  | .resetCountersClear r => r.wf
  | .calConfig r => r.wf
  | .calRun r => r.wf
  | .calStatus r => r.wf
  | .calStore r => r.wf
  | .calCountersRead r => r.wf
  | .calCountersClear r => r.wf
  | .nvmSlotStatus r => r.wf
  | .nvmRead r => r.wf
  | .nvmWriteBegin r _ => r.wf
  | .nvmWrite r _ => r.wf
  | .nvmWriteEnd r => r.wf
  | .nvmInvalidate r => r.wf
  | .nvmCountersRead r => r.wf
  | .nvmCountersClear r => r.wf
  | .selftestRun r _ => r.wf
  | .selftestStatus r => r.wf
  | .selftestAbort r => r.wf
  | .selftestResultRead r => r.wf
  | .repairStatus r => r.wf
  | .repairFuse r _ => r.wf
  | .portLoopback r => r.wf
  | .portTestMode r => r.wf
  | .portTestCountersRead r => r.wf
  | .portTestCountersClear r => r.wf
  | .coldResetAssert _ => true
  | .coldStart _ => true
  | .pinResetAssert => true
  | .pinStart _ => true
  | .warmStart => true
  | .fuseLoadDone => true
  | .firmwareSignatureDone _ _ _ => true
  | .memoryBistDone _ _ _ _ => true
  | .calibrationRestoreDone _ _ => true
  | .foregroundCalDone _ _ => true
  | .headlandReady => true
  | .headlandResetRelease => true
  | .watchdogExpiry => true
  | .startupTimerExpiry => true
  | .drainComplete _ => true
  | .drainTimeout _ => true
  | .resetStartupDone _ => true
  | .agentSequenceComplete _ => true
  | .epochIdleTimeout => true
  | .commitPrepareDone => true
  | .commitBoundaryApply _ => true
  | .commitTimeout _ => true
  | .portStartupBegin _ => true
  | .breakIntervalExpiry _ => true
  | .startupRetry _ => true
  | .linkUp _ _ => true
  | .lossOfSignal _ => true
  | .frameRx _ _ => true
  | .frameDequeue _ _ _ => true
  | .frameTxComplete _ _ _ _ => true
  | .egressFlushTimeout _ => true
  | .linkEgressFlush _ => true
  | .vs50FrameRx _ _ region _ => region.length == 5440 && region.all (· < 4)
  | .partnerRfTimeout _ => true
  | .oamWordRx _ => true
  | .oamStatusSend _ => true
  | .txAdjustRequest _ => true
  | .lpiAssert _ => true
  | .lpiSleepEntry _ => true
  | .lpiSleepEnd _ => true
  | .lpiQuietEnd _ => true
  | .lpiRefreshEnd _ => true
  | .lpiWakeStart _ => true
  | .lpiWakeEnd _ => true
  | .refreshMissed _ => true
  | .gaugeWindowEnd _ _ => true
  | .anchorReversion _ => true
  | .ctleStep _ => true
  | .scoutCycleEnd _ _ _ _ _ => true
  | .echoWindowTakeover _ => true
  | .aggressorReplace _ => true
  | .nextSeedEnd _ _ => true
  | .bundleGroupApply _ => true
  | .negotiationComplete _ _ => true
  | .halfDuplexPhaseEnd _ _ _ => true
  | .trainingPhaseChange _ => true
  | .trainingPhaseTimeout _ => true
  | .noAnswerTimeout _ => true
  | .partnerLostTimeout _ => true
  | .coeffRequestSend _ _ => true
  | .coeffRequestTimeout _ => true
  | .relinkTimeout _ => true
  | .preambleDetect _ _ _ => true
  | .ssdDetect _ _ _ => true
  | .ssdSearchTimeout _ => true
  | .rxRearm _ _ => true
  | .rxOverlap _ _ => true
  | .beaconRx _ => true
  | .plcaListenTimeout _ => true
  | .beaconLossTimeout _ => true
  | .plcaCycleStart _ => true
  | .txOpportunity _ => true
  | .txCollision _ _ => true
  | .marginIntervalEnd _ _ _ => true
  | .fecWindowEnd _ => true
  | .healthDrop _ _ => true
  | .soundingPeriodicStart _ => true
  | .soundingDone _ => true
  | .soundingRunTimeout _ => true
  | .cableTestStimulusStart _ _ => true
  | .cableTestStimulusEnd _ => true
  | .cableTestDone _ _ => true
  | .slackRequestRx _ _ => true
  | .slackAcceptRx _ _ => true
  | .slackRefuseRx _ _ => true
  | .slackRequestResend _ => true
  | .slackAcceptSilence _ => true
  | .lineWake _ _ => true
  | .lineWakeQuiet _ _ => true
  | .wakeBurstEnd _ => true
  | .wakeNAssert _ => true
  | .wakeNPulseEnd => true
  | .parkedHandshakeEnd => true
  | .devicePowerTimeout => true
  | .laneTrainingComplete _ _ _ _ => true
  | .laneTrainingTimeout _ => true
  | .fomIntervalEnd _ _ => true
  | .hostCtleStep _ => true
  | .hostCtleHoldEnd _ => true
  | .hostLinkUp _ _ _ => true
  | .hostLinkDown _ _ _ _ => true
  | .ebbAutoEntry _ => true
  | .ebbSignalDetect _ => true
  | .ebbRetrainTimeout _ => true
  | .eyeScanPointEnd _ _ => true
  | .eyeScanDone _ => true
  | .scrubRead _ _ _ _ _ _ => true
  | .loadWindowEnd => true
  | .gateChange _ => true
  | .gclConfigChange _ => true
  | .streamGateChange _ _ => true
  | .frerResetTimeout _ => true
  | .frerLatentTest _ => true
  | .preemptVerifyDone _ _ => true
  | .gptpMessageRx _ _ _ => true
  | .gptpSyncTx _ _ => true
  | .gptpPdelayTx _ _ => true
  | .ppsOutPulse _ => true
  | .ppsInEdge => true
  | .ttCopyProcess _ _ _ _ => true
  | .ttSignalStale _ => true
  | .ttDigestFlush _ => true
  | .ttComposePeriodic _ => true
  | .ttComposeHoldEnd _ => true
  | .integrityWindowEnd => true
  | .faultRecordCopy _ => true
  | .thermalLimit _ _ => true
  | .railLimit _ _ => true
  | .railUndervoltage _ _ => true
  | .keeperParity _ => true
  | .lrefStable _ => true
  | .lrefStartTimeout => true
  | .hrefPresent => true
  | .clockFail _ _ => true
  | .clockReturn _ => true
  | .pllLock _ => true
  | .clockForcedSwitch _ => true
  | .keeperFreqFault _ => true
  | .islandGateEffect _ => true
  | .bridgesOpen _ => true
  | .pmbusWriteDone _ _ => true
  | .dvfsSettled _ => true
  | .dvfsSettleTimeout _ => true
  | .undertowRunStart _ => true
  | .undertowTempTrigger _ _ => true
  | .undertowMeasureDone _ _ => true
  | .quietOpportunityMeasure _ _ _ _ => true
  | .undertowStep _ => true
  | .nvmSessionIdleTimeout => true
  | .nvmWriteEndDone _ => true
  | .calStoreDone _ => true
  | .repairLogWriteDone _ => true
  | .selftestPreconditionCheck _ _ => true
  | .selftestStepDone _ _ => true
  | .managementLaneLinkChange _ => true
  | .powerOnRelease => true
  | .pcsLockLost _ => true
  | .vs50FrameTx _ words => decide (words.length ≤ 160)
  | .csmaBackoffExpiry _ => true

end Sys2Proof
end

