-- ==== Sys2Proof/Tests/Slice0.lean ====
section
/-! SUPPORT. Tests of the model: ill-formed commands are refused, check values and worked examples of the spec, the order of the
checks of a request; and for each statement of the certificates with hypotheses, states and requests that meet them. Most states
are `live`, a device at READY, with one part of it changed. -/

open Sys2Proof Sys2Proof.Machine

namespace Sys2Proof.Tests

-- One theorem at a time: each waits for the kernel, and many that wait at once take much memory.
set_option Elab.async false


/-- A device at READY with its references stable and its PLLs locked: the state after reset, with what a start leaves. -/
def live : State := { State.reset with
  ctl := { State.reset.ctl with feReady := true }
  rst := { State.reset.rst with powered := true, pgood := true, resetN := true, headland := 2, asserted := false }
  clk := { State.reset.clk with lref := 1, href := 1, locked := 2 ^ 27 - 1, onKeeper := 0 } }

/-- `live` with line port 0 as given. -/
def port0 (f : Port → Port) : State := live.updPort 0 f
/-- `live` with host lane 0 as given. -/
def lane0 (f : Lane → Lane) : State := live.updLane 0 f
/-- `live` with host link 0 bonded from lanes 0 and 1 of quay 0. -/
def bonded : State := setBond live 0 [1, 1, 0, 0, 0, 0, 0, 0]
/-- A request of the SPI host, version 1, REPLY_WANTED. -/
def rq (t : Nat) (ps : List Nat) : Req :=
  { src := 0, sa := 0, version := 1, flags := 2, tag := 7, target := BitVec.ofNat 32 t, seq := 0, rsvd := 0
    params := ps.map (BitVec.ofNat 8), cmac := none }
/-- `n` parameter bytes of zero. -/
def zs (n : Nat) : List Nat := List.replicate n 0
/-- Good rails and a good clock at a test's precondition check. -/
def okPre : Precond := { clock := 0, rails := [550, 750, 900, 1200, 900, 1200, 1800, 1800] }

/-- `live` with key slot 0 programmed. -/
def keyed : State := { live with fuses := { live.fuses with key0 := { programmed := true, revoked := false, key := 1 } } }
/-- `live` with an epoch open of the SPI host. -/
def epoched : State := { live with epoch := { live.epoch with state := 1, owner := 0, id := 0 } }
/-- `live` with start-up profile 1 in the MRAM. -/
def profiled : State := writeSlotHeader live 3 1 4
/-- `live` with an NVM write session of the SPI host on region 1. -/
def writing : State := { live with nvm := { live.nvm with session := some { region := 1, src := 0, len := 8, closing := none } } }
/-- `live` with line port 0 at Down. -/
def downed : State := port0 fun x => { x with st := .down }
/-- `live` with line port 0 at Up in mode 9. -/
def vsUp : State := port0 fun x => { x with st := .up, resMode := 9 }
/-- `live` with line port 0 committed to 10BASE-T1S multidrop, at Up. -/
def segment : State :=
  (live.updPcfg 0 fun c => { c with mode := { c.mode with set := true, mode := 2 } }).updPort 0 fun x =>
    { x with st := .up, resMode := 2 }
/-- `live` with a baseline of line port 0. -/
def based : State := { live with baselines := live.baselines.set none 0 (some { mode := 9, velocity := 694, ident := 0, refls := [] }) }
/-- Parameters of SOUNDING_BASELINE_LOAD: mode 9, no reflections, its CRC-16. -/
def baselineParams : List Nat :=
  let b := [1, 9] ++ zs 12
  let c := crc16 ((b ++ zs 128).map (BitVec.ofNat 8))
  b ++ [c / 256, c % 256] ++ zs 128
/-- `live` with one stream entry of handle 0. -/
def streamed : State := updStreamCfg live fun c => { c with table := c.table.set none 0 (some {
  key := 0, kt := 1, flags := 0, ingress := 0xFFFF, handle := 0, dest := 0, cls := 0, vact := 0, vtag := 0, filter := 0xFFFF
  frer := 0xFFFF }) }
/-- `live` with one gate control entry loaded at egress position 0. -/
def gclLoaded : State := updGclCfg live 0 fun g => { g with loaded := g.loaded.set none 0 (some (0, 255, 1)) }
/-- `live` with layout 0 composed for egress position 0. -/
def composed : State := updTideCfg live fun t => { t with composes := t.composes.set none 0 (some {
  egress := 0, cls := 0, flags := 0, length := 60, period := 0, minInt := 1, payload := 0, crcKind := 0, aliveLen := 0
  crcPos := 0, dataId := 0, alivePos := 0, payLen := 8, seqOff := 0xFFFF, ipOff := 0, udpOff := 0 }) }

/-- The state meets the hypotheses. -/
def on (s : State) (P : State → Prop) [DecidablePred P] : Bool := decide (P s)
/-- `live` with the resets and the start-up as given. -/
def starts (f : Rst → Rst) : State := { live with rst := f live.rst }
/-- `live` with the clocks as given. -/
def clocks (f : Clk → Clk) : State := { live with clk := f live.clk }
/-- A waiter of the SPI host. -/
def wtr : Waiter := { op := 0x1001, tag := 7, src := 0 }
/-- A request for a reset of port 0 and its phase. -/
def rjob (target phase : Nat) : ResetJob := { target, reach := 4, hold := false, phase }
/-- Line port 0 in training in mode 9. -/
def training (f : Start → Start) : State := port0 fun x => { x with st := .training, resMode := 9, start := f x.start }
/-- Line port 0 at Up in mode 9, its VS50 layer as given. -/
def vs (f : Vs50 → Vs50) : State := port0 fun x => { x with st := .up, resMode := 9, vs := f x.vs }
/-- Line port 0 at Up in mode 9, its receiver as given. -/
def dsp (f : Dsp → Dsp) : State := port0 fun x => { x with st := .up, resMode := 9, dsp := f x.dsp }
/-- Line port 0 at Up in 10BASE-T1S mode `m`. -/
def t1s (m : Nat) (f : Md → Md) : State := port0 fun x => { x with st := .up, resMode := m, md := f x.md }
/-- Line port 0 at Up in mode 9, its health as given. -/
def health (f : Health → Health) : State := port0 fun x => { x with st := .up, resMode := 9, health := f x.health }
/-- Line port 0 in Slack, its power as given. -/
def slack (f : Power → Power) : State := port0 fun x => { x with st := .slack, resMode := 9, power := f x.power }
/-- A frame of 64 bytes in slice 0 that egress position 0 sends. -/
def frame : Frame :=
  { pos := 0, slice := 0, bytes := List.replicate 64 0, stamp := 0, stampValid := false, bad := false, carryBad := false
    metaBad := false, holders := [] }
/-- The MAC of egress position `e` sends that frame. -/
def sends (e : Nat) (started : Bool) (s : State) : State :=
  s.updEgr e fun x => { x with mac := some { frame, cls := 0, started, cut := false } }

/-- The state meets the invariant of `StepKeepsOk`. -/
theorem meets_ok : live.Ok := by
  unfold State.Ok repliesFit eventsRise countersFit; decide +kernel

/-- A request of `live` with one field of its header or its parameters as given. -/
def odd (f : Req → Req) : Req := f (rq 0 [])
/-- A request with STAGE set. -/
def stagedRq (t : Nat) (ps : List Nat) : Req := { rq t ps with flags := 6 }
/-- `live` with 4,096 events queued, and one lost. -/
def eventful : State := { live with ctl := { live.ctl with
  events := List.replicate 4096 { seq := 1, code := 3, sev := 1, tmValid := false, src := 0, tidemark := 0, op := 0, tag := 0, detail := [] }
  nextEvent := 2, lost := 1 } }
/-- An event packet and a reply packet of the SPI host. -/
def packet (event : Bool) : Packet :=
  { dest := 0, da := 0, opcode := 3, tag := 0, target := 0, seq := 0, flags := 0, status := 0, data := [], cmac := none, event }
/-- `live` with the SPI reply queue full. -/
def crowded : State := { live with ctl := { live.ctl with spiQueue := List.replicate 24 (packet true) ++ List.replicate 8 (packet false) } }
/-- `live` with the request window as written. -/
def windowed (bs : List Byte) : State := { live with ctl := { live.ctl with window := windowWrite [] 0 bs } }

/-- `s` with one packet of the SPI host in Headland's command queue. -/
def waitingPacket (s : State) : State := { s with ctl := { s.ctl with cmdQueue := [{ op := 1, req := rq 0 [], own := 0, pool := 0 }] } }
/-- `s` with 126 such packets: the guaranteed entries of the SPI host, and every shared one. -/
def full (s : State) : State := { s with ctl := { s.ctl with
  cmdQueue := List.replicate 126 { op := 1, req := rq 0 [], own := 0, pool := 0 } } }

/-- States and requests that meet the hypotheses of the statements on steps, packets and shared operations. -/
theorem meets_sharedRules : [
    on State.reset fun s => s.pending = [] ∧ s.ctl.cmdQueue = [],
    on (waitingPacket live) fun s => s.ctl.cmdQueue.map (·.op) = [0x0001] ∧ serving s = true ∧ queuedOf s 0 = 1 ∧
      sourceOpen s false 0 = true,
    on (waitingPacket State.reset) fun s => serving s = false ∧ s.ctl.cmdQueue ≠ [],
    on (full live) fun s => serving s = true ∧ 2 ≤ queuedOf s 0 ∧ 124 ≤ sharedUsed s,
    on live fun _ => writesMram (.echo (rq 0 [])) = false ∧ writesFuses (.echo (rq 0 [])) = false ∧
      writesCfg (.echo (rq 0 [])) = false ∧ writesOverride (.echo (rq 0 [])) = false,
    on live fun s => judge (received (odd fun r => { r with version := 2 }) s) echoCmd (odd fun r => { r with version := 2 }) =
      .refuse .invalidOpcode [],
    on State.reset fun s => s.ctl.feReady = false,
    on (starts fun x => { x with headland := 1 }) fun s => s.ctl.feReady = true ∧ sourceOpen s false 0 = true ∧
      (rq 0 []).flags.getLsbD 7 = false ∧ s.rst.headland ≠ 2 ∧ s.rst.headland ≠ 4,
    on live fun s => sourceOpen s echoCmd.bw 0 = true ∧ s.ctl.lastSeq.get 0 0 < 65536,
    on live fun s => (pktLenOk (windowBytes s) && pktCrcOk (windowBytes s)) = false,
    on (windowed (reqBody 0xF005 (rq 0 [1, 2]))) fun s => (pktLenOk (windowBytes s) && pktCrcOk (windowBytes s)) = true ∧
      pktOp (windowBytes s) = 0xF005,
    on live fun s => (cmdOf s 0xF005).map (·.op) = some echoCmd.op,
    on eventful fun s => 4096 ≤ s.ctl.events.length ∧ s.ctl.lost ≠ 0 ∧ (s.ctl.events.filter fun e => 1 < e.seq).length < 4096,
    on crowded fun s => s.ctl.spiQueue.length = 32 ∧ (s.ctl.spiQueue.filter (·.event)).length ≤ 24,
    on epoched fun s => s.epoch.state < 2 ∧ s.epoch.state ≠ 0 ∧
      permitted s { echoCmd with bw := false, stageable := true } (stagedRq 0 []) = true,
    on live fun s => staged (stagedRq 0 []) = true ∧ echoCmd.bw = true ∧ authOk (received (stagedRq 0 []) s) echoCmd.op (stagedRq 0 []) = true,
    on { epoched with epoch := { epoched.epoch with owner := 1 } } fun s => s.epoch.state ≠ 0 ∧ s.epoch.owner ≠ sn (stagedRq 0 []) ∧
      authOk (received (stagedRq 0 []) s) 0x0010 (stagedRq 0 []) = true ∧ p32 (rq 0 [0, 0, 14, 16]) 0 = 3600].all id = true := by
  decide +kernel

/-! ### Hypotheses of the statements on commands -/

/-- The request passes every check: `Taken` as a Bool. -/
def takes (x : Cmd × Req × State) : Bool :=
  let s1 := received x.2.1 x.2.2
  x.2.2.ctl.feReady && sourceOpen x.2.2 x.1.bw (sn x.2.1) && (x.1.bw || x.2.2.rst.headland == 2 && x.2.2.ctl.cmdQueue.isEmpty) &&
    authOk s1 x.1.op x.2.1 &&
    x.2.1.flags &&& 0xFC == 0 && x.2.1.version == 1 && x.2.1.rsvd == 0 && (!x.1.spiOnly || sn x.2.1 == 0) &&
    x.1.target s1 (tw x.2.1) && x.1.len x.2.1.params && x.1.check s1 x.2.1 == none && step9 s1 x.1 x.2.1 == none

/-- Requests that pass by `takes` are `Taken`. -/
theorem taken_all (l : List (Cmd × Req × State)) (h : l.all takes = true) : ∀ x ∈ l, Taken x.1 x.2.1 x.2.2 := by
  intro x hx
  have := List.all_eq_true.mp h x hx
  simp only [takes, Bool.and_eq_true, Bool.or_eq_true, beq_iff_eq, Bool.not_eq_true'] at this
  obtain ⟨⟨⟨⟨⟨⟨⟨⟨⟨⟨⟨h1, h2⟩, h3⟩, h4⟩, h5⟩, h6⟩, h7⟩, h8⟩, h9⟩, h10⟩, h11⟩, h12⟩ := this
  exact ⟨h1, h2, h3.imp_right fun h => ⟨h.1, List.isEmpty_iff.mp h.2⟩, h4, h5, h6, h7, fun h => by rcases h8 with h8 | h8 <;> simp_all, h9, h10, h11, h12⟩

/-- Requests that meet the hypotheses of `HostSessionCommands`. -/
theorem taken_hostSessionCommands : ∀ x ∈ [
    (identityReadCmd, rq 0 (zs 0), live), (deviceStatusCmd, rq 0 (zs 0), live), (echoCmd, rq 0 (zs 0), live),
    (readCoreStatusCmd, rq 0 (zs 0), live), (controlCountersReadCmd, rq 0 (zs 0), live),
    (controlCountersClearCmd, rq 0 (zs 0), live),
    (transportConfigCmd, rq 0 [136, 181, 0, 0, 0, 0, 0, 0, 0, 0, 0, 0, 0, 0, 0, 0, 0, 0, 0, 0], live),
    (eventRouteCmd, rq 0 (zs 8), live), (eventMaskCmd, rq 0 (zs 4), live), (eventReadCmd, rq 0 (zs 4), live),
    (eventAckCmd, rq 0 (zs 4), live), (readFaultRecordCmd, rq 0 (zs 4), live)], Taken x.1 x.2.1 x.2.2 :=
  taken_all _ (by decide +kernel)

/-- Requests that meet the hypotheses of `KeyAndEpochCommands`. -/
theorem taken_keyAndEpochCommands : ∀ x ∈ [
    (authPolicySetCmd, rq 0 (zs 4), keyed), (authKeyProgramCmd, rq 0 (zs 20), live), (authKeyRevokeCmd, rq 0 (zs 4), live),
    (epochOpenCmd, rq 0 [0, 0, 0, 1], live), (epochCommitCmd, rq 0 [0, 0, 0, 0, 0, 1, 0, 0], epoched),
    (epochAbortCmd, rq 0 (zs 4), epoched), (epochStatusCmd, rq 0 (zs 0), live),
    (bootProfileApplyCmd, rq 0 [1, 0, 0, 0], profiled)], Taken x.1 x.2.1 x.2.2 :=
  taken_all _ (by decide +kernel)

/-- Requests that meet the hypotheses of `OverrideAndResetCommands`. -/
theorem taken_overrideAndResetCommands : ∀ x ∈ [
    (safeStateCmd, rq 0 [1, 0, 0, 0], live),
    (portQuietCmd, rq 0 [1, 0, 0, 0, 0, 0, 0, 0, 0, 0, 0, 0, 0, 0, 0, 0, 0, 0, 0, 1], live),
    (domainResetCmd, rq 1 [1, 0, 0, 0], live), (deviceWarmResetCmd, rq 0 [0x57, 0x41, 0x52, 0x4D], live),
    (resetBlockCmd, rq 0x01000000 [1, 1, 0, 0, 0, 0, 0, 0], live), (resetDomainCmd, rq 1 [1, 1, 0, 0, 0, 0, 0, 0], live),
    (resetStatusCmd, rq 0 (zs 0), live), (resetCountersReadCmd, rq 0 (zs 0), live),
    (resetCountersClearCmd, rq 0 (zs 0), live), (bootStatusCmd, rq 0 (zs 0), live),
    (watchdogConfigCmd, rq 0 [1, 0, 0, 10], live), (firmwareSelectCmd, rq 0 [1, 0, 0, 0], live)], Taken x.1 x.2.1 x.2.2 :=
  taken_all _ (by decide +kernel)

/-- Requests that meet the hypotheses of `IntegrityCommands`. -/
theorem taken_integrityCommands : ∀ x ∈ [
    (integrityConfigCmd, rq 0 [1, 1, 1, 1, 1, 0, 0, 0], live), (integrityStatusCmd, rq 0 (zs 0), live),
    (integrityFaultClearCmd, rq 0 (zs 4), live), (faultLogReadCmd, rq 0 (zs 4), live),
    (integrityCountersReadCmd, rq 0 (zs 0), live), (integrityCountersClearCmd, rq 0 (zs 0), live),
    (faultInjectCmd, rq 0 [1, 1, 0, 0, 1, 0, 0, 5], live)], Taken x.1 x.2.1 x.2.2 :=
  taken_all _ (by decide +kernel)

/-- Requests that meet the hypotheses of `PortCommands`. -/
theorem taken_portCommands : ∀ x ∈ [
    (portModeSetCmd, rq 0x01000000 [9, 0, 1, 0, 0, 0, 5, 242, 0, 10, 0, 0], live),
    (portModeGetCmd, rq 0x1000000 (zs 0), live),
    (portAdminCmd, rq 0 [1, 0, 0, 0, 0, 0, 0, 0, 0, 0, 0, 0, 0, 0, 0, 0, 0, 0, 0, 1], live),
    (portStatusReadCmd, rq 0 (zs 16), live), (portCountersReadCmd, rq 0x1000000 (zs 0), live),
    (portCountersClearCmd, rq 0 (zs 16), live), (coveStatusCmd, rq 0x2000000 (zs 0), live),
    (startConfigCmd, rq 0x01000000 [2, 3, 0, 30, 0, 0, 0, 0], live), (startStatusCmd, rq 0x1000000 (zs 0), live),
    (startCountersReadCmd, rq 0x1000000 (zs 0), live), (startCountersClearCmd, rq 0 (zs 16), live),
    (relinkStoreReadCmd, rq 0x1000000 (zs 0), live), (relinkStoreClearCmd, rq 0 (zs 16), live),
    (startRestartCmd, rq 0x1000000 (zs 4), live)], Taken x.1 x.2.1 x.2.2 :=
  taken_all _ (by decide +kernel)

/-- Requests that meet the hypotheses of `Vs50AndDspCommands`. -/
theorem taken_vs50AndDspCommands : ∀ x ∈ [
    (vs50ConfigCmd, rq 0x1000000 (zs 8), live), (vs50StatusCmd, rq 0x01000000 [], vsUp),
    (vs50CountersReadCmd, rq 0x1000000 (zs 0), live), (vs50CountersClearCmd, rq 0 (zs 16), live),
    (vs50OamSendCmd, rq 0x01000000 [16, 0, 0, 0, 0, 0, 0, 0, 0, 0, 0, 0, 0, 0, 0, 0], vsUp),
    (vs50OamReadCmd, rq 0x01000000 [0, 1, 0, 0], vsUp),
    (dspConfigCmd, rq 0x01000000 [7, 0, 0, 0, 0, 0, 10, 0, 0, 1, 0, 10, 0, 1, 0, 1], live),
    (dspStatusCmd, rq 0x1000000 (zs 0), live), (bundleGroupSetCmd, rq 0x2000000 (zs 4), live),
    (bundleGroupGetCmd, rq 0x2000000 (zs 0), live), (xtalkStatusCmd, rq 0x1000000 (zs 0), live),
    (echoWindowSetCmd, rq 0x1000000 (zs 20), live), (anchorControlCmd, rq 0x01000000 [3, 0, 0, 0], live),
    (dspCountersReadCmd, rq 0x1000000 (zs 0), live), (dspCountersClearCmd, rq 0 (zs 16), live),
    (tapReadCmd, rq 0x1000000 (zs 8), live)], Taken x.1 x.2.1 x.2.2 :=
  taken_all _ (by decide +kernel)

/-- Requests that meet the hypotheses of `MultidropCommands`. -/
theorem taken_multidropCommands : ∀ x ∈ [
    (mdConfigCmd, rq 0x01000000 [0, 0, 8, 32, 0, 128, 0, 120, 0, 10, 0, 0], live), (mdStatusCmd, rq 0x01000000 [], segment),
    (mdCountersReadCmd, rq 0x1000000 (zs 0), live), (mdCountersClearCmd, rq 0 (zs 16), live),
    (mdNodeTableReadCmd, rq 0x1000000 (zs 4), live), (mdNodeTableClearCmd, rq 0 (zs 16), live)], Taken x.1 x.2.1 x.2.2 :=
  taken_all _ (by decide +kernel)

/-- Requests that meet the hypotheses of `HealthCommands`. -/
theorem taken_healthCommands : ∀ x ∈ [
    (healthConfigCmd, rq 0x01000000 [5, 0, 0, 0, 0, 10, 0, 0, 0, 100, 0, 0, 0, 1, 0, 0], live),
    (healthStatusCmd, rq 0x1000000 (zs 0), live), (healthCountersReadCmd, rq 0x1000000 (zs 0), live),
    (healthCountersClearCmd, rq 0 (zs 16), live),
    (soundingConfigCmd, rq 0x01000000 [0, 4, 0, 60, 2, 182, 40, 30, 0, 30, 2, 0, 0, 10, 0, 0], live),
    (soundingRunCmd, rq 0x01000000 (zs 4), vsUp), (soundingResultReadCmd, rq 0x1000000 (zs 0), live),
    (soundingProfileReadCmd, rq 0x1000000 (zs 8), live), (soundingBaselineSetCmd, rq 0x01000000 [2, 0, 0, 0], live),
    (soundingBaselineReadCmd, rq 0x01000000 [], based), (soundingBaselineLoadCmd, rq 0x01000000 baselineParams, live),
    (cableTestRunCmd, rq 0x01000000 (zs 4), downed), (cableTestResultCmd, rq 0x1000000 (zs 0), live),
    (cableTestProfileReadCmd, rq 0x1000000 (zs 8), live)], Taken x.1 x.2.1 x.2.2 :=
  taken_all _ (by decide +kernel)

/-- Requests that meet the hypotheses of `PowerCommands`. -/
theorem taken_powerCommands : ∀ x ∈ [
    (portPowerConfigCmd, rq 0x01000000 [18, 0, 0, 20, 0, 100, 0, 0], live),
    (portSlackCmd, rq 0 [1, 0, 0, 0, 0, 0, 0, 0, 0, 0, 0, 0, 0, 0, 0, 0, 0, 0, 0, 1], live),
    (portPowerStatusCmd, rq 0x1000000 (zs 0), live), (devicePowerSetCmd, rq 0 [1, 0, 0, 1, 0, 0, 0, 0], live),
    (devicePowerStatusCmd, rq 0 (zs 0), live), (wakeConfigCmd, rq 0 [13, 0, 0, 1, 0, 0, 0, 0], live),
    (powerCountersReadCmd, rq 0x1000000 (zs 0), live), (powerCountersClearCmd, rq 0 (zs 16), live)], Taken x.1 x.2.1 x.2.2 :=
  taken_all _ (by decide +kernel)

/-- Requests that meet the hypotheses of `HostLinkCommands`. -/
theorem taken_hostLinkCommands : ∀ x ∈ [
    (hostLinkConfigCmd, rq 0x6000000 (zs 8), live), (hostLaneConfigCmd, rq 0x04000000 [44, 1, 0, 15, 0, 0, 0, 0], live),
    (hostLinkMacConfigCmd, rq 0x05000000 [0x05, 0xF2, 0, 10], bonded),
    (hostAdminCmd, rq 0 [1, 0, 0, 0, 0, 0, 0, 0, 0, 0, 0, 1], live),
    (hostEbbCmd, rq 0 [1, 0, 0, 0, 0, 0, 0, 0, 0, 0, 0, 1], live), (hostTestCmd, rq 0 (zs 12), live),
    (hostLaneStatusCmd, rq 0x4000000 (zs 0), live), (hostLinkStatusCmd, rq 0x05000000 [], bonded),
    (hostLaneCountersReadCmd, rq 0x4000000 (zs 0), live), (hostLaneCountersClearCmd, rq 0 (zs 8), live),
    (hostLinkCountersReadCmd, rq 0x05000000 [], bonded), (hostLinkCountersClearCmd, rq 0 (zs 8), live),
    (eyeScanStartCmd, rq 0x04000000 [1, 16, 0, 1, 0, 1, 1, 1, 3, 1, 0, 0], lane0 fun x => { x with st := .up }),
    (eyeScanReadCmd, rq 0x4000000 (zs 4), live)], Taken x.1 x.2.1 x.2.2 :=
  taken_all _ (by decide +kernel)

/-- Requests that meet the hypotheses of `FabricCommands`. -/
theorem taken_fabricCommands : ∀ x ∈ [
    (fabricConfigCmd, rq 0x07000004 [1, 0, 0, 100, 0, 0, 0, 0], live), (fabricStatusCmd, rq 0x7000004 (zs 0), live),
    (queueConfigCmd, rq 0x07000004 [0, 0, 0, 1, 0, 0, 0, 0, 0, 0, 0, 0, 0, 0, 0, 0], live),
    (schedulerConfigCmd, rq 0x7000004 (zs 12), live), (shaperConfigCmd, rq 0x7000004 (zs 8), live),
    (cutThroughConfigCmd, rq 0x7000004 (zs 48), live), (queueStatusCmd, rq 0x7000004 (zs 4), live),
    (queueCountersReadCmd, rq 0x7000004 (zs 4), live), (queueCountersClearCmd, rq 0x7000004 (zs 4), live),
    (sliceCountersReadCmd, rq 0x7000000 (zs 0), live), (sliceCountersClearCmd, rq 0x7000000 (zs 0), live),
    (sliceGateCmd, rq 0x07000000 [1, 0, 0, 0], live)], Taken x.1 x.2.1 x.2.2 :=
  taken_all _ (by decide +kernel)

/-- Requests that meet the hypotheses of `StreamCommands`. -/
theorem taken_streamCommands : ∀ x ∈ [
    (streamTableConfigCmd, rq 0x7000004 (zs 16), live),
    (streamEntryWriteCmd, rq 0x07000004 [0, 0, 0, 0, 0, 0, 0, 0, 0, 0, 0, 0, 0, 0, 0, 0, 0, 0, 0, 0, 0, 0, 0, 0, 0, 0, 0, 0, 0, 0, 0, 0, 0, 0, 0, 0, 0, 0, 0, 0, 1, 0, 255, 255, 0, 0, 0, 0, 0, 0, 0, 0, 0, 0, 255, 255, 255, 255, 0, 0, 0, 0, 0, 0], live),
    (streamEntryDeleteCmd, rq 0x07000004 (zs 4), streamed), (streamEntryReadCmd, rq 0x07000004 (zs 4), streamed),
    (streamLookupCmd, rq 0x7000004 (zs 44), live), (streamTableStatusCmd, rq 0x7000004 (zs 0), live),
    (destWriteCmd, rq 0x7000004 (zs 28), live), (ingressProfileSetCmd, rq 0x7000004 (zs 16), live),
    (qciFilterSetCmd, rq 0x07000004 [0, 0, 0, 64, 255, 255, 255, 255, 0, 0, 0, 0], live),
    (qciMeterSetCmd, rq 0x07000004 [0, 0, 0, 0, 0, 0, 0, 0, 0, 0, 0, 0, 0, 0, 0, 64, 0, 0, 0, 64], live),
    (qciGateSetCmd, rq 0x07000004 [0, 0, 0, 1, 0, 0, 0, 0, 0, 0, 0, 0, 0, 0, 0, 0, 0, 0, 0, 1, 0, 0, 0, 0, 0, 0, 0, 1], live),
    (qciCountersReadCmd, rq 0x7000004 (zs 4), live), (qciCountersClearCmd, rq 0x7000004 (zs 4), live),
    (frerSeqgenSetCmd, rq 0x7000004 (zs 4), live),
    (frerRecoverySetCmd, rq 0x07000004 [0, 0, 0, 1, 2, 0, 0, 1, 0, 0, 0, 0, 0, 0, 0, 0], live),
    (frerCountersReadCmd, rq 0x7000004 (zs 4), live), (frerCountersClearCmd, rq 0x7000004 (zs 4), live),
    (ingressCountersReadCmd, rq 0x7000004 (zs 4), live),
    (ingressCountersClearCmd, rq 0x7000004 (zs 4), live)], Taken x.1 x.2.1 x.2.2 :=
  taken_all _ (by decide +kernel)

/-- Requests that meet the hypotheses of `GateAndTimeCommands`. -/
theorem taken_gateAndTimeCommands : ∀ x ∈ [
    (gclLoadCmd, rq 0x7000004 (zs 8), live),
    (gclSetCmd, rq 0x07000004 [0, 0, 0, 1, 0, 0, 0, 0, 0, 0, 0, 0, 0, 0, 0, 0, 0, 0, 0, 1, 0, 0, 0, 0, 0, 0, 0, 0], gclLoaded),
    (gclStatusCmd, rq 0x7000004 (zs 4), live), (gclReadCmd, rq 0x7000004 (zs 8), live),
    (preemptConfigCmd, rq 0x07000004 [0, 0, 0, 0, 0, 10, 0, 0], live), (preemptStatusCmd, rq 0x7000004 (zs 4), live),
    (preemptCountersReadCmd, rq 0x7000004 (zs 4), live), (preemptCountersClearCmd, rq 0x7000004 (zs 16), live),
    (timeReadCmd, rq 0 (zs 0), live), (timeAdjustCmd, rq 0 [0, 1, 0, 0, 0, 0, 0, 0, 0, 0, 0, 0, 0, 0, 0, 0], live),
    (gptpConfigCmd, rq 0 (zs 8), live), (gptpPortConfigCmd, rq 0 (zs 8), live), (gptpStatusCmd, rq 0 (zs 4), live),
    (gptpCountersReadCmd, rq 0 (zs 4), live), (ppsConfigCmd, rq 0 [0, 0, 0, 1, 0, 0, 0, 1, 0, 0, 0, 0], live),
    (ppsInReadCmd, rq 0 (zs 0), live)], Taken x.1 x.2.1 x.2.2 :=
  taken_all _ (by decide +kernel)

/-- Requests that meet the hypotheses of `TideTableCommands`. -/
theorem taken_tideTableCommands : ∀ x ∈ [
    (ttSourceBindCmd, rq 0x08000010 [0, 0, 0, 0, 0, 0, 1, 1], live),
    (ttLayoutSetCmd, rq 0x08000010 [0, 0, 1, 0, 0, 0, 0, 8, 0, 0, 0, 0, 0, 255, 0, 0, 0, 0, 0, 0, 0, 0, 0, 0, 0, 0, 0, 0, 0, 0, 0, 0], live),
    (ttLayoutDeleteCmd, rq 0x08000010 (zs 4), composed), (ttSignalDefineCmd, rq 0x8000010 (zs 4), live),
    (ttComposeSetCmd, rq 0x08000010 [0, 0, 0, 0, 0, 0, 0, 60, 0, 0, 0, 1, 0, 0, 0, 0, 0, 0, 0, 0, 0, 0, 0, 8, 255, 255, 0, 0, 0, 0, 0, 0], live),
    (ttComposeTemplateCmd, rq 0x08000010 [0, 0, 0, 0, 0, 4, 0, 0, 0, 0, 0, 0], composed),
    (ttDigestRouteSetCmd, rq 0x08000010 [0, 0, 0, 0, 137, 3, 0, 0, 0, 0, 0, 0, 0, 64, 0, 1], live),
    (ttSignalReadCmd, rq 0x8000010 (zs 8), live), (ttSignalWriteCmd, rq 0x8000010 (zs 4), live),
    (ttLayoutStatusCmd, rq 0x8000010 (zs 4), live), (ttStatusCmd, rq 0x8000010 (zs 0), live),
    (ttComposeSendCmd, rq 0x08000010 (zs 4), composed), (ttCountersReadCmd, rq 0x8000000 (zs 0), live),
    (ttCountersClearCmd, rq 0x8000000 (zs 0), live)], Taken x.1 x.2.1 x.2.2 :=
  taken_all _ (by decide +kernel)

/-- Requests that meet the hypotheses of `ClockAndCalibrationCommands`. -/
theorem taken_clockAndCalibrationCommands : ∀ x ∈ [
    (clockStatusCmd, rq 0 (zs 0), live), (dvfsConfigCmd, rq 0 [1, 0, 0, 0], live),
    (avsConfigCmd, rq 0 [0x10, 0, 0, 0], live), (islandGateCmd, rq 0x09000000 [1, 0, 0, 0], live),
    (clockFlagsClearCmd, rq 0 (zs 8), live), (clockCountersReadCmd, rq 0 (zs 0), live),
    (clockCountersClearCmd, rq 0 (zs 0), live), (calConfigCmd, rq 0 [2, 5, 1, 0], live), (calRunCmd, rq 0 (zs 28), live),
    (calStatusCmd, rq 0x1000000 (zs 0), live), (calStoreCmd, rq 0 (zs 0), live),
    (calCountersReadCmd, rq 0x1000000 (zs 0), live), (calCountersClearCmd, rq 0 (zs 24), live)], Taken x.1 x.2.1 x.2.2 :=
  taken_all _ (by decide +kernel)

/-- Requests that meet the hypotheses of `NvmCommands`. -/
theorem taken_nvmCommands : ∀ x ∈ [
    (nvmSlotStatusCmd, rq 0xa000000 (zs 0), live), (nvmReadCmd, rq 0xa000000 (zs 8), live),
    (nvmWriteBeginCmd false, rq 0x0A000001 [0, 0, 0, 8], live), (nvmWriteBeginCmd true, rq 0x0A000001 [0, 0, 0, 8], live),
    (nvmWriteCmd false, rq 0x0A000001 [0, 0, 0, 0, 0, 4, 0, 0, 0, 0, 0, 0], writing),
    (nvmWriteCmd true, rq 0x0A000001 [0, 0, 0, 0, 0, 4, 0, 0, 0, 0, 0, 0], writing),
    (nvmWriteEndCmd, rq 0x0A000001 (zs 4), writing), (nvmInvalidateCmd, rq 0x0A000001 [0x45, 0x52, 0x41, 0x53], live),
    (nvmCountersReadCmd, rq 0 (zs 0), live), (nvmCountersClearCmd, rq 0 (zs 0), live)], Taken x.1 x.2.1 x.2.2 :=
  taken_all _ (by decide +kernel)

/-- Requests that meet the hypotheses of `SelfTestCommands`. -/
theorem taken_selfTestCommands : ∀ x ∈ [
    (selftestRunCmd okPre, rq 0x01000000 [3, 4, 0, 0, 0, 0, 0, 0], downed), (selftestStatusCmd, rq 0x1000000 (zs 0), live),
    (selftestAbortCmd, rq 0x1000000 (zs 0), live), (selftestResultReadCmd, rq 0x01000000 [3, 0, 0, 0], live),
    (repairStatusCmd, rq 0x7000000 (zs 0), live),
    (repairFuseCmd okPre, rq 0x07000000 [0, 0, 0, 1, 0x46, 0x55, 0x53, 0x45], live),
    (portLoopbackCmd, rq 0x1000000 (zs 16), live), (portTestModeCmd, rq 0x1000000 (zs 8), live),
    (portTestCountersReadCmd, rq 0x1000000 (zs 0), live),
    (portTestCountersClearCmd, rq 0 (zs 16), live)], Taken x.1 x.2.1 x.2.2 :=
  taken_all _ (by decide +kernel)

/-- Requests and states that meet the further hypotheses of single clauses of the commands' statements. -/
theorem meets_commandClauses : [
    on (heard (rq 0x01000000 []) live) fun s => atBoundary s 0 = true,
    on (heard (rq 0x01000000 []) vsUp) fun s => atBoundary s 0 = false,
    on (starts fun x => { x with jobs := [{ (rjob 0x01000000 2) with hold := true }] }) fun s =>
      (s.rst.jobs.any fun j => j.target == tw (rq 0x01000000 [3, 1, 0, 0, 0, 0, 0, 0]) && j.hold) = true,
    on live fun s => (s.rst.jobs.any fun j => j.target == tw (rq 0x01000000 [3, 1, 0, 0, 0, 0, 0, 0]) && j.hold) = false,
    on live fun s => gateAsked s 0 = false ∧ gateAsked s 24 = false,
    on (clocks fun k => { k with gated := 2 ^ 24 + 1 }) fun s => gateAsked s 0 = true ∧ gateAsked s 24 = true,
    on live fun s => precondFail s (testIsland 0x01000000) okPre = none ∧
      (precondFail s (testIsland 0x01000000) { okPre with clock := 201 }).isSome = true,
    on live fun s => portMask (rq 0 ([1] ++ zs 19)) 4 = [] ∧
      ((portMask (rq 0 ([1] ++ zs 18 ++ [1])) 4).filter fun p => ((s.port p).st == .slack) != true) = [0],
    on (slack fun w => w) fun s => ((portMask (rq 0 ([1] ++ zs 18 ++ [1])) 4).filter fun p =>
      ((s.port p).st == .slack) != true) = []].all id = true := by decide +kernel

/-- Taken requests of those clauses. -/
theorem taken_commandClauses : ∀ x ∈ [
    (portModeSetCmd, rq 0x01000000 [9, 0, 1, 0, 0, 0, 5, 242, 0, 10, 0, 0], vsUp),
    (resetBlockCmd, rq 0x01000000 [3, 1, 0, 0, 0, 0, 0, 0], starts fun x => { x with jobs := [{ (rjob 0x01000000 2) with hold := true }] }),
    (resetBlockCmd, rq 0x01000000 [3, 1, 0, 0, 0, 0, 0, 0], live),
    (resetDomainCmd, rq 0x03000000 [3, 1, 0, 0, 0, 0, 0, 0], live),
    (sliceGateCmd, rq 0x07000000 [2, 0, 0, 0], live),
    (islandGateCmd, rq 0x09000000 [2, 0, 0, 0], live),
    (sliceGateCmd, rq 0x07000000 [1, 0, 0, 0], clocks fun k => { k with gated := 2 ^ 24 + 1 }),
    (islandGateCmd, rq 0x09000000 [1, 0, 0, 0], clocks fun k => { k with gated := 2 ^ 24 + 1 }),
    (islandGateCmd, rq 0x09000018 [1, 0, 0, 0], live),
    (portSlackCmd, rq 0 ([1] ++ zs 19), live),
    (portSlackCmd, rq 0 ([1] ++ zs 18 ++ [1]), slack fun w => w),
    (selftestRunCmd { okPre with clock := 201 }, rq 0x01000000 [3, 4, 0, 0, 0, 0, 0, 0], downed),
    (repairFuseCmd okPre, rq 0x07000000 [0, 0, 0, 0, 0x46, 0x55, 0x53, 0x45], live)], Taken x.1 x.2.1 x.2.2 :=
  taken_all _ (by decide +kernel)

/-! ### Hypotheses of the statements on events -/

/-- States that meet the hypotheses of `StartUpEvents`. -/
theorem meets_startUpEvents : [
    on (starts fun x => { x with asserted := false }) fun s => s.rst.powered = true ∧ ¬(s.rst.asserted = true ∧ s.rst.reach = 0) ∧
      startHolds s 0 = false ∧ startHolds s 1 = false,
    on (starts fun x => { x with starting := true, headland := 1 }) fun s => startHolds s 0 = true ∧ startHolds s 1 = true ∧
      s.rst.powered = true,
    on (starts fun x => { x with due := some 0 }) fun s => s.rst.asserted = false ∧ s.rst.due.isSome = true,
    on (starts fun x => { x with asserted := true }) fun s =>
      s.rst.powered = true ∧ s.rst.asserted = true ∧ s.rst.reach = 0,
    on (starts fun x => { x with asserted := true, reach := 1 }) fun s =>
      s.rst.powered = true ∧ s.rst.asserted = true ∧ s.rst.reach = 1,
    on (starts fun x => { x with warmDue := 1 }) fun s => s.rst.warmDue ≠ 0 ∧ replyWaits s 0xF004 = false ∧ s.rst.powered = true ∧
      s.rst.asserted = false ∧ (s.rst.starting = false ∨ 3 ≤ s.rst.headland),
    on (starts fun x => { x with asserted := true, reach := 2 }) fun s => s.rst.asserted = true ∧ s.rst.reach = 2,
    on (starts fun x => { x with starting := true }) fun s =>
      s.rst.starting = true ∧ s.rst.asserted = false ∧ s.rst.fusesLoaded = false,
    on (writeSlotHeader (starts fun x => { x with starting := true, headland := 0 }) 1 1 4) fun s => s.ctl.feReady = true ∧
      s.rst.fwChecked = false ∧ s.rst.headland = 0 ∧ s.rst.starting = true ∧ chosenSlot s = some 0 ∧ imagePasses s 0 true = true,
    on (starts fun x => { x with jobs := [rjob 1 1] }) fun s => resetJob s 1 = some (rjob 1 1) ∧ (rjob 1 1).phase = 1,
    on (starts fun x => { x with headland := 1, starting := true }) fun s => s.rst.headland = 1 ∧ s.rst.starting = true,
    on (starts fun x => { x with headland := 1, jobs := [rjob 1 2] }) fun s => s.rst.headland = 1 ∧ s.rst.starting = false ∧
      resetJob s 1 = some (rjob 1 2) ∧ (rjob 1 2).phase = 2,
    on live fun s => s.rst.headland = 2 ∧ s.cfg.dev.wdOn = true,
    on (starts fun x => { x with headland := 1 }) fun s => s.rst.headland = 1 ∧ s.cfg.dev.wdOn = true,
    on (starts fun x => { x with jobs := [rjob 2 2] }) fun s => resetJob s (2 : BitVec 32).toNat = some (rjob 2 2) ∧
      (rjob 2 2).phase = 2 ∧ (2 : BitVec 32) ≠ 1].all id = true := by decide +kernel

/-- States that meet the hypotheses of `ControlEvents`. -/
theorem meets_controlEvents : [
    on { live with ctl := { live.ctl with reqBusy := true } } fun s => s.ctl.reqBusy = true,
    on live fun s => s.ctl.reqBusy = false,
    on (raise live 0x0003 1 0 []) fun s => s.ctl.feReady = true ∧ routeReady s = true ∧ unsent s ≠ [],
    on epoched fun s => s.epoch.state = 1 ∧ s.epoch.owner ≠ 0xFE ∧ s.rst.headland = 2 ∧ s.ctl.events.length < 4096,
    on { epoched with epoch := { epoched.epoch with state := 2 } } fun s => s.epoch.state = 2,
    on { epoched with epoch := { epoched.epoch with state := 3, waiting := [0] } } fun s => boundaryOpen s (0 : BitVec 32).toNat = true ∧
      modeJobsAt s (0 : BitVec 32).toNat = [] ∧ s.epoch.state = 3 ∧ s.epoch.failing = none ∧
      s.epoch.waiting.contains (0 : BitVec 32).toNat = true,
    on { live with epoch := { live.epoch with state := 3, failing := some 1, applied := [0] } } fun s =>
      boundaryOpen s (0 : BitVec 32).toNat = true ∧ modeJobsAt s (0 : BitVec 32).toNat = [] ∧ s.epoch.state = 3 ∧
      s.epoch.failing ≠ none ∧ s.epoch.applied.contains (0 : BitVec 32).toNat = true,
    on { epoched with epoch := { epoched.epoch with state := 2 } } fun s =>
      2 ≤ (reachFree s appliesNow).epoch.state ∧ (reachFree s appliesNow).epoch.failing = none,
    on { live with modeJobs := [{ req := rq 0x01000000 [] }] } fun s => boundaryOpen s (0x01000000 : BitVec 32).toNat = true ∧
      modeJobsAt s (0x01000000 : BitVec 32).toNat ≠ []].all id = true := by decide +kernel

/-- States that meet the hypotheses of `ClockEvents`. -/
theorem meets_clockEvents : [
    on (clocks fun k => { k with pmStage := 0 }) fun s => s.rst.asserted = false ∧ s.clk.pmStage = 0,
    on (clocks fun k => { k with pmStage := 1 }) fun s =>
      s.rst.asserted = false ∧ s.clk.pmStage = 1 ∧ bits (0x17 : BitVec 8).toNat 7 5 = 0 ∧ bits (0x20 : BitVec 8).toNat 7 5 ≠ 0,
    on (starts fun x => { x with fusesLoaded := true }) fun s => s.rst.fusesLoaded = true,
    on (clocks fun k => { k with pmStage := 2 }) fun s => s.clk.pmStage = 2,
    on (clocks fun k => { k with trans := some { fromPt := 2, toPt := 3, stage := 1, attempts := 0, startedAt := 0 } }) fun s =>
      s.clk.pmStage ≠ 3 ∧ s.clk.trans.any (fun t => decide (t.stage = 1 ∧ t.fromPt < t.toPt)),
    on (clocks fun k => { k with pmStage := 3 }) fun s => s.clk.pmStage = 3,
    on { live with cfg := { live.cfg with dev := { live.cfg.dev with dvfsMode := 2 } } } fun s => s.cfg.dev.dvfsMode ≠ 1,
    on { live with fabric := { live.fabric with load := live.fabric.load.set 0 0 (10 ^ 9) } } fun s => s.cfg.dev.dvfsMode = 1 ∧
      s.power.mode ≠ 3 ∧ s.power.transition ≠ 2 ∧ s.rst.headland ≠ 0 ∧ s.clk.point = 3 ∧
      demandFits 9 s.clk.point (greatest s 0 4) (greatest s 4 4) (greatest s 8 8) = false,
    on live fun s => s.rst.powered = true ∧ clockRuns s 0 = true ∧ clockRuns s 24 = true ∧ clockRuns s 25 = true ∧
      clockRuns s 27 = true,
    on (clocks fun k => { k with lref := 0 }) fun s => s.rst.powered = true ∧ s.rst.asserted = false ∧ s.clk.lref = 0,
    on (clocks fun k => { k with lref := 3 }) fun s => s.rst.powered = true ∧ s.rst.asserted = false ∧ s.clk.lref = 3,
    on { (clocks fun k => { k with lref := 0 }) with rst := { live.rst with starting := true } } fun s =>
      s.clk.lref = 0 ∧ s.rst.asserted = false ∧ s.rst.starting = true,
    on (clocks fun k => { k with href := 0 }) fun s => s.rst.powered = true ∧ s.rst.asserted = false ∧ s.clk.href = 0,
    on (clocks fun k => { k with locked := 0 }) fun s => s.rst.powered = true ∧ s.rst.asserted = false ∧ s.clk.lref = 1 ∧
      s.clk.locked.testBit 0 = false ∧ s.clk.locked.testBit 15 = false,
    on { (clocks fun k => { k with locked := 0, startDone := true }) with rst := { live.rst with starting := true } } fun s =>
      s.rst.powered = true ∧ s.rst.asserted = false ∧ s.rst.starting = true ∧ s.clk.startDone = true ∧ s.clk.lref = 1 ∧
      s.clk.locked.testBit 24 = false,
    on (clocks fun k => { k with failed := 2 ^ 28 }) fun s => s.clk.failed.testBit (28 : Fin 30).val = true ∧ (28 : Fin 30).val ≠ 27,
    on (clocks fun k => { k with locked := 0 }) fun s => s.rst.powered = true ∧ s.rst.asserted = false ∧
      s.clk.locked.testBit (pllOf 0) = false ∧ s.clk.onKeeper.testBit 0 = false ∧ keeperTarget 0 = some (coveT 0) ∧
      s.clk.locked.testBit (pllOf 28) = false ∧ s.clk.onKeeper.testBit 28 = false ∧ keeperTarget 28 = some tideT,
    on live fun s => s.clk.lref = 1 ∧ within (8999 : BitVec 16).toNat 9000 11000 = false ∧
      within (11001 : BitVec 16).toNat 9000 11000 = false ∧ s.clk.failed.testBit 29 = false,
    on (clocks fun k => { k with gateReq := 2 ^ 23 }) fun s => s.clk.gateReq.testBit (23 : Fin 31).val = true ∧
      s.clk.trans = none ∧ s.power.transition = 0 ∧ (23 : Fin 31).val < 24 ∧ gateLost s (23 : Fin 31).val = false,
    on (vsUp.updSlice 0 fun x => x) fun s => gateLost { s with clk := { s.clk with gateReq := 2 ^ 24 } } 24 = true].all id = true := by decide +kernel

/-- On a die that needs no trim: a settled rail, and the preconditions of the memory test at a start. -/
theorem meets_untrimmed (h : ∀ p, Config.vTrim p = 0) :
    settles (pointTarget (clocks fun k => { k with pmStage := 3 }) 3) (1000 : BitVec 16).toNat true true = true ∧
    ∀ i < 4, precondFail (starts fun x => { x with starting := true, fwChecked := true }) (24 + i) okPre = none := by
  refine ⟨?_, fun i hi => ?_⟩
  · simp only [pointTarget, fuseTrim, h]; decide +kernel
  · simp only [precondFail, railDeviation, pointTarget, fuseTrim, h]; interval_cases i <;> decide +kernel

/-- A usable calibration store on a die of identity 0. -/
theorem meets_calibrationRestore (h : Config.dieId = 0) : calUsable (writeSlotHeader live 5 1 12) 5 = true := by
  unfold calUsable; rw [h]; decide +kernel

/-- States that meet the hypotheses of `CalibrationAndNvmEvents`. -/
theorem meets_calibrationAndNvmEvents : [
    on { live with cfg := { live.cfg with dev := { live.cfg.dev with calMode := 1 } } } fun s => s.cfg.dev.calMode = 1,
    on live fun s => s.cfg.dev.calMode = 2 ∧ 4 * s.cfg.dev.calDelta ≤ ((20 : Int) - s.calib.refs.get 0 0).natAbs ∧
      ((19 : Int) - s.calib.refs.get 0 0).natAbs < 4 * s.cfg.dev.calDelta,
    on (live.updCal 0 fun c => { c with running := true }) fun s => (s.cal 0).running = true ∧ (s.cal 0).measured = false,
    on ((port0 fun x => { x with st := .down }).updCal 0 fun c => { c with pending := 8 }) fun s =>
      (s.cal 0).pending.testBit 3 = true ∧ undertowOn s 0 = true ∧ quietChance s 0 = true,
    on (vsUp.updCal 0 fun c => { c with steps := [(0, 0, 1)] }) fun s => stepsByBoundary (commitFirst s (calT 0)) 0 = true ∧
      ((commitFirst s (calT 0)).cal 0).steps = [(0, 0, 1)],
    on live fun s => stepsByBoundary (commitFirst s (calT 0)) 0 = false ∧ s.epoch.state ≠ 3 ∧ modeJobsAt s (calT 0) = [],
    on (starts fun x => { x with starting := true, bistDone := true }) fun s => s.rst.starting = true ∧ s.rst.reach ≠ 2 ∧
      s.rst.bistDone = true ∧ s.rst.calDone = false ∧ (calUsable s 5 || calUsable s 6) = false,
    on { live with calib := { live.calib with foreground := [0] } } fun s => s.calib.foreground.contains 0 = true ∧
      (s.port 0).st ≠ .test,
    on { writing with nvm := { writing.nvm with session := some { region := 1, src := 0, len := 1, closing := some (7, 1) } } } fun s =>
      s.nvm.session.any (fun x => decide (x.closing = some (7, 1) ∧ crc32c (s.regionRead x.region 32 x.len) ≠ 1)),
    on { writing with nvm := { writing.nvm with session := some { region := 1, src := 0, len := 1, closing := some (7, crc32c [0]) } } }
      fun s => s.nvm.session.any (fun x => decide (crc32c (s.regionRead x.region 32 x.len) = crc32c [0])),
    on writing fun s => s.nvm.session.any (fun x => x.closing.isNone)].all id = true := by decide +kernel

/-- A self-test of slice 0 that runs. -/
def tested (stage : Nat) : State := setTest live (sliceT 0) (some {
  kind := 1, flags := 4, stage, completed := 0, forced := false, waiter := wtr, ended := none })

/-- States that meet the hypotheses of `SelfTestEvents`. -/
theorem meets_selfTestEvents : [
    on (tested 2) fun s => (s.stest.running.get none (sliceT 0)).any (fun j => j.stage == 2),
    on (tested 2) fun s => (precondFail s (testIsland (sliceT 0)) { okPre with clock := 201 }).isSome = true,
    on live fun s => drainIdle s (sliceT 0) = true,
    on (starts fun x => { x with starting := true, fwChecked := true }) fun s => s.rst.starting = true ∧ s.rst.asserted = false ∧
      s.rst.fwChecked = true ∧ s.rst.bistDone = false,
    on { live with stest := { live.stest with logDue := true } } fun s => s.stest.logDue = true ∧ s.nvm.off = false,
    on { live with stest := { live.stest with fuseJob := some (0, 1, wtr) } } fun s => s.stest.fuseJob = some (0, 1, wtr),
    on { live with power := { live.power with job := some { waiter := wtr, mode := 4, ceiling := 0 } } } fun s =>
      s.stest.fuseJob = none ∧ s.power.transition = 0 ∧ (s.power.job.map (·.mode)) = some 4].all id = true := by decide +kernel

/-- States that meet the hypotheses of `IntegrityEvents` and of the clauses on faults and MRAM. -/
theorem meets_integrityEvents : [
    on live fun s => railInRange s 1 700 = false ∧ s.elec.outMask.testBit 1 = false ∧ s.rst.pgood = true ∧
      railInRange s 1 750 = true,
    on live fun s => (500 : Int) < 501 ∧ s.calib.sensors.get 0 0 ≤ 500,
    on (faultEntry live 0x0901 3 0 []) fun s => (uncopied s).length = 1 ∧ s.nvm.off = false,
    on live fun s => s.cfg.fabric.scrub = true ∧ islandShut s 24 = false ∧ islandShut s 27 = false,
    on live fun s => Memory.wf s.nvm.mem,
    on { live with clk := { live.clk with lref := 2 }, integ := { live.integ with latches := 64, present := 64 } } fun s =>
      (conditions s).testBit 6 = true ∧ s.integ.latches.testBit 6 = true].all id = true := by decide +kernel

/-- A training block of phase `n`. -/
def tblock (n : Nat) : CtlBlock :=
  { phase := n, flags := 0x80, request := 0, status := 0, steps := 0, ident := 0, tag := 0, countdown := 0 }
/-- Line port 0 in training in mode 7. -/
def trainingStd (f : Start → Start) : State := port0 fun x => { x with st := .training, resMode := 7, start := f x.start }
/-- Line port 0 negotiates, its committed mode by Clause 98 and its advertised set `adv`. -/
def negotiates (adv : Nat) : State :=
  (live.updPcfg 0 fun c => { c with mode := { c.mode with set := true, neg := 1, adv } }).updPort 0 fun x =>
    { x with st := .negotiating, resMode := 7 }

/-- A partner's base page without next pages: it offers the modes of `tech`, and as `forced` says is a forced master. -/
def partner (tech : BitVec 16) (forced : Bool) : Negotiated :=
  { base := { tech, eee := 0, np := false, forced, master := forced }, pages := [], nonce := true }

/-- States that meet the hypotheses of `LinkEvents`. -/
theorem meets_linkEvents : [
    on ((port0 fun x => { x with st := .down }).updPcfg 0 fun c => { c with mode := { c.mode with set := true } }) fun s =>
      (s.port 0).st = .down ∧ (s.port 0).breaking = false ∧ (s.port 0).silence = false ∧ (s.pcfg 0).mode.set = true,
    on (port0 fun x => { x with st := .down, breaking := true }) fun s => (s.port 0).st = .down ∧ (s.port 0).breaking = true,
    on (port0 fun x => { x with st := .down, silence := true }) fun s => (s.port 0).st = .down ∧ (s.port 0).silence = true,
    on vsUp fun s => (s.port 0).resMode ≠ 2,
    on (trainingStd fun t => t) fun s => (s.port 0).st = .training ∧ (s.port 0).resMode ≠ 9 ∧ (s.port 0).resMode ≠ 2,
    on (training fun t => { t with phase := 6 }) fun s => (s.port 0).st = .training ∧ (s.port 0).resMode = 9 ∧
      (s.port 0).start.phase = 6,
    on (training fun t => { t with phase := 8, dataSent := true, dataSeen := true }) fun s => (s.port 0).st = .training ∧
      (s.port 0).resMode = 9 ∧ (s.port 0).start.phase = 8 ∧ (s.port 0).start.dataSent = true ∧
      (s.port 0).start.dataSeen = true,
    on ((training fun t => { t with phase := 2 }).updPort 0 fun x => { x with resRole := 1 }) fun s =>
      inPhase s 0 2 = true ∧ (s.port 0).resRole = 1 ∧ (s.port 0).start.blk = none,
    on ((training fun t => { t with phase := 1 }).updPort 0 fun x => { x with resRole := 2, vs := { x.vs with lock := 2 } })
      fun s => (s.port 0).start.phase = 1 ∧ (s.port 0).resRole = 2 ∧ (s.port 0).vs.lock = 2,
    on (((training fun t => { t with phase := 1 }).updPort 0 fun x => { x with resRole := 2 }).updPcfg 0 fun c =>
      { c with mode := { c.mode with neg := 1 } }) fun s => inPhase s 0 1 = true ∧ (s.port 0).resRole = 2 ∧
      (s.pcfg 0).mode.neg = 1 ∧ (s.port 0).start.blk = none,
    on (training fun t => { t with phase := 5, reqOut := some (0, 1, 0) }) fun s => (s.port 0).st = .training ∧
      (s.port 0).start.reqOut.isSome = true,
    on (training fun t => { t with phase := 5 }) fun s => (s.port 0).start.reqOut = none ∧
      (s.port 0).start.reqAt = none ∧ inPhase s 0 5 = true ∧ (s.port 0).start.presetAsked = false,
    on ((training fun t => { t with phase := 7 }).updPort 0 fun x => { x with resRole := 1 }) fun s => inPhase s 0 7 = true ∧
      (s.port 0).resRole = 1 ∧ s.pending = [],
    on ((training fun t => { t with phase := 5, blk := some (tblock 6) }).updPort 0 fun x => { x with resRole := 2 }) fun s =>
      (s.port 0).start.blk = some (tblock 6) ∧ inPhase s 0 5 = true ∧ (s.port 0).resRole = 2 ∧ (tblock 6).phase = 6,
    on ((training fun t => { t with phase := 5, blk := some (tblock 5), rxReady := true }).updPort 0 fun x =>
      { x with resRole := 1 }) fun s => (s.port 0).start.blk = some (tblock 5) ∧
      inPhase s 0 (s.port 0).start.phase = true ∧ (s.port 0).resRole = 1 ∧ within (s.port 0).start.phase 5 7 = true ∧
      (s.port 0).start.rxReady = true ∧ (tblock 5).phase = (s.port 0).start.phase ∧ (tblock 5).flags.testBit 7 = true,
    on ((training fun t => { t with phase := 1 }).updPort 0 fun x => { x with resRole := 1 }) fun s => inPhase s 0 1 = true ∧
      (s.port 0).resRole = 1 ∧ (s.port 0).start.left = 0,
    on (negotiates 0x80) fun s => (s.port 0).st = .negotiating ∧
      resolveRole (basePage s 0 (s.port 0).start.use) (partner 0x80 false).base true = some true ∧
      highest (offered s 0 &&& ((learn s 0 (partner 0 false)).1.port 0).start.partnerAdv) = 0 ∧
      highest (offered s 0 &&& ((learn s 0 (partner 0x80 false)).1.port 0).start.partnerAdv) = 7,
    on ((negotiates 0x80).updPcfg 0 fun c => { c with mode := { c.mode with role := 1 } }) fun s =>
      (basePage s 0 (s.port 0).start.use).forced = true ∧ (basePage s 0 (s.port 0).start.use).master = true ∧
      resolveRole (basePage s 0 (s.port 0).start.use) (partner 0x80 true).base true = none,
    on (port0 fun x => { x with st := .down }) fun s => portLive s 0 = false ∧ overridden s 0 = false].all id = true := by
  decide +kernel

/-- The header of a data frame. -/
def goodHdr (fcnt : Nat) : Vs50Hdr := { type := 0, fcnt, phase := 0, oam := 0, bf := false, lr := false, rf := false, ld := false }

/-- States that meet the hypotheses of `Vs50Events`. -/
theorem meets_vs50Events : [
    on (vs fun v => v) fun s => (s.port 0).resMode = 9 ∧ portLive s 0 = true ∧ (s.port 0).vs.lock = 0,
    on (vs fun v => { v with lock := 1 }) fun s => (s.port 0).resMode = 9 ∧ portLive s 0 = true ∧ (s.port 0).vs.lock = 1 ∧
      (s.port 0).vs.inverted = false ∧ parseHdr 0 = none ∧ (parseHdr (goodHdr 0).word).isSome = true,
    on (vs fun v => { v with lock := 2 }) fun s => (s.port 0).resMode = 9 ∧ portLive s 0 = true ∧ (s.port 0).vs.lock = 2 ∧
      (s.port 0).vs.inverted = false ∧ (s.port 0).vs.rxLpi ≠ 2,
    on (vs fun v => v) fun s => driversOff s = false ∧ txKind (wantAmp (applyAnnounced s 0) 0) 0 = some (0, 0),
    on ({ live with elec := { live.elec with underMask := 2 } }) fun s => driversOff s = true,
    on ((vs fun v => { v with lpiNeg := true, lpiFrames := 2 }).updPcfg 0 fun c => { c with vs := { c.vs with lpi := 1 } }) fun s =>
      vs50Live s 0 = true ∧ lpiInUse s 0 = true ∧ 2 ≤ (s.port 0).vs.lpiFrames ∧ (s.port 0).vs.txLpi = 0,
    on (vs fun v => { v with txLpi := 1, txCount := 16 }) fun s => vs50Live s 0 = true ∧ (s.port 0).vs.txLpi = 1 ∧
      16 ≤ (s.port 0).vs.txCount,
    on (vs fun v => { v with txLpi := 2, txCount := 512 }) fun s => vs50Live s 0 = true ∧ (s.port 0).vs.txLpi = 2 ∧
      512 ≤ (s.port 0).vs.txCount,
    on (vs fun v => { v with txLpi := 3, txCount := 24 }) fun s => vs50Live s 0 = true ∧ (s.port 0).vs.txLpi = 3 ∧
      24 ≤ (s.port 0).vs.txCount,
    on (vs fun v => v) fun s => vs50Live s 0 = true ∧ (s.port 0).power.macLpi = false,
    on (vs fun v => { v with txLpi := 4, txCount := 24 }) fun s => vs50Live s 0 = true ∧ (s.port 0).vs.txLpi = 4 ∧
      24 ≤ (s.port 0).vs.txCount,
    on (vs fun v => { v with rxLpi := 2, rxCount := 515 }) fun s => vs50Live s 0 = true ∧ (s.port 0).vs.rxLpi = 2 ∧
      (s.port 0).vs.rxExpect + 2 < (s.port 0).vs.rxCount ∧ (s.port 0).vs.missed = 0,
    on (vs fun v => { v with rxLpi := 2, rxCount := 515, missed := 1 }) fun s => vs50Live s 0 = true ∧
      (s.port 0).vs.rxLpi = 2 ∧ (s.port 0).vs.rxExpect + 2 < (s.port 0).vs.rxCount ∧ (s.port 0).vs.missed ≠ 0,
    on (vs fun v => { v with lock := 2, rf := true }) fun s => vs50Live s 0 = true ∧ (s.port 0).vs.lock = 2 ∧
      (s.port 0).vs.rf = true,
    on (vs fun v => { v with oamWord := some (List.replicate 16 0, false) }) fun s =>
      (s.port 0).vs.oamWord.any (fun x => decide (fld x.1 14 2 ≠ crc16 (x.1.take 14))) = true,
    on (vs fun v => { v with oamWord := some ((16 : Byte) :: 128 :: List.replicate 12 0 ++
      be 2 (crc16 ((16 : Byte) :: 128 :: List.replicate 12 0)), false) }) fun s => (s.port 0).vs.oamCur = none ∧
      (s.port 0).vs.oamWord.any (fun x => decide (fld x.1 14 2 = crc16 (x.1.take 14) ∧ byteAt x.1 0 ≠ 0 ∧
        (byteAt x.1 1).testBit 7 ≠ (s.port 0).vs.rxTgl)) = true].all id = true := by decide +kernel

/-- A window whose shadow training has ended. -/
def shadow : Shadow := { win := 0, start := 64, taps := [], left := 0 }

/-- States that meet the hypotheses of `DspEvents`. -/
theorem meets_dspEvents : [
    on (port0 fun x => { x with st := .test, resMode := 9 }) fun s => (s.port 0).st = .test ∧ (s.port 0).dsp.st = 0,
    on (dsp fun d => { d with st := 1 }) fun s => (s.port 0).st ≠ .test ∧ (s.port 0).dsp.st ≠ 0 ∧ (s.port 0).dsp.st ≠ 2 ∧ (s.port 0).dsp.st ≠ 3 ∧
      (s.port 0).health.margin = none,
    on (dsp fun d => { d with st := 4 }) fun s => revertDue s 0 = true ∧ s.epoch.state ≠ 3 ∧ modeJobsAt s (portT 0) = [] ∧
      revertDue (commitFirst s (portT 0)) 0 = true,
    on ((training fun t => t).updPort 0 fun x => { x with dsp := { x.dsp with st := 1, ctleWait := 16, ctleUp := 16 } }) fun s =>
      (s.port 0).dsp.st = 1 ∧ bfHold s 0 = false ∧ 16 ≤ (s.port 0).dsp.ctleWait ∧ 16 ≤ (s.port 0).dsp.ctleUp ∧
      (s.port 0).dsp.taps.ctle < ctleTop (s.port 0).resMode ∧ portLive s 0 = false,
    on (dsp fun d => { d with st := 2, ctleWait := 256, ctleDown := 16, taps := { d.taps with ctle := 1 } }) fun s =>
      (s.port 0).dsp.st = 2 ∧ bfHold s 0 = false ∧ 256 ≤ (s.port 0).dsp.ctleWait ∧ (s.port 0).dsp.ctleUp < 16 ∧ 16 ≤ (s.port 0).dsp.ctleDown ∧
      0 < (s.port 0).dsp.taps.ctle ∧ portLive s 0 = true,
    on (dsp fun d => { d with st := 2, scoutWins := 10 ^ 6, moving := some shadow }) fun s =>
      (s.port 0).dsp.moving = some shadow ∧ (s.port 0).dsp.st = 2 ∧ portLive s 0 = true ∧
      cycleWins s 0 ≤ (s.port 0).dsp.scoutWins,
    on (((dsp fun d => { d with st := 3, moving := some shadow, group := 3, replacing := some (0, 1, 0, []) })).updPort 1 fun x =>
      { x with st := .up, resMode := 9 }) fun s => (s.port 0).dsp.moving = some shadow ∧ (s.port 0).dsp.st = 3 ∧
      (s.port 0).dsp.replacing = some (0, 1, 0, []) ∧ aggrEligible s 0 1 (s.port 0).dsp.group = true,
    on { live with cfg := { live.cfg with bundles := live.cfg.bundles.set 0 0 0x03000000 } } fun s =>
      committedGroup s 0 ≠ (s.port 0).dsp.group,
    on ((dsp fun d => { d with st := 2, recent := List.replicate 16 (16384, 0) }).updPcfg 0 fun c =>
      { c with vs := { c.vs with flags := 4 } }) fun s => vs50Live s 0 = true ∧ (s.pcfg 0).vs.flags.testBit 2 = true ∧
      (s.port 0).dsp.st = 2 ∧ (s.port 0).dsp.adjustFrom ≤ s.now ∧ (s.port 0).vs.adjustDue = none ∧
      (s.port 0).vs.adjustOut = none ∧ stepRule (s.port 0).dsp.recent 16 (s.port 0).dsp.repPre (s.port 0).dsp.repPost
        (s.port 0).dsp.suppressed = some (0, 1)].all id = true := by decide +kernel

/-- States that meet the hypotheses of `MultidropEvents`. -/
theorem meets_multidropEvents : [
    on (t1s 2 fun m => m) fun s => t1sOn s 0 = true ∧ (s.port 0).md.rx = 0 ∧ (s.pcfg 0).md.squelch < 121,
    on (t1s 2 fun m => { m with rx := 3 }) fun s => t1sOn s 0 = true ∧ (s.port 0).md.rx = 3,
    on (t1s 2 fun m => { m with rx := 1, plca := 1 }) fun s => t1sOn s 0 = true ∧ (s.port 0).md.rx = 1 ∧
      (s.port 0).md.plca = 1 ∧ 18 ≤ (18 : BitVec 8).toNat,
    on (t1s 1 fun m => { m with rx := 2 }) fun s => t1sOn s 0 = true ∧ (s.port 0).md.rx = 2 ∧ 12 ≤ (12 : BitVec 8).toNat ∧
      (s.port 0).resMode = 1 ∧ (s.port 0).md.plca ≠ 1 ∧ 255 ≤ (s.port 0).md.rxOpp,
    on (t1s 2 fun m => m) fun s => segmentOn s 0 = true ∧ (s.port 0).md.node = 0,
    on ((t1s 2 fun m => { m with node := 3 }).updPcfg 0 fun c => { c with md := { c.md with node := 3 } }) fun s =>
      segmentOn s 0 = true ∧ (s.port 0).md.node ≠ 0 ∧ (s.port 0).md.node = (s.pcfg 0).md.node ∧ (s.port 0).st = .up ∧
      (s.port 0).md.plca ≠ 1,
    on ((t1s 2 fun m => { m with plca := 2 }).updPort 0 fun x => { x with st := .training }) fun s => segmentOn s 0 = true ∧
      (s.port 0).md.plca = 2 ∧ (s.port 0).md.node = 0 ∧ (s.port 0).st = .training,
    on (t1s 2 fun m => { m with plca := 1, node := 3 }) fun s => segmentOn s 0 = true ∧ (s.port 0).md.plca = 1 ∧
      (s.port 0).md.node ≠ 0 ∧ (s.port 0).st = .up ∧ (s.pcfg 0).md.flags.testBit 0 = false,
    on (t1s 2 fun m => { m with plca := 1 }) fun s => segmentOn s 0 = true ∧ (s.port 0).md.plca = 1 ∧
      (s.port 0).md.node = 0 ∧ (s.port 0).st = .up ∧ (s.pcfg 0).md.node = 0 ∧ (s.port 0).md.retry = false,
    on (sends 0 true (t1s 1 fun m => { m with attempts := 14 })) fun s => ((s.egr 0).mac.map (·.started)) = some true ∧
      t1sOn s 0 = true ∧ (s.port 0).resMode = 1 ∧ (s.port 0).md.attempts < 15,
    on (sends 0 true (t1s 1 fun m => { m with attempts := 15 })) fun s => ((s.egr 0).mac.map (·.started)) = some true ∧
      t1sOn s 0 = true ∧ (s.port 0).resMode = 1 ∧ 15 ≤ (s.port 0).md.attempts,
    on (t1s 1 fun m => { m with backoff := true }) fun s => t1sOn s 0 = true ∧ (s.port 0).md.backoff = true ∧
      rxBusy s 0 = false ∧ (s.port 0).resMode = 1].all id = true := by decide +kernel

/-- A Sounding run with `left` snapshots to come. -/
def run (left : Nat) : SoundRun :=
  { cfg := {}, mode := 9, base := none, left, spoiled := false, asBase := false, waiter := none }
/-- A cable test at a stage. -/
def cable (stage : Nat) : CableTest := { flags := 0, amp := 0, stage, partner := false, waiter := wtr }

/-- States that meet the hypotheses of `HealthEvents`. -/
theorem meets_healthEvents : [
    on vsUp fun s => portLive s 0 = true ∧ (s.port 0).resMode = 9,
    on ((health fun h => { h with dropSince := some 0 }).updPcfg 0 fun c => { c with health := { c.health with flags := 7 } }) fun s =>
      portLive s 0 = true ∧ (s.pcfg 0).health.flags.testBit 1 = true ∧ (s.port 0).health.dropSince.isSome = true ∧
      expectsSilence s 0 = false ∧ (s.port 0).health.absent = false ∧ (s.port 0).restart = none,
    on (vsUp.updPcfg 0 fun c => { c with sound := { c.sound with flags := 1 } }) fun s =>
      (s.pcfg 0).sound.flags.testBit 0 = true ∧ soundFree s 0 = true,
    on (health fun h => { h with run := some (run 0) }) fun s => (s.port 0).health.run = some (run 0) ∧ (run 0).left = 0 ∧
      s.rst.headland = 2 ∧ (run 0).asBase = false ∧ (run 0).waiter = none,
    on (health fun h => { h with run := some (run 1) }) fun s => (s.port 0).health.run = some (run 1) ∧ (run 1).left ≠ 0,
    on (health fun h => { h with cable := some (cable 0) }) fun s => (s.port 0).health.cable = some (cable 0),
    on (health fun h => { h with cable := some (cable 1) }) fun s => (s.port 0).health.cable = some (cable 1),
    on (health fun h => { h with cable := some (cable 2) }) fun s => (s.port 0).health.cable = some (cable 2)].all id = true := by
  decide +kernel

/-- `live` with the device wake flags as given. -/
def wakes (f : Nat) (s : State) : State := { s with cfg := { s.cfg with dev := { s.cfg.dev with wakeFlags := f } } }

/-- States that meet the hypotheses of `PowerEvents`. -/
theorem meets_powerEvents : [
    on ((vs fun v => { v with lpiNeg := true }).updPcfg 0 fun c => { c with vs := { c.vs with lpi := 1 } }) fun s =>
      portLive s 0 = true ∧ lpiUsable s 0 = true ∧ txIdle s 0 = true ∧ (s.port 0).resMode = 9,
    on ((port0 fun x => { x with st := .up, resMode := 7, power := { x.power with eee := true } }).updPcfg 0 fun c =>
      { c with power := { c.power with flags := 1 } }) fun s => portLive s 0 = true ∧ lpiUsable s 0 = true ∧
      txIdle s 0 = true ∧ (s.port 0).resMode ≠ 9,
    on vsUp fun s => portLive s 0 = true ∧ (s.port 0).resMode ≠ 2,
    on (slack fun w => { w with handshake := 1, sent := 9 }) fun s => (s.port 0).power.handshake = 1 ∧
      (s.port 0).power.sent ≠ 0 ∧ (s.port 0).power.sent < 10,
    on (slack fun w => { w with handshake := 1, sent := 10 }) fun s => (s.port 0).power.handshake = 1 ∧
      10 ≤ (s.port 0).power.sent,
    on (slack fun w => { w with handshake := 2, sent := 1 }) fun s => (s.port 0).power.handshake = 2 ∧
      (s.port 0).power.sent ≠ 0,
    on (wakes 2 (slack fun w => w)) fun s => (s.port 0).st = .slack ∧ (s.port 0).power.waking = 0 ∧
      (s.port 0).power.held = none ∧ (s.pcfg 0).power.wakeMv < 401 ∧ 0 ≤ (s.pcfg 0).power.wakeMv ∧
      s.cfg.dev.wakeFlags.testBit 1 = true ∧ s.cfg.dev.wakeFlags.testBit 3 = false,
    on (wakes 8 (slack fun w => w)) fun s => (s.port 0).st = .slack ∧ (s.port 0).power.waking = 0 ∧
      (s.port 0).power.held = none ∧ (s.pcfg 0).power.wakeMv < 401 ∧ s.cfg.dev.wakeFlags.testBit 1 = false ∧ s.cfg.dev.wakeFlags.testBit 0 = false,
    on (slack fun w => { w with waking := 2 }) fun s => (s.port 0).st = .slack ∧ (s.port 0).power.waking = 2 ∧
      0 < (s.pcfg 0).power.wakeMv,
    on (slack fun w => { w with waking := 1 }) fun s => (s.port 0).st = .slack ∧ (s.port 0).power.waking = 1,
    on live fun s => s.elec.wakeDriven = false ∧ s.elec.wakeFrom ≤ s.now,
    on { live with elec := { live.elec with wakeFrom := 1 } } fun s => s.now < s.elec.wakeFrom,
    on { live with elec := { live.elec with wakeDriven := true } } fun s => s.elec.wakeDriven = true,
    on { live with power := { live.power with transition := 2 } } fun s => s.power.transition = 2 ∧ s.power.parkStage = 0 ∧
      s.power.refused = false ∧
      ((List.range 128).all fun q => !portLive s q && (s.port q).power.handshake == 0) = true ∧
      ((List.range 4).all (sliceIdle s)) = true,
    on { live with power := { live.power with transition := 2, refused := true } } fun s => s.power.transition = 2 ∧
      s.power.parkStage = 0 ∧ s.power.refused = true,
    on { live with power := { live.power with transition := 1 } } fun s => s.power.transition = 1].all id = true := by
  decide +kernel

/-- Host link 0, of host lane 0 alone, at Up, and lane 0 as given. -/
def linked (f : Lane → Lane) : State :=
  ((setBond live 0 [1, 0, 0, 0, 0, 0, 0, 0]).updLane 0 fun x => f { x with rebond := false }).updLink 0 fun x => { x with st := .up }
/-- An eye scan of one point, and the points it has. -/
def scan (points : List Nat) : EyeScan :=
  { eyes := 1, dwell := 16, phase0 := 0, phases := 1, volt0 := 0, volts := 1, pStride := 1, vStride := 1, target := 3
    status := 2, points, waiter := wtr }

/-- States that meet the hypotheses of `HostLaneEvents`. -/
theorem meets_hostLaneEvents : [
    on (lane0 fun x => { x with st := .training, okRun := 16 }) fun s => (s.lane 0).st = .training ∧ 16 ≤ (s.lane 0).okRun,
    on (lane0 fun x => { x with st := .up, revertDue := some 4 }) fun s => (s.lane 0).st = .up ∧ (s.lane 0).revertDue = some 4,
    on (lane0 fun x => { x with st := .up, postLow := 4, ctle := 39 }) fun s => (s.lane 0).st = .up ∧
      (s.lane 0).revertDue = none ∧ (s.lane 0).ctleHold = false ∧ (s.lane 0).stepFrom = none ∧
      4 ≤ (s.lane 0).postLow ∧ (s.lane 0).ctle < 40,
    on (lane0 fun x => { x with st := .up, postLow := 3, postHigh := 4, ctle := 1 }) fun s => (s.lane 0).st = .up ∧
      (s.lane 0).revertDue = none ∧ (s.lane 0).ctleHold = false ∧ (s.lane 0).stepFrom = none ∧
      (s.lane 0).postLow < 4 ∧ 4 ≤ (s.lane 0).postHigh ∧ 0 < (s.lane 0).ctle,
    on ((linked fun x => { x with st := .up }).updLink 0 fun x => { x with st := .down }) fun s => s.linkWidth 0 ≠ 0 ∧
      (s.link 0).st ≠ .up ∧ (180 : BitVec 16).toNat ≤ 180 ∧ [0].length = s.linkWidth 0 ∧
      (∀ i < s.linkWidth 0, i ∈ [0]) ∧ (∀ n ∈ s.linkLanes 0, (s.lane n).st = .up ∧ (s.lane n).rebond = false) ∧
      s.linkOf 0 = some 0 ∧ s.linkLanes 0 = [0] ∧ (s.lane 0).st = .up,
    on (linked fun x => { x with st := .up }) fun s => (s.link 0).st = .up ∧ s.linkWidth 0 ≠ 0 ∧ autoEbb s 0 = true ∧
      s.linkOf 0 = some 0,
    on (linked fun x => { x with st := .ebb, waking := true }) fun s => (s.lane 0).st = .ebb ∧ (s.lane 0).waking = true ∧
      s.linkOf 0 = some 0,
    on (lane0 fun x => { x with st := .up, scan := some (scan []) }) fun s => (s.lane 0).scan = some (scan []) ∧
      (scan []).status = 2 ∧ (scan []).points.length < scanTotal (scan []),
    on (lane0 fun x => { x with st := .up, scan := some (scan [0]) }) fun s => (s.lane 0).scan = some (scan [0]) ∧
      (scan [0]).status = 2 ∧ (scan [0]).points.length = scanTotal (scan [0]),
    on live fun s => (s.link 0).st ≠ .up ∧ s.ctl.safeState = false].all id = true := by decide +kernel

/-- Line port 0 at Up in mode 9, with one frame in class 0 of its egress queue. -/
def queued : State := { vsUp with fabric := { vsUp.fabric with
  frames := vsUp.fabric.frames.set none 0 (some frame), nextFrame := 1, queues := vsUp.fabric.queues.set [] (qn 0 0) [0] } }

/-- States that meet the hypotheses of `FrameEvents`. -/
theorem meets_frameEvents : [
    on vsUp fun s => (s.port 0).st ≠ .test ∧ 2 < (s.port 0).resMode ∧ egressLive s 0 = true ∧ drainingPos s 0 = false,
    on { vsUp with rst := { vsUp.rst with jobs := [rjob 0x01000000 0] } } fun s => (s.port 0).st ≠ .test ∧
      2 < (s.port 0).resMode ∧ egressLive s 0 = true ∧ drainingPos s 0 = true,
    on (linked fun x => { x with st := .up }) fun s => egressLive s 128 = true,
    on (port0 fun x => { x with st := .test }) fun s => (s.port 0).st = .test,
    on queued fun s => egressOpen s 0 = true ∧ 2 < (s.port 0).resMode ∧ (schedule s 0).isSome = true ∧ macFree s 0 0 = true,
    on (sends 0 true vsUp) fun s => (s.port 0).st ≠ .test ∧ (s.egr 0).mac.isSome = true ∧ egressLive s 0 = true].all id = true := by
  decide +kernel

/-- The stream configuration of `live` as given. -/
def strm (f : StreamCfg → StreamCfg) : State := updStreamCfg live f
/-- A gate control list of one entry. -/
def gates : GclList := { on := true, cycle := 1, list := [(0, 255, 1)] }
/-- A stream gate of one entry. -/
def sgate : SGateCfg := { tb := 0, on := true, baseS := 0, baseNs := 0, cycle := 1, list := [(0, 1)] }
/-- A recovery configuration with latent error detection. -/
def recov : RecCfg := { slice := 0, alg := 1, hist := 2, flags := 4, reset := 1, latDiff := 1, latPeriod := 1 }

/-- States that meet the hypotheses of `StreamAndTimeEvents`. -/
theorem meets_streamAndTimeEvents : [
    on (updGcl live 0 fun g => { g with oper := gates }) fun s => gatesRun s 0 = true ∧
      (operOf s 0).realign = false ∧ (cycleList (operOf s 0).oper.cycle 0 (operOf s 0).oper.list).length ≤ (operOf s 0).cur + 1 ∧
      cycleExtends s 0 = false,
    on (updGclCfg (updGcl live 0 fun g => { g with oper := { gates with cycle := 1, ext := 10 } }) 0 fun g =>
      { g with admin := gates, waiting := true, ccNs := 5 }) fun s => gatesRun s 0 = true ∧ (operOf s 0).realign = false ∧
      (cycleList (operOf s 0).oper.cycle 0 (operOf s 0).oper.list).length ≤ (operOf s 0).cur + 1 ∧ cycleExtends s 0 = true,
    on (updGclCfg live 0 fun g => { g with admin := gates, waiting := true }) fun s => (s.cfg.streams.gcl.get {} 0).waiting = true,
    on (updStrm live fun x => { x with gates := x.gates.set none 0 (some { oper := sgate }) }) fun s =>
      (s.strm.gates.get none 0).isSome = true,
    on (updRec (strm fun c => { c with recs := c.recs.set none 0 (some recov) }) 0 fun y => { y with takeAny := false }) fun s =>
      s.cfg.streams.recs.get none 0 = some recov ∧ (s.strm.recs.get {} 0).takeAny = false ∧
      (s.strm.recs.get {} 0).expiredAt ≠ some s.now ∧ recov.flags.testBit 2 = true,
    on (updStrm live fun x => { x with preempt := x.preempt.set {} 0 { verify := 1 } }) fun s =>
      (s.strm.preempt.get {} 0).verify = 1,
    on (updStreamCfg vsUp fun c => { c with gptp := c.gptp.set {} 0 { flags := 1 }, gptpPorts := c.gptpPorts.set {} 0 { role := 1 } })
      fun s => gptpOn s 0 0 = true ∧ isSlave s 0 0 = false ∧ isMaster s 0 0 = true ∧ posLive s 0 = true,
    on (updStreamCfg vsUp fun c => { c with gptp := c.gptp.set {} 0 { flags := 1 }, gptpPorts := c.gptpPorts.set {} 0 { role := 2 } })
      fun s => gptpOn s 0 0 = true ∧ isSlave s 0 0 = true,
    on live fun s => gptpOn s 0 0 = false,
    on (strm fun c => { c with pps := { c.pps with flags := 2 } }) fun s => s.cfg.streams.pps.flags.testBit 1 = true ∧
      s.strm.edge = none].all id = true := by decide +kernel

/-- Layout 0 of the Tide Table, source 0, and signal 5 in it with a freshness limit. -/
def sensed : State := updTideCfg live fun c => { c with
  layouts := c.layouts.set none 0 (some {
    format := 1, bus := 0, source := 0, length := 8, msgId := 0, flags := 0, route := 0
    dataId := 0, crcPos := 0, alivePos := 0, aliveLen := 0, gap := 0, selPos := 0, selLen := 0, window := 0 }),
  defs := c.defs.set none 0 (some { signal := 5, pos := 0, length := 8, flags := 16, fresh := 1, sel := 0, lo := 0, hi := 255 }) }

/-- States that meet the hypotheses of `TideTableEvents`. -/
theorem meets_tideTableEvents : [
    on (updTide live fun t => { t with inputs := t.inputs.set [] 0 [
      { bytes := [], handle := 0, pos := 0, tm := 0, valid := false, good := true }] }) fun s => tideRuns s = true ∧
      s.tide.inputs.get [] 0 ≠ [],
    on sensed fun s => tideRuns s = true ∧ ((definedAt s.cfg.tide 5).bind fun x => s.cfg.tide.layouts.get none x.1).isSome = true ∧
      ((defOf s.cfg.tide 5).map fun d => d.flags.testBit 4) = some true ∧ (s.sig 5).state % 4 ≠ 2,
    on (updRoute live 0 fun x => { x with recs := [{ signal := 5, reasons := 1 }] }) fun s => (s.tide.routes.get {} 0).recs ≠ [],
    on (updTideCfg live fun t => { t with composes := t.composes.set none 0 (some {
      egress := 0, cls := 0, flags := 1, length := 60, period := 1, minInt := 1, payload := 0, crcKind := 0, aliveLen := 0
      crcPos := 0, dataId := 0, alivePos := 0, payLen := 8, seqOff := 0xFFFF, ipOff := 0, udpOff := 0 }) }) fun s =>
      ((s.cfg.tide.composes.get none 0).map fun c => c.flags.testBit 0) = some true,
    on (updTide composed fun t => { t with composes := t.composes.set {} 0 { held := true } }) fun s =>
      (s.cfg.tide.composes.get none 0).isSome = true ∧ (s.tide.composes.get {} 0).held = true].all id = true := by decide +kernel

/-- States, crossings and settings that meet the hypotheses of `PinsRingAndSequencer`, at both ends of the ring's slices. -/
theorem meets_pinsRingAndSequencer : [
    on segment fun s => (s.port 0).resMode = 2 ∧ (s.pcfg 0).mode.neg = 0 ∧ (s.pcfg 0).mode.mode = 2,
    on ((t1s 1 fun m => m).updPcfg 0 fun c => { c with mode := { c.mode with set := true, mode := 1 } }) fun s =>
      (s.port 0).resMode = 1 ∧ (s.pcfg 0).mode.mode = 1 ∧ driversOff s = false ∧ (s.port 0).st = .up,
    on ((port0 fun x => { x with st := .test, resMode := 1 }).updPcfg 0 fun c => { c with mode := { c.mode with set := true, mode := 1 } })
      fun s => (s.port 0).resMode = 1 ∧ (s.pcfg 0).mode.mode = 1 ∧ driversOff s = false ∧ (s.port 0).st = .test ∧
      within (s.port 0).test.action 1 3 = false,
    on (port0 fun x => { x with st := .quiet }) fun s => (s.pcfg 0).mode.mode ≠ 2 ∧ (s.port 0).st = .quiet,
    on live fun _ => (0 : Nat) < 4 ∧ (0 : Nat) % 2 = 0 ∧ (3 : Nat) < 4 ∧ (127 : Nat) % 2 = 1,
    on live fun _ => let c (cut : Bool) : Crossing := { egress := 0, cls := 0, cells := 1, cut }
      [c true, c false].Pairwise (fun a b => b.cut = true → a.cut = true) ∧ (c false).cut = false,
    on live fun _ => (1 : Nat).testBit 0 = true ∧ (0 : Nat).testBit 0 = false,
    on State.reset fun s => s.rst.asserted = true ∨ s.rst.fusesLoaded = false].all id = true := by decide +kernel

/-! ### Well-formed commands -/

/-- Step 1 of R47 bounds a request: 1,024 bytes of parameters, and a tag exactly with AUTH. -/
theorem test_wf_request :
    Instr.wf (.echo (rq 0 (zs 1024))) = true ∧ Instr.wf (.echo (rq 0 (zs 1025))) = false ∧
    Instr.wf (.echo { rq 0 [] with cmac := some 0 }) = false ∧ Instr.wf (.echo { rq 0 [] with flags := 3 }) = false ∧
    Instr.wf (.echo { rq 0 [] with flags := 3, cmac := some 0 }) = true := by decide +kernel

/-- A write of the request window is of whole words within it; a received VS50 frame has its 5,440 symbols; at most 160 words
of the MAC join a transmitted one. -/
theorem test_wf_transport :
    Instr.wf (.requestWindowWrite 4 [1, 2, 3, 4]) = true ∧ Instr.wf (.requestWindowWrite 2 [1, 2, 3, 4]) = false ∧
    Instr.wf (.requestWindowWrite 4 [1, 2, 3]) = false ∧ Instr.wf (.requestWindowWrite 2044 [1, 2, 3, 4, 5, 6, 7, 8]) = false ∧
    Instr.wf (.vs50FrameRx 0 0 (List.replicate 5440 3) 0) = true ∧ Instr.wf (.vs50FrameRx 0 0 (List.replicate 5440 4) 0) = false ∧
    Instr.wf (.vs50FrameRx 0 0 (List.replicate 5439 3) 0) = false ∧
    Instr.wf (.vs50FrameTx 0 (List.replicate 160 { ctl := 0, octets := 0 })) = true ∧
    Instr.wf (.vs50FrameTx 0 (List.replicate 161 { ctl := 0, octets := 0 })) = false := by
  decide +kernel

/-! ### Check values and worked examples of the spec -/

/-- The check values of R36, R140, R156 and R487 over "123456789". -/
theorem test_check_values : crc32c (ascii "123456789") = 0xE3069283 ∧ crc8h (ascii "123456789") = 0xF4 ∧
    crc16 (ascii "123456789") = 0x29B1 ∧ crc8tt (ascii "123456789") = 0x4B := by decide +kernel

/-- The example of Flaes: P32 alone is bit 0 of byte 11 of the mask of `PORT_QUIET`. -/
theorem test_quiet_mask : portMask (rq 0 ([1, 0, 0, 0] ++ zs 11 ++ [1] ++ zs 4)) 4 = [32] := by decide +kernel

/-- The example of the Tide Table: the three signals and the alive counter of layout 200's payload. -/
theorem test_layout_200 :
    let ps : List Byte := [0x3C, 0x85, 0x00, 0x7F, 0x12, 0x00, 0x04, 0x00]
    let d : SigDef := { signal := 0, pos := 12, length := 12, flags := 1, fresh := 0, sel := 0, lo := 0, hi := 0 }
    extract ps d = 968 ∧ extract ps { d with pos := 16, length := 2, flags := 0 } = 0 ∧
    extract ps { d with pos := 24, length := 16, flags := 2 } = 4735 ∧ leField ps 48 4 = 4 := by decide +kernel

/-- The example of Sounding: the return losses of the reflections on P0. -/
theorem test_return_loss : [1036, 1305, 1551, 2241].map returnLoss = [300, 280, 265, 233] := by decide +kernel

/-- The example of host links: quay 2's map bonds HL18 and HL19 to link 18, whose home is slice 2; P32's is slice 1. -/
theorem test_bonding : (setBond live 2 [2, 0, 2, 0, 2, 0, 2, 0]).linkLanes 18 = [18, 19] ∧ posSlice (128 + 18) = 2 ∧
    posSlice 32 = 1 := by decide +kernel

/-- The example of the fabric: the full load of the reference vehicle in a window fits Mid, not Neap. -/
theorem test_demand : demandFits 8 2 9060000 2270000 2270000 = true ∧ demandFits 8 3 9060000 2270000 2270000 = false := by
  decide +kernel

/-- The example of the sequencer: VOUT_COMMAND of 650 mV at address 0x40 and Linear16 with exponent -9. -/
theorem test_vout : voutWord 0x17 650 = 0x14D ∧
    pmbusWrite (0x40, 0, 0) 0x21 (le 2 (voutWord 0x17 650)) = [0x80, 0x21, 0x4D, 0x01] := by decide +kernel

/-- The example of the package: the balls of P77 and of HL18, and what they carry. -/
theorem test_balls : lineBalls 77 = (⟨69, 22⟩, ⟨68, 22⟩) ∧ rowName 69 = ['C', 'M'] ∧ rowName 68 = ['C', 'L'] ∧
    hostBalls 18 = [⟨22, 64⟩, ⟨22, 65⟩, ⟨22, 70⟩, ⟨22, 71⟩] ∧ rowName 22 = ['A', 'C'] ∧
    ballNet ⟨69, 22⟩ = .lineP 77 ∧ ballNet ⟨22, 71⟩ = .hrxN 18 := by decide +kernel

/-- The field of R148 to R150: x¹⁰ = x³ + 1, and the generator of degree 30 has the roots α⁰ and α²⁹, and not α³⁰. -/
theorem test_rs_field : gfMul 2 512 = 9 ∧ rsGen.length = 31 ∧ polyEval (alpha 0) rsGen.reverse = 0 ∧
    polyEval (alpha 29) rsGen.reverse = 0 ∧ polyEval (alpha 30) rsGen.reverse ≠ 0 := by decide +kernel

/-! ### Requests -/

/-- Statuses of the packets that the SPI host then finds in its queue. -/
def answers (i : Instr) (s : State) : List Nat := match exec i s with
  | .next t => t.ctl.spiQueue.map (·.status)
  | _ => []

/-- R47: the first check that fails names the status. -/
theorem test_checks :
    answers (.echo (rq 0 [1, 2])) live = [0x0000] ∧
    answers (.echo { rq 0 [] with version := 2 }) live = [0x0020] ∧
    answers (.echo { rq 0 [] with flags := 0x82 }) live = [] ∧
    answers (.echo { rq 0 [] with flags := 6 }) live = [0x0030] ∧
    answers (.echo (rq 1 [])) live = [0x0023] ∧
    answers (.portModeGet (rq 0x01000000 [0])) live = [0x0022] ∧
    answers (.echo { rq 0 [] with rsvd := 1 }) live = [0x0021] ∧
    answers (.epochOpen (rq 0 [0, 0, 14, 17])) live = [0x0050] ∧
    answers (.epochOpen (rq 0 [0, 0, 0, 1])) epoched = [0x0010] ∧
    answers (.echo { rq 0 [] with flags := 3, cmac := some 1 }) live = [0x0031] ∧
    answers (.echo (rq 0 [])) State.reset = [] := by decide +kernel

/-- R72: `ECHO` returns its parameters; R39, R40: the release of the reply window takes the oldest packet. -/
theorem test_echo :
    (match exec (.echo (rq 0 [1, 2])) live with | .next t => t.ctl.spiQueue.map (·.data) | _ => []) = [[1, 2]] ∧
    (match exec .mbxDoorbellRelease crowded with | .next t => t.ctl.spiQueue.length | _ => 0) = 31 := by decide +kernel

/-- A request through the window: its bytes are the packet of R34 to R36. -/
theorem test_submit : answers .mbxDoorbellSubmit (windowed (reqBody 0xF005 (rq 0 [1, 2]))) = [0] ∧
    answers .mbxDoorbellSubmit live = [] := by decide +kernel

/-- `PORT_QUIET` of P32 alone quiets P32, and no other port (R77). -/
theorem test_port_quiet :
    (match exec (.portQuiet (rq 0 ([1, 0, 0, 0] ++ zs 11 ++ [1] ++ zs 4))) live with
      | .next t => (t.port 32).quietHold && !(t.port 0).quietHold | _ => false) = true := by decide +kernel

/-- The example of 10BASE-T1S: a rise of 19.5 dB ends a false reception, and the strength of -11.5 dB is code 0xE9. -/
theorem test_rearm :
    (match exec (.rxRearm 0 39) (t1s 2 fun m => { m with rx := 1 }) with | .next t => t.cnt 0x1403 0 5 | _ => 0) = 1 ∧
    (0xE9 : BitVec 8).toInt = -23 := by decide +kernel

/-- A step takes the command at the front; on an empty queue the ticker advances. -/
theorem test_step :
    step { live with pending := [.mbxDoorbellRelease, .wakeNPulseEnd] } = exec .mbxDoorbellRelease { live with pending := [.wakeNPulseEnd] } ∧
    (match step live with | .next t => t.now | _ => 0) = 1 := ⟨rfl, by decide +kernel⟩

/-- The table gives its rows no bits: no word spells a command. -/
theorem test_no_words : decodeTableWord 16 0 = none ∧ State.reset.withFetchWord 16 0 = State.reset := ⟨rfl, rfl⟩

end Sys2Proof.Tests
end

section
/-! PROOFS of the control path's rules (R47, R56, R58, R60, R73). First the layer they rest on: what the checks of R47 decide about a
packet that its agent takes at once, what a refusal leaves, and which opcodes are Breakwater's. -/

namespace Sys2Proof.Machine

/-! ### A packet that its agent takes at once (R46, R47) -/

/-- Flaes hands a packet of an open source straight to the agent that serves it. -/
theorem serve_eq_act {c : Cmd} {r : Req} {s : State} (hf : s.ctl.feReady = true) (ho : sourceOpen s c.bw (sn r) = true)
    (hh : c.bw = true ∨ s.rst.headland = 2 ∧ s.ctl.cmdQueue = []) : serve c r s = act (received r s) c r := by
  rcases hh with hb | ⟨h2, hq⟩
  · rw [hb] at ho
    simp [serve, received, hf, ho, hb]
  · simp [serve, received, hf, ho, serving, h2, hq]

/-- What `judge` refuses is answered, and nothing more. -/
theorem act_of_judge_refuse {c : Cmd} {r : Req} {s : State} {st : Status} {d : List Byte} (h : judge s c r = .refuse st d) :
    act s c r = refuse s c.op r st d := by
  simp only [act, h]

/-- Step 5 of R47 is the first to fail. -/
theorem judge_not_permitted {c : Cmd} {r : Req} {s : State} (ha : authOk s c.op r = true) (h7 : r.flags.getLsbD 7 = false)
    (hv : r.version = 1) (hp : permitted s c r = false) : judge s c r = .refuse .notPermitted [] := by
  simp only [judge, ha, h7, hv, hp, Bool.not_true, Bool.not_false, Bool.false_eq_true, ne_eq, not_true_eq_false, if_false, if_true]

/-- Step 9 of R47 is the first to fail for an opcode that Headland executes at once and every transport may bring. -/
theorem judge_of_step9 {c : Cmd} {r : Req} {s : State} {st : Status} {d : List Byte} (ha : authOk s c.op r = true)
    (hf : r.flags &&& 0xFC = 0) (hv : r.version = 1) (hr : r.rsvd = 0) (hs : c.spiOnly = false) (h2 : s.rst.headland = 2)
    (ht : c.target s (tw r) = true) (hl : c.len r.params = true) (hc : c.check s r = none) (h9 : step9 s c r = some (st, d)) :
    judge s c r = .refuse st d := by
  obtain ⟨h7, hst, h78⟩ := flags_clear hf
  have hp : permitted s c r = true := by simp [permitted, hs, hst, h2]
  have h8 : step8 s c r = none := by simp [step8, h78, hr, hc]
  simp only [judge, ha, h7, hv, hp, judge69, hst, ht, hl, h8, h9, Bool.not_true, Bool.false_eq_true, ne_eq, not_true_eq_false,
    if_false]

/-- A staged packet passes step 5 only for an opcode that may be staged, from the owner of an open epoch (R56, R665). -/
theorem permitted_staged {c : Cmd} {r : Req} {s : State} (hst : staged r = true) (hp : permitted s c r = true) :
    c.stageable = true ∧ s.epoch.state ≠ 0 ∧ s.epoch.owner = sn r := by
  simp only [permitted, hst, Bool.and_eq_true, Bool.not_true, Bool.false_or, bne_iff_ne, beq_iff_eq] at hp
  obtain ⟨⟨_, ⟨hc, hs⟩, ho⟩, _⟩ := hp
  exact ⟨hc, hs, ho⟩

/-- A packet that fails step 5 of R47, and no step before it, is answered NOT_PERMITTED. -/
theorem serve_not_permitted {c : Cmd} {r : Req} {s : State} (hf : s.ctl.feReady = true)
    (ho : sourceOpen s c.bw (sn r) = true) (hh : c.bw = true ∨ s.rst.headland = 2 ∧ s.ctl.cmdQueue = [])
    (ha : authOk (received r s) c.op r = true) (h7 : r.flags.getLsbD 7 = false) (hv : r.version = 1)
    (hp : permitted (received r s) c r = false) : serve c r s = refuse (received r s) c.op r .notPermitted [] :=
  (serve_eq_act hf ho hh).trans (act_of_judge_refuse (judge_not_permitted ha h7 hv hp))

/-! ### What a reply leaves (R35, R40) -/

@[simp] theorem sendPacket_epoch (s : State) (p : Packet) : (sendPacket s p).epoch = s.epoch := by
  unfold sendPacket linkPacket
  split
  · split <;> rfl
  · split
    · rfl
    · split
      · split <;> rfl
      · rfl

@[simp] theorem reply_epoch (s : State) (op : Nat) (r : Req) (st : Status) (d : List Byte) :
    (reply s op r st d).epoch = s.epoch := by
  have counted : (if st = .busy then s.bump 0x0003 (sn r) 3 else s).epoch = s.epoch := by split <;> rfl
  unfold reply
  dsimp only
  split
  · rw [sendPacket_epoch, counted]
  · exact counted

@[simp] theorem refuse_epoch (s : State) (op : Nat) (r : Req) (st : Status) (d : List Byte) :
    (refuse s op r st d).epoch = s.epoch := by
  unfold refuse
  split
  · simp
  · rw [reply_epoch]; split <;> rfl

/-! ### Staging (R58) -/

/-- An open epoch takes a command whose islands are open unless it does not fit in the 2 MiB. -/
theorem step9Staged_open {s : State} {c : Cmd} {r : Req} (ho : s.epoch.state < 2)
    (hg : (c.gate && (c.names s r).any (blockShut s)) = false) : step9Staged s c r =
      if 2 * 1024 * 1024 < stagingUsed s.epoch + stagedSize r then some (.range, []) else none := by
  unfold step9Staged
  rw [if_neg (Nat.not_le.mpr ho), hg, if_neg Bool.false_ne_true]

/-- 16 bytes and the parameters, rounded up to a multiple of 8 (R58). -/
theorem stagedSize_spec (r : Req) :
    stagedSize r % 8 = 0 ∧ 16 + r.params.length ≤ stagedSize r ∧ stagedSize r < 16 + r.params.length + 8 := by
  unfold stagedSize
  omega

/-- Settles O21: the size by arithmetic, the bound by the last check of a staged command, the epoch by the frame of a reply. -/
theorem stagingMemory : Obligations.StagingMemory := by
  refine ⟨stagedSize_spec, fun s c r ho hg => ?_, fun s op r d => refuse_epoch s op r .range d⟩
  rw [step9Staged_open ho hg]
  change _ ↔ 2 * 1024 * 1024 < stagingUsed s.epoch + stagedSize r
  split <;> simp [*]

/-! ### The end of an epoch (R60, R66) -/

/-- A record that finds space in the event queue is queued last (R67). -/
theorem raiseFor_of_room {s : State} (h : s.ctl.events.length < 4096) (code sev src op tag : Nat) (d : List Byte) :
    raiseFor s code sev src op tag d = pushEvent s code sev src op tag d := by
  unfold raiseFor
  exact if_pos h

/-- While Headland is at READY, its record that finds space is queued last. -/
theorem raiseReady_of_room {s : State} (h2 : s.rst.headland = 2) (h : s.ctl.events.length < 4096)
    (code sev src op tag : Nat) (d : List Byte) : raiseReady s code sev src op tag d = pushEvent s code sev src op tag d :=
  (if_pos h2).trans (raiseFor_of_room h code sev src op tag d)

/-- The epoch of a source ends with its outcome and one `EPOCH_DONE`, where Headland is at READY and the record finds space. -/
theorem endEpoch_of_room {s : State} (ho : s.epoch.owner ≠ 0xFE) (h2 : s.rst.headland = 2) (hl : s.ctl.events.length < 4096)
    (op tag failed : Nat) (st : Status) :
    (endEpoch s op tag failed st).epoch.state = 0 ∧ (endEpoch s op tag failed st).epoch.staged = [] ∧
      (endEpoch s op tag failed st).cfg = s.cfg ∧ ∃ e : EventRec,
        (endEpoch s op tag failed st).ctl.events = s.ctl.events ++ [e] ∧ e.code = 0x0002 ∧
          e.detail = padTo 8 (be 2 st.code ++ be 4 failed) := by
  unfold endEpoch
  dsimp only
  rw [if_neg ho, raiseReady_of_room]
  · exact ⟨rfl, rfl, rfl, _, rfl, rfl, rfl⟩
  · exact h2
  · exact hl

/-- Settles O22: the timeout of an open epoch of a source is its end with EPOCH_ROLLED_BACK. -/
theorem epochIdleAborts : Obligations.EpochIdleAborts := by
  intro s h1 ho h2 hl
  have ends : exec .epochIdleTimeout s = .next (endEpoch s 0 0 0xFFFFFFFF .epochRolledBack) :=
    congrArg Host.Outcome.next (if_pos ⟨h1, ho⟩)
  exact ⟨_, ends, endEpoch_of_room ho h2 hl 0 0 0xFFFFFFFF .epochRolledBack⟩

/-! ### Breakwater's opcodes (R71, R73) -/

/-- The registry holds Breakwater's opcodes in one list, and no other of its records is Breakwater's. -/
theorem mem_breakwaterCmds {pre : Precond} {c : Cmd} (h : c ∈ cmds pre) (hb : c.bw = true) : c ∈ breakwaterCmds := by
  have headlands : (controlCmds ++ portCmds ++ hostCmds ++ fabricCmds ++ tideCmds ++ clockCmds ++ resetCmds ++ nvmCmds ++
    testCmds pre).all (fun c => !c.bw) = true := by
    simp only [List.all_append, Bool.and_eq_true]
    exact ⟨⟨⟨⟨⟨⟨⟨⟨rfl, rfl⟩, rfl⟩, rfl⟩, rfl⟩, rfl⟩, rfl⟩, rfl⟩, rfl⟩
  rcases List.mem_append.mp h with hc | hc
  · have := List.all_eq_true.mp headlands c hc
    simp [hb] at this
  · exact hc

/-- No row of Breakwater is staged (R73). -/
theorem breakwater_not_stageable {c : Cmd} (h : c ∈ breakwaterCmds) : c.stageable = false := by
  have rows : breakwaterCmds.all (fun c => !c.stageable) = true := rfl
  simpa using List.all_eq_true.mp rows c h

/-- Settles O23: step 5 of R47 asks a staged packet for an opcode that may be staged, and none of Breakwater's may. -/
theorem breakwaterUnstaged : Obligations.BreakwaterUnstaged := by
  intro pre c r s hm hb hst
  have barred : ∀ t : State, permitted t c r = false := fun t => Bool.eq_false_iff.mpr fun hp =>
    Bool.false_ne_true ((breakwater_not_stageable (mem_breakwaterCmds hm hb)).symm.trans (permitted_staged hst hp).1)
  exact ⟨barred s, fun hf ho ha h7 hv => serve_not_permitted hf ho (.inl hb) ha h7 hv (barred _)⟩

/-! ### The epoch and its owner (R56) -/

/-- On the device, `EPOCH_OPEN` passes step 9 of R47 exactly while no epoch is open. -/
theorem step9_epochOpen {s : State} {r : Req} (ht : tw r = 0) :
    step9 s epochOpenCmd r = if s.epoch.state ≠ 0 then some (.busy, []) else none := by
  have names : epochOpenCmd.names s r = [0] := congrArg (fun t => [t]) ht
  have block : step9Block s epochOpenCmd r 0 = if s.epoch.state ≠ 0 then some (.busy, []) else none := rfl
  have host : step9 s epochOpenCmd r = (epochOpenCmd.names s r).findSome? (step9Block s epochOpenCmd r) := rfl
  rw [host, names, List.findSome?_singleton, block]

/-- An idle timeout of 1 to 3,600 s passes step 8 (R60). -/
theorem epochOpen_check {s : State} {r : Req} (h0 : p32 r 0 ≠ 0) (h1 : p32 r 0 ≤ 3600) : epochOpenCmd.check s r = none := by
  simp [epochOpenCmd, firstFail, inv, rng, h0, h1]

/-- A command staged by a source that does not own the epoch is answered NOT_PERMITTED. -/
theorem serve_staged_of_not_owner {c : Cmd} {r : Req} {s : State} (hf : s.ctl.feReady = true)
    (ho : sourceOpen s c.bw (sn r) = true) (hh : c.bw = true ∨ s.rst.headland = 2 ∧ s.ctl.cmdQueue = [])
    (ha : authOk (received r s) c.op r = true) (h7 : r.flags.getLsbD 7 = false) (hv : r.version = 1) (hst : staged r = true)
    (hn : s.epoch.owner ≠ sn r) : serve c r s = refuse (received r s) c.op r .notPermitted [] := by
  have barred : permitted (received r s) c r = false := Bool.eq_false_iff.mpr fun hp => hn (permitted_staged hst hp).2.2
  exact serve_not_permitted hf ho hh ha h7 hv barred

/-- `EPOCH_OPEN` that step 9 alone stops is answered BUSY. -/
theorem serve_epochOpen_busy {r : Req} {s : State} (hf : s.ctl.feReady = true) (ho : sourceOpen s false (sn r) = true)
    (h2 : s.rst.headland = 2) (hq : s.ctl.cmdQueue = []) (ha : authOk (received r s) 0x0010 r = true)
    (hfl : r.flags &&& 0xFC = 0) (hv : r.version = 1) (hr : r.rsvd = 0) (ht : tw r = 0) (hl : r.params.length = 4)
    (h0 : p32 r 0 ≠ 0) (h1 : p32 r 0 ≤ 3600) (he : s.epoch.state ≠ 0) :
    serve epochOpenCmd r s = refuse (received r s) 0x0010 r .busy [] := by
  have busy : step9 (received r s) epochOpenCmd r = some (.busy, []) := (step9_epochOpen ht).trans (if_pos he)
  exact (serve_eq_act hf ho (.inr ⟨h2, hq⟩)).trans (act_of_judge_refuse
    (judge_of_step9 ha hfl hv hr rfl h2 (beq_iff_eq.mpr ht) (beq_iff_eq.mpr hl) (epochOpen_check h0 h1) busy))

/-- `EPOCH_OPEN` is taken only while no epoch is open. -/
theorem closed_of_taken_epochOpen {r : Req} {s : State} (h : Taken epochOpenCmd r s) : s.epoch.state = 0 := by
  obtain ⟨_, _, _, _, _, _, _, _, ht, _, _, h9⟩ := h
  rw [step9_epochOpen (beq_iff_eq.mp ht)] at h9
  by_contra he
  rw [if_pos (show (received r s).epoch.state ≠ 0 from he)] at h9
  cases h9

/-- Settles O24: the owner is asked at step 5 of R47, and a second `EPOCH_OPEN` meets step 9. -/
theorem oneEpoch : Obligations.OneEpoch := by
  refine ⟨fun c r s hf ho hh ha h7 hv hst _ hn => serve_staged_of_not_owner hf ho hh ha h7 hv hst hn,
    fun r s hf ho h2 hq ha hfl hv hr ht hl h0 h1 he =>
      congrArg Host.Outcome.next (serve_epochOpen_busy hf ho h2 hq ha hfl hv hr ht hl h0 h1 he),
    fun r s h => ⟨closed_of_taken_epochOpen h, _, congrArg Host.Outcome.next (serve_taken h), rfl, rfl, rfl⟩⟩

end Sys2Proof.Machine
end

section
/-! Proofs about the VS50 link (04): which headers are valid (R141). -/

namespace Sys2Proof.Machine

/-- Bit `i` of a field is bit `lo + i` of the number it is taken from, as far as the field reaches. -/
theorem testBit_bits (v hi lo i : Nat) :
    (bits v hi lo).testBit i = (decide (i < hi + 1 - lo) && v.testBit (lo + i)) := by
  unfold bits
  rw [Nat.testBit_mod_two_pow, Nat.testBit_shiftRight]

/-- A field of a field, where the outer one holds it whole, is the field at the sum of the offsets. -/
theorem bits_bits {hi lo h : Nat} (hh : lo + h ≤ hi) (v l : Nat) :
    bits (bits v hi lo) h l = bits v (lo + h) (lo + l) := by
  refine Nat.eq_of_testBit_eq fun i => ?_
  have width : lo + h + 1 - (lo + l) = h + 1 - l := by omega
  rw [testBit_bits, testBit_bits, testBit_bits, width, Nat.add_assoc lo l i]
  by_cases inner : i < h + 1 - l
  · have outer : l + i < hi + 1 - lo := by omega
    simp [outer]
  · simp [inner]

/-- A header parses exactly when it meets the three tests of R141, its TYPE read from the 32 bits under the HCRC. -/
theorem parseHdr_isSome_iff (w : BitVec 64) : (parseHdr w).isSome = true ↔
    popcount 16 (bits w.toNat 63 48 ^^^ 0xF9A8) ≤ 2 ∧ bits w.toNat 15 8 = crc8h (be 4 (bits w.toNat 47 16)) ∧
      bits (bits w.toNat 47 16) 31 30 ≠ 3 := by
  unfold parseHdr
  exact Option.isSome_ite

/-- Settles O26: the TYPE, bits 31 to 30 of the 32 bits under the HCRC, is bits 47 to 46 of the header. -/
theorem headerValid : Obligations.HeaderValid := by
  intro w
  have type : bits (bits w.toNat 47 16) 31 30 = bits w.toNat 47 46 := bits_bits (Nat.le_refl 47) w.toNat 30
  rw [parseHdr_isSome_iff, type]

end Sys2Proof.Machine
end

section
/-! PROOFS about the step and what a command writes: every command keeps the invariant, the queue of commands, and what it is no
writer of. The layer `Laws.Keep` has one lemma for each meaning; here they are put together over the table of commands. -/

namespace Sys2Proof.Machine

/-! ### Every command -/

/-- Every command keeps what `H` asks of a part of the state that it does not write, and the invariant (one `keep_` lemma each). -/
theorem keep_exec {H : Hold} {s : State} (c : Instr) (hm : writesMram c = true → H.freeM) (hf : writesFuses c = true → H.freeF)
    (hc : writesCfg c = true → H.freeC) (hs : writesOverride c = true → H.freeS) (h : Keep H s) : KeepO H (exec c s) := by
  cases c with
  | mbxDoorbellSubmit => exact keep_execMbxDoorbellSubmit (hm rfl) (hf rfl) (hc rfl) (hs rfl) h
  | mbxDoorbellRelease => exact keep_execMbxDoorbellRelease h
  | requestWindowWrite _ _ => exact keep_execRequestWindowWrite h
  | identityRead _ => exact keepO_next (keep_serve keep_identityReadCmd h)
  | deviceStatus _ => exact keepO_next (keep_serve keep_deviceStatusCmd h)
  | controlCountersRead _ => exact keepO_next (keep_serve keep_controlCountersReadCmd h)
  | controlCountersClear _ => exact keepO_next (keep_serve keep_controlCountersClearCmd h)
  | authPolicySet _ => exact keepO_next (keep_serve (keep_authPolicySetCmd (hc rfl)) h)
  | authKeyProgram _ => exact keepO_next (keep_serve (keep_authKeyProgramCmd (hf rfl) (hc rfl)) h)
  | authKeyRevoke _ => exact keepO_next (keep_serve (keep_authKeyRevokeCmd (hf rfl) (hc rfl)) h)
  | epochOpen _ => exact keepO_next (keep_serve keep_epochOpenCmd h)
  | epochCommit _ => exact keepO_next (keep_serve keep_epochCommitCmd h)
  | epochAbort _ => exact keepO_next (keep_serve keep_epochAbortCmd h)
  | epochStatus _ => exact keepO_next (keep_serve keep_epochStatusCmd h)
  | transportConfig _ => exact keepO_next (keep_serve (keep_transportConfigCmd (hc rfl)) h)
  | eventRoute _ => exact keepO_next (keep_serve (keep_eventRouteCmd (hc rfl)) h)
  | eventMask _ => exact keepO_next (keep_serve (keep_eventMaskCmd (hc rfl)) h)
  | eventRead _ => exact keepO_next (keep_serve keep_eventReadCmd h)
  | eventAck _ => exact keepO_next (keep_serve keep_eventAckCmd h)
  | eventNotify => exact keep_execEventNotify h
  | safeState _ => exact keep_execSafeState (hm rfl) (hf rfl) (hc rfl) (hs rfl) h
  | portQuiet _ => exact keep_execPortQuiet (hm rfl) (hf rfl) (hc rfl) (hs rfl) h
  | readFaultRecord _ => exact keepO_next (keep_serve keep_readFaultRecordCmd h)
  | domainReset _ => exact keepO_next (keep_serve keep_domainResetCmd h)
  | deviceWarmReset _ => exact keepO_next (keep_serve keep_deviceWarmResetCmd h)
  | warmResetAssert => exact keep_execWarmResetAssert (hc rfl) (hs rfl) h
  | echo _ => exact keepO_next (keep_serve keep_echoCmd h)
  | readCoreStatus _ => exact keepO_next (keep_serve keep_readCoreStatusCmd h)
  | integrityConfig _ => exact keepO_next (keep_serve (keep_integrityConfigCmd (hc rfl)) h)
  | integrityStatus _ => exact keepO_next (keep_serve keep_integrityStatusCmd h)
  | integrityFaultClear _ => exact keepO_next (keep_serve keep_integrityFaultClearCmd h)
  | faultLogRead _ => exact keepO_next (keep_serve keep_faultLogReadCmd h)
  | integrityCountersRead _ => exact keepO_next (keep_serve keep_integrityCountersReadCmd h)
  | integrityCountersClear _ => exact keepO_next (keep_serve keep_integrityCountersClearCmd h)
  | faultInject _ => exact keepO_next (keep_serve keep_faultInjectCmd h)
  | portModeSet _ => exact keepO_next (keep_serve (keep_portModeSetCmd (hc rfl)) h)
  | portModeGet _ => exact keepO_next (keep_serve keep_portModeGetCmd h)
  | portAdmin _ => exact keepO_next (keep_serve (keep_portAdminCmd (hc rfl)) h)
  | portStatusRead _ => exact keepO_next (keep_serve keep_portStatusReadCmd h)
  | portCountersRead _ => exact keepO_next (keep_serve keep_portCountersReadCmd h)
  | portCountersClear _ => exact keepO_next (keep_serve keep_portCountersClearCmd h)
  | coveStatus _ => exact keepO_next (keep_serve keep_coveStatusCmd h)
  | vs50Config _ => exact keepO_next (keep_serve (keep_vs50ConfigCmd (hc rfl)) h)
  | vs50Status _ => exact keepO_next (keep_serve keep_vs50StatusCmd h)
  | vs50CountersRead _ => exact keepO_next (keep_serve keep_vs50CountersReadCmd h)
  | vs50CountersClear _ => exact keepO_next (keep_serve keep_vs50CountersClearCmd h)
  | vs50OamSend _ => exact keepO_next (keep_serve keep_vs50OamSendCmd h)
  | vs50OamRead _ => exact keepO_next (keep_serve keep_vs50OamReadCmd h)
  | dspConfig _ => exact keepO_next (keep_serve (keep_dspConfigCmd (hc rfl)) h)
  | dspStatus _ => exact keepO_next (keep_serve keep_dspStatusCmd h)
  | bundleGroupSet _ => exact keepO_next (keep_serve (keep_bundleGroupSetCmd (hc rfl)) h)
  | bundleGroupGet _ => exact keepO_next (keep_serve keep_bundleGroupGetCmd h)
  | xtalkStatus _ => exact keepO_next (keep_serve keep_xtalkStatusCmd h)
  | echoWindowSet _ => exact keepO_next (keep_serve (keep_echoWindowSetCmd (hc rfl)) h)
  | anchorControl _ => exact keepO_next (keep_serve keep_anchorControlCmd h)
  | dspCountersRead _ => exact keepO_next (keep_serve keep_dspCountersReadCmd h)
  | dspCountersClear _ => exact keepO_next (keep_serve keep_dspCountersClearCmd h)
  | tapRead _ => exact keepO_next (keep_serve keep_tapReadCmd h)
  | startConfig _ => exact keepO_next (keep_serve (keep_startConfigCmd (hc rfl)) h)
  | startStatus _ => exact keepO_next (keep_serve keep_startStatusCmd h)
  | startCountersRead _ => exact keepO_next (keep_serve keep_startCountersReadCmd h)
  | startCountersClear _ => exact keepO_next (keep_serve keep_startCountersClearCmd h)
  | relinkStoreRead _ => exact keepO_next (keep_serve keep_relinkStoreReadCmd h)
  | relinkStoreClear _ => exact keepO_next (keep_serve keep_relinkStoreClearCmd h)
  | startRestart _ => exact keepO_next (keep_serve keep_startRestartCmd h)
  | mdConfig _ => exact keepO_next (keep_serve (keep_mdConfigCmd (hc rfl)) h)
  | mdStatus _ => exact keepO_next (keep_serve keep_mdStatusCmd h)
  | mdCountersRead _ => exact keepO_next (keep_serve keep_mdCountersReadCmd h)
  | mdCountersClear _ => exact keepO_next (keep_serve keep_mdCountersClearCmd h)
  | mdNodeTableRead _ => exact keepO_next (keep_serve keep_mdNodeTableReadCmd h)
  | mdNodeTableClear _ => exact keepO_next (keep_serve keep_mdNodeTableClearCmd h)
  | healthConfig _ => exact keepO_next (keep_serve (keep_healthConfigCmd (hc rfl)) h)
  | healthStatus _ => exact keepO_next (keep_serve keep_healthStatusCmd h)
  | healthCountersRead _ => exact keepO_next (keep_serve keep_healthCountersReadCmd h)
  | healthCountersClear _ => exact keepO_next (keep_serve keep_healthCountersClearCmd h)
  | soundingConfig _ => exact keepO_next (keep_serve (keep_soundingConfigCmd (hc rfl)) h)
  | soundingRun _ => exact keepO_next (keep_serve keep_soundingRunCmd h)
  | soundingResultRead _ => exact keepO_next (keep_serve keep_soundingResultReadCmd h)
  | soundingProfileRead _ => exact keepO_next (keep_serve keep_soundingProfileReadCmd h)
  | soundingBaselineSet _ => exact keepO_next (keep_serve keep_soundingBaselineSetCmd h)
  | soundingBaselineRead _ => exact keepO_next (keep_serve keep_soundingBaselineReadCmd h)
  | soundingBaselineLoad _ => exact keepO_next (keep_serve keep_soundingBaselineLoadCmd h)
  | cableTestRun _ => exact keepO_next (keep_serve keep_cableTestRunCmd h)
  | cableTestResult _ => exact keepO_next (keep_serve keep_cableTestResultCmd h)
  | cableTestProfileRead _ => exact keepO_next (keep_serve keep_cableTestProfileReadCmd h)
  | portPowerConfig _ => exact keepO_next (keep_serve (keep_portPowerConfigCmd (hc rfl)) h)
  | portSlack _ => exact keepO_next (keep_serve keep_portSlackCmd h)
  | portPowerStatus _ => exact keepO_next (keep_serve keep_portPowerStatusCmd h)
  | devicePowerSet _ => exact keepO_next (keep_serve keep_devicePowerSetCmd h)
  | devicePowerStatus _ => exact keepO_next (keep_serve keep_devicePowerStatusCmd h)
  | wakeConfig _ => exact keepO_next (keep_serve (keep_wakeConfigCmd (hc rfl)) h)
  | powerCountersRead _ => exact keepO_next (keep_serve keep_powerCountersReadCmd h)
  | powerCountersClear _ => exact keepO_next (keep_serve keep_powerCountersClearCmd h)
  | hostLinkConfig _ => exact keepO_next (keep_serve (keep_hostLinkConfigCmd (hc rfl)) h)
  | hostLaneConfig _ => exact keepO_next (keep_serve (keep_hostLaneConfigCmd (hc rfl)) h)
  | hostLinkMacConfig _ => exact keepO_next (keep_serve (keep_hostLinkMacConfigCmd (hc rfl)) h)
  | hostAdmin _ => exact keepO_next (keep_serve (keep_hostAdminCmd (hc rfl)) h)
  | hostEbb _ => exact keepO_next (keep_serve keep_hostEbbCmd h)
  | hostLaneStatus _ => exact keepO_next (keep_serve keep_hostLaneStatusCmd h)
  | hostLinkStatus _ => exact keepO_next (keep_serve keep_hostLinkStatusCmd h)
  | hostLaneCountersRead _ => exact keepO_next (keep_serve keep_hostLaneCountersReadCmd h)
  | hostLaneCountersClear _ => exact keepO_next (keep_serve keep_hostLaneCountersClearCmd h)
  | hostLinkCountersRead _ => exact keepO_next (keep_serve keep_hostLinkCountersReadCmd h)
  | hostLinkCountersClear _ => exact keepO_next (keep_serve keep_hostLinkCountersClearCmd h)
  | eyeScanStart _ => exact keepO_next (keep_serve keep_eyeScanStartCmd h)
  | eyeScanRead _ => exact keepO_next (keep_serve keep_eyeScanReadCmd h)
  | hostTest _ => exact keepO_next (keep_serve keep_hostTestCmd h)
  | fabricConfig _ => exact keepO_next (keep_serve (keep_fabricConfigCmd (hc rfl)) h)
  | fabricStatus _ => exact keepO_next (keep_serve keep_fabricStatusCmd h)
  | queueConfig _ => exact keepO_next (keep_serve (keep_queueConfigCmd (hc rfl)) h)
  | schedulerConfig _ => exact keepO_next (keep_serve (keep_schedulerConfigCmd (hc rfl)) h)
  | shaperConfig _ => exact keepO_next (keep_serve (keep_shaperConfigCmd (hc rfl)) h)
  | cutThroughConfig _ => exact keepO_next (keep_serve (keep_cutThroughConfigCmd (hc rfl)) h)
  | queueStatus _ => exact keepO_next (keep_serve keep_queueStatusCmd h)
  | queueCountersRead _ => exact keepO_next (keep_serve keep_queueCountersReadCmd h)
  | queueCountersClear _ => exact keepO_next (keep_serve keep_queueCountersClearCmd h)
  | sliceCountersRead _ => exact keepO_next (keep_serve keep_sliceCountersReadCmd h)
  | sliceCountersClear _ => exact keepO_next (keep_serve keep_sliceCountersClearCmd h)
  | sliceGate _ => exact keepO_next (keep_serve keep_sliceGateCmd h)
  | streamTableConfig _ => exact keepO_next (keep_serve (keep_streamTableConfigCmd (hc rfl)) h)
  | streamEntryWrite _ => exact keep_execStreamEntryWrite (hc rfl) h
  | streamEntryDelete _ => exact keepO_next (keep_serve (keep_streamEntryDeleteCmd (hc rfl)) h)
  | streamEntryRead _ => exact keepO_next (keep_serve keep_streamEntryReadCmd h)
  | streamLookup _ => exact keepO_next (keep_serve keep_streamLookupCmd h)
  | streamTableStatus _ => exact keepO_next (keep_serve keep_streamTableStatusCmd h)
  | destWrite _ => exact keepO_next (keep_serve (keep_destWriteCmd (hc rfl)) h)
  | ingressProfileSet _ => exact keepO_next (keep_serve (keep_ingressProfileSetCmd (hc rfl)) h)
  | qciFilterSet _ => exact keepO_next (keep_serve (keep_qciFilterSetCmd (hc rfl)) h)
  | qciMeterSet _ => exact keepO_next (keep_serve (keep_qciMeterSetCmd (hc rfl)) h)
  | qciGateSet _ => exact keepO_next (keep_serve (keep_qciGateSetCmd (hc rfl)) h)
  | qciCountersRead _ => exact keepO_next (keep_serve keep_qciCountersReadCmd h)
  | qciCountersClear _ => exact keepO_next (keep_serve keep_qciCountersClearCmd h)
  | frerSeqgenSet _ => exact keepO_next (keep_serve keep_frerSeqgenSetCmd h)
  | frerRecoverySet _ => exact keepO_next (keep_serve (keep_frerRecoverySetCmd (hc rfl)) h)
  | frerCountersRead _ => exact keepO_next (keep_serve keep_frerCountersReadCmd h)
  | frerCountersClear _ => exact keepO_next (keep_serve keep_frerCountersClearCmd h)
  | gclLoad _ => exact keepO_next (keep_serve (keep_gclLoadCmd (hc rfl)) h)
  | gclSet _ => exact keepO_next (keep_serve (keep_gclSetCmd (hc rfl)) h)
  | gclStatus _ => exact keepO_next (keep_serve keep_gclStatusCmd h)
  | gclRead _ => exact keepO_next (keep_serve keep_gclReadCmd h)
  | preemptConfig _ => exact keepO_next (keep_serve (keep_preemptConfigCmd (hc rfl)) h)
  | preemptStatus _ => exact keepO_next (keep_serve keep_preemptStatusCmd h)
  | preemptCountersRead _ => exact keepO_next (keep_serve keep_preemptCountersReadCmd h)
  | preemptCountersClear _ => exact keepO_next (keep_serve keep_preemptCountersClearCmd h)
  | ingressCountersRead _ => exact keepO_next (keep_serve keep_ingressCountersReadCmd h)
  | ingressCountersClear _ => exact keepO_next (keep_serve keep_ingressCountersClearCmd h)
  | timeRead _ => exact keepO_next (keep_serve keep_timeReadCmd h)
  | timeAdjust _ => exact keepO_next (keep_serve keep_timeAdjustCmd h)
  | gptpConfig _ => exact keepO_next (keep_serve (keep_gptpConfigCmd (hc rfl)) h)
  | gptpPortConfig _ => exact keepO_next (keep_serve (keep_gptpPortConfigCmd (hc rfl)) h)
  | gptpStatus _ => exact keepO_next (keep_serve keep_gptpStatusCmd h)
  | gptpCountersRead _ => exact keepO_next (keep_serve keep_gptpCountersReadCmd h)
  | ppsConfig _ => exact keepO_next (keep_serve (keep_ppsConfigCmd (hc rfl)) h)
  | ppsInRead _ => exact keepO_next (keep_serve keep_ppsInReadCmd h)
  | ttSourceBind _ => exact keepO_next (keep_serve (keep_ttSourceBindCmd (hc rfl)) h)
  | ttLayoutSet _ => exact keepO_next (keep_serve (keep_ttLayoutSetCmd (hc rfl)) h)
  | ttLayoutDelete _ => exact keepO_next (keep_serve (keep_ttLayoutDeleteCmd (hc rfl)) h)
  | ttSignalDefine _ => exact keepO_next (keep_serve (keep_ttSignalDefineCmd (hc rfl)) h)
  | ttComposeSet _ => exact keepO_next (keep_serve (keep_ttComposeSetCmd (hc rfl)) h)
  | ttComposeTemplate _ => exact keepO_next (keep_serve (keep_ttComposeTemplateCmd (hc rfl)) h)
  | ttDigestRouteSet _ => exact keepO_next (keep_serve (keep_ttDigestRouteSetCmd (hc rfl)) h)
  | ttSignalRead _ => exact keepO_next (keep_serve keep_ttSignalReadCmd h)
  | ttSignalWrite _ => exact keepO_next (keep_serve keep_ttSignalWriteCmd h)
  | ttLayoutStatus _ => exact keepO_next (keep_serve keep_ttLayoutStatusCmd h)
  | ttStatus _ => exact keepO_next (keep_serve keep_ttStatusCmd h)
  | ttComposeSend _ => exact keepO_next (keep_serve keep_ttComposeSendCmd h)
  | ttCountersRead _ => exact keepO_next (keep_serve keep_ttCountersReadCmd h)
  | ttCountersClear _ => exact keepO_next (keep_serve keep_ttCountersClearCmd h)
  | clockStatus _ => exact keepO_next (keep_serve keep_clockStatusCmd h)
  | dvfsConfig _ => exact keepO_next (keep_serve (keep_dvfsConfigCmd (hc rfl)) h)
  | avsConfig _ => exact keepO_next (keep_serve (keep_avsConfigCmd (hc rfl)) h)
  | islandGate _ => exact keepO_next (keep_serve keep_islandGateCmd h)
  | clockFlagsClear _ => exact keepO_next (keep_serve keep_clockFlagsClearCmd h)
  | clockCountersRead _ => exact keepO_next (keep_serve keep_clockCountersReadCmd h)
  | clockCountersClear _ => exact keepO_next (keep_serve keep_clockCountersClearCmd h)
  | resetBlock _ => exact keepO_next (keep_serve keep_resetBlockCmd h)
  | resetDomain _ => exact keepO_next (keep_serve keep_resetDomainCmd h)
  | resetStatus _ => exact keepO_next (keep_serve keep_resetStatusCmd h)
  | bootStatus _ => exact keepO_next (keep_serve keep_bootStatusCmd h)
  | watchdogConfig _ => exact keepO_next (keep_serve (keep_watchdogConfigCmd (hc rfl)) h)
  | firmwareSelect _ => exact keepO_next (keep_serve keep_firmwareSelectCmd h)
  | bootProfileApply _ => exact keepO_next (keep_serve keep_bootProfileApplyCmd h)
  | resetCountersRead _ => exact keepO_next (keep_serve keep_resetCountersReadCmd h)
  | resetCountersClear _ => exact keepO_next (keep_serve keep_resetCountersClearCmd h)
  | calConfig _ => exact keepO_next (keep_serve (keep_calConfigCmd (hc rfl)) h)
  | calRun _ => exact keepO_next (keep_serve keep_calRunCmd h)
  | calStatus _ => exact keepO_next (keep_serve keep_calStatusCmd h)
  | calStore _ => exact keepO_next (keep_serve (keep_calStoreCmd (hm rfl)) h)
  | calCountersRead _ => exact keepO_next (keep_serve keep_calCountersReadCmd h)
  | calCountersClear _ => exact keepO_next (keep_serve keep_calCountersClearCmd h)
  | nvmSlotStatus _ => exact keepO_next (keep_serve keep_nvmSlotStatusCmd h)
  | nvmRead _ => exact keepO_next (keep_serve keep_nvmReadCmd h)
  | nvmWriteBegin _ _ => exact keepO_next (keep_serve (keep_nvmWriteBeginCmd (hm rfl)) h)
  | nvmWrite _ _ => exact keepO_next (keep_serve (keep_nvmWriteCmd (hm rfl)) h)
  | nvmWriteEnd _ => exact keepO_next (keep_serve keep_nvmWriteEndCmd h)
  | nvmInvalidate _ => exact keepO_next (keep_serve (keep_nvmInvalidateCmd (hm rfl)) h)
  | nvmCountersRead _ => exact keepO_next (keep_serve keep_nvmCountersReadCmd h)
  | nvmCountersClear _ => exact keepO_next (keep_serve keep_nvmCountersClearCmd h)
  | selftestRun _ _ => exact keepO_next (keep_serve keep_selftestRunCmd h)
  | selftestStatus _ => exact keepO_next (keep_serve keep_selftestStatusCmd h)
  | selftestAbort _ => exact keepO_next (keep_serve keep_selftestAbortCmd h)
  | selftestResultRead _ => exact keepO_next (keep_serve keep_selftestResultReadCmd h)
  | repairStatus _ => exact keepO_next (keep_serve keep_repairStatusCmd h)
  | repairFuse _ _ => exact keepO_next (keep_serve keep_repairFuseCmd h)
  | portLoopback _ => exact keepO_next (keep_serve keep_portLoopbackCmd h)
  | portTestMode _ => exact keepO_next (keep_serve keep_portTestModeCmd h)
  | portTestCountersRead _ => exact keepO_next (keep_serve keep_portTestCountersReadCmd h)
  | portTestCountersClear _ => exact keepO_next (keep_serve keep_portTestCountersClearCmd h)
  | coldResetAssert _ => exact keep_execColdResetAssert (hc rfl) (hs rfl) h
  | coldStart _ => exact keep_execColdStart h
  | pinResetAssert => exact keep_execPinResetAssert (hc rfl) (hs rfl) h
  | pinStart _ => exact keep_execPinStart h
  | warmStart => exact keep_execWarmStart h
  | fuseLoadDone => exact keep_execFuseLoadDone h
  | firmwareSignatureDone _ _ _ => exact keep_execFirmwareSignatureDone h
  | memoryBistDone _ _ _ _ => exact keep_execMemoryBistDone h
  | calibrationRestoreDone _ _ => exact keep_execCalibrationRestoreDone h
  | foregroundCalDone _ _ => exact keep_execForegroundCalDone (hm rfl) h
  | headlandReady => exact keep_execHeadlandReady (hm rfl) (hf rfl) (hc rfl) (hs rfl) h
  | headlandResetRelease => exact keep_execHeadlandResetRelease h
  | watchdogExpiry => exact keep_execWatchdogExpiry h
  | startupTimerExpiry => exact keep_execStartupTimerExpiry h
  | drainComplete _ => exact keep_execDrainComplete h
  | drainTimeout _ => exact keep_execDrainTimeout h
  | resetStartupDone _ => exact keep_execResetStartupDone h
  | agentSequenceComplete _ => exact keep_execAgentSequenceComplete (hm rfl) (hf rfl) h
  | epochIdleTimeout => exact keep_execEpochIdleTimeout h
  | commitPrepareDone => exact keep_execCommitPrepareDone (hm rfl) (hf rfl) (hc rfl) (hs rfl) h
  | commitBoundaryApply _ => exact keep_execCommitBoundaryApply (hm rfl) (hf rfl) (hc rfl) (hs rfl) h
  | commitTimeout _ => exact keep_execCommitTimeout (hm rfl) (hf rfl) (hc rfl) (hs rfl) h
  | portStartupBegin _ => exact keep_execPortStartupBegin h
  | breakIntervalExpiry _ => exact keep_execBreakIntervalExpiry h
  | startupRetry _ => exact keep_execStartupRetry h
  | linkUp _ _ => exact keep_execLinkUp h
  | lossOfSignal _ => exact keep_execLossOfSignal h
  | frameRx _ _ => exact keep_execFrameRx (hm rfl) (hf rfl) (hc rfl) (hs rfl) h
  | frameDequeue e started x => exact (keep_execFrameDequeue h : KeepO H (execFrameDequeue e started x s))
  | frameTxComplete _ _ _ _ => exact keep_execFrameTxComplete h
  | egressFlushTimeout _ => exact keep_execEgressFlushTimeout h
  | linkEgressFlush _ => exact keep_execLinkEgressFlush h
  | vs50FrameRx p hdr region margin => exact (keep_execVs50FrameRx h : KeepO H (execVs50FrameRx p hdr region margin s))
  | partnerRfTimeout _ => exact keep_execPartnerRfTimeout h
  | oamWordRx _ => exact keep_execOamWordRx h
  | oamStatusSend _ => exact keep_execOamStatusSend h
  | txAdjustRequest _ => exact keep_execTxAdjustRequest h
  | lpiAssert _ => exact keep_execLpiAssert h
  | lpiSleepEntry _ => exact keep_execLpiSleepEntry h
  | lpiSleepEnd _ => exact keep_execLpiSleepEnd h
  | lpiQuietEnd _ => exact keep_execLpiQuietEnd h
  | lpiRefreshEnd _ => exact keep_execLpiRefreshEnd h
  | lpiWakeStart _ => exact keep_execLpiWakeStart h
  | lpiWakeEnd _ => exact keep_execLpiWakeEnd h
  | refreshMissed _ => exact keep_execRefreshMissed h
  | gaugeWindowEnd _ _ => exact keep_execGaugeWindowEnd h
  | anchorReversion _ => exact keep_execAnchorReversion (hm rfl) (hf rfl) (hc rfl) (hs rfl) h
  | ctleStep _ => exact keep_execCtleStep h
  | scoutCycleEnd _ _ _ _ _ => exact keep_execScoutCycleEnd h
  | echoWindowTakeover _ => exact keep_execEchoWindowTakeover h
  | aggressorReplace _ => exact keep_execAggressorReplace h
  | nextSeedEnd _ _ => exact keep_execNextSeedEnd h
  | bundleGroupApply _ => exact keep_execBundleGroupApply h
  | negotiationComplete _ _ => exact keep_execNegotiationComplete h
  | halfDuplexPhaseEnd _ _ _ => exact keep_execHalfDuplexPhaseEnd h
  | trainingPhaseChange _ => exact keep_execTrainingPhaseChange h
  | trainingPhaseTimeout _ => exact keep_execTrainingPhaseTimeout h
  | noAnswerTimeout _ => exact keep_execNoAnswerTimeout h
  | partnerLostTimeout _ => exact keep_execPartnerLostTimeout h
  | coeffRequestSend _ _ => exact keep_execCoeffRequestSend h
  | coeffRequestTimeout _ => exact keep_execCoeffRequestTimeout h
  | relinkTimeout _ => exact keep_execRelinkTimeout h
  | preambleDetect _ _ _ => exact keep_execPreambleDetect h
  | ssdDetect _ _ _ => exact keep_execSsdDetect h
  | ssdSearchTimeout _ => exact keep_execSsdSearchTimeout h
  | rxRearm _ _ => exact keep_execRxRearm h
  | rxOverlap _ _ => exact keep_execRxOverlap h
  | beaconRx _ => exact keep_execBeaconRx h
  | plcaListenTimeout _ => exact keep_execPlcaListenTimeout h
  | beaconLossTimeout _ => exact keep_execBeaconLossTimeout h
  | plcaCycleStart _ => exact keep_execPlcaCycleStart h
  | txOpportunity _ => exact keep_execTxOpportunity h
  | txCollision _ _ => exact keep_execTxCollision h
  | marginIntervalEnd _ _ _ => exact keep_execMarginIntervalEnd h
  | fecWindowEnd _ => exact keep_execFecWindowEnd h
  | healthDrop _ _ => exact keep_execHealthDrop h
  | soundingPeriodicStart _ => exact keep_execSoundingPeriodicStart h
  | soundingDone _ => exact keep_execSoundingDone h
  | soundingRunTimeout _ => exact keep_execSoundingRunTimeout h
  | cableTestStimulusStart _ _ => exact keep_execCableTestStimulusStart h
  | cableTestStimulusEnd _ => exact keep_execCableTestStimulusEnd h
  | cableTestDone _ _ => exact keep_execCableTestDone h
  | slackRequestRx _ _ => exact keep_execSlackRequestRx h
  | slackAcceptRx _ _ => exact keep_execSlackAcceptRx h
  | slackRefuseRx _ _ => exact keep_execSlackRefuseRx h
  | slackRequestResend _ => exact keep_execSlackRequestResend h
  | slackAcceptSilence _ => exact keep_execSlackAcceptSilence h
  | lineWake _ _ => exact keep_execLineWake h
  | lineWakeQuiet _ _ => exact keep_execLineWakeQuiet h
  | wakeBurstEnd _ => exact keep_execWakeBurstEnd h
  | wakeNAssert _ => exact keep_execWakeNAssert h
  | wakeNPulseEnd => exact keep_execWakeNPulseEnd h
  | parkedHandshakeEnd => exact keep_execParkedHandshakeEnd h
  | devicePowerTimeout => exact keep_execDevicePowerTimeout h
  | laneTrainingComplete _ _ _ _ => exact keep_execLaneTrainingComplete h
  | laneTrainingTimeout _ => exact keep_execLaneTrainingTimeout h
  | fomIntervalEnd _ _ => exact keep_execFomIntervalEnd h
  | hostCtleStep _ => exact keep_execHostCtleStep h
  | hostCtleHoldEnd _ => exact keep_execHostCtleHoldEnd h
  | hostLinkUp _ _ _ => exact keep_execHostLinkUp h
  | hostLinkDown _ _ _ _ => exact keep_execHostLinkDown h
  | ebbAutoEntry _ => exact keep_execEbbAutoEntry h
  | ebbSignalDetect _ => exact keep_execEbbSignalDetect h
  | ebbRetrainTimeout _ => exact keep_execEbbRetrainTimeout h
  | eyeScanPointEnd _ _ => exact keep_execEyeScanPointEnd h
  | eyeScanDone _ => exact keep_execEyeScanDone h
  | scrubRead _ _ _ _ _ _ => exact keep_execScrubRead h
  | loadWindowEnd => exact keep_execLoadWindowEnd h
  | gateChange _ => exact keep_execGateChange h
  | gclConfigChange _ => exact keep_execGclConfigChange (hc rfl) h
  | streamGateChange _ _ => exact keep_execStreamGateChange h
  | frerResetTimeout _ => exact keep_execFrerResetTimeout h
  | frerLatentTest _ => exact keep_execFrerLatentTest h
  | preemptVerifyDone _ _ => exact keep_execPreemptVerifyDone h
  | gptpMessageRx _ _ _ => exact keep_execGptpMessageRx h
  | gptpSyncTx _ _ => exact keep_execGptpSyncTx h
  | gptpPdelayTx _ _ => exact keep_execGptpPdelayTx h
  | ppsOutPulse _ => exact keep_execPpsOutPulse h
  | ppsInEdge => exact keep_execPpsInEdge h
  | ttCopyProcess _ _ _ _ => exact keep_execTtCopyProcess h
  | ttSignalStale _ => exact keep_execTtSignalStale h
  | ttDigestFlush _ => exact keep_execTtDigestFlush h
  | ttComposePeriodic _ => exact keep_execTtComposePeriodic h
  | ttComposeHoldEnd _ => exact keep_execTtComposeHoldEnd h
  | integrityWindowEnd => exact keep_execIntegrityWindowEnd h
  | faultRecordCopy _ => exact keep_execFaultRecordCopy (hm rfl) h
  | thermalLimit _ _ => exact keep_execThermalLimit h
  | railLimit _ _ => exact keep_execRailLimit h
  | railUndervoltage _ _ => exact keep_execRailUndervoltage h
  | keeperParity _ => exact keep_execKeeperParity h
  | lrefStable _ => exact keep_execLrefStable h
  | lrefStartTimeout => exact keep_execLrefStartTimeout h
  | hrefPresent => exact keep_execHrefPresent h
  | clockFail _ _ => exact keep_execClockFail h
  | clockReturn _ => exact keep_execClockReturn h
  | pllLock _ => exact keep_execPllLock h
  | clockForcedSwitch _ => exact keep_execClockForcedSwitch h
  | keeperFreqFault _ => exact keep_execKeeperFreqFault h
  | islandGateEffect _ => exact keep_execIslandGateEffect h
  | bridgesOpen _ => exact keep_execBridgesOpen h
  | pmbusWriteDone _ _ => exact keep_execPmbusWriteDone h
  | dvfsSettled _ => exact keep_execDvfsSettled h
  | dvfsSettleTimeout _ => exact keep_execDvfsSettleTimeout h
  | undertowRunStart _ => exact keep_execUndertowRunStart h
  | undertowTempTrigger _ _ => exact keep_execUndertowTempTrigger h
  | undertowMeasureDone _ _ => exact keep_execUndertowMeasureDone h
  | quietOpportunityMeasure _ _ _ _ => exact keep_execQuietOpportunityMeasure h
  | undertowStep _ => exact keep_execUndertowStep (hm rfl) (hf rfl) (hc rfl) (hs rfl) h
  | nvmSessionIdleTimeout => exact keep_execNvmSessionIdleTimeout h
  | nvmWriteEndDone _ => exact keep_execNvmWriteEndDone (hm rfl) h
  | calStoreDone _ => exact keep_execCalStoreDone (hm rfl) h
  | repairLogWriteDone _ => exact keep_execRepairLogWriteDone (hm rfl) h
  | selftestPreconditionCheck _ _ => exact keep_execSelftestPreconditionCheck h
  | selftestStepDone _ _ => exact keep_execSelftestStepDone h
  | managementLaneLinkChange _ => exact keep_execManagementLaneLinkChange h
  | powerOnRelease => exact keep_execPowerOnRelease h
  | pcsLockLost _ => exact keep_execPcsLockLost h
  | vs50FrameTx _ _ => exact keep_execVs50FrameTx h
  | csmaBackoffExpiry _ => exact keep_execCsmaBackoffExpiry h

/-- Every command goes on: its arm of `exec` is a next state. -/
theorem exec_goes (c : Instr) (s : State) : Goes (exec c s) := by
  cases c <;> exact ⟨_, rfl⟩

/-! ### The invariant and the queue of commands -/

/-- Nothing is asked of the MRAM, the fuses, the configuration or the override. -/
theorem ok_iff_keep (s : State) : s.Ok ↔ Keep { queue := s.pending } s := by
  rw [keep_iff]
  exact ⟨fun h => ⟨rfl, h, trivial, trivial, trivial, trivial⟩, fun h => h.2.1⟩

/-- On an empty queue of commands a step idles. -/
theorem step_idle {s : State} (h : s.pending = []) : step s = .next (idle s) := by rw [step, h]

/-- An idle step keeps the invariant. -/
theorem idle_ok {s : State} (h : s.Ok) : (idle s).Ok :=
  (keep_iff.mp (keep_idle (fun _ _ _ => id) (fun _ _ => id) (fun _ _ => id) (fun _ _ => id) ((ok_iff_keep s).mp h))).2.1

/-- The invariant does not speak of the queue of commands. -/
theorem ok_pending {s : State} (h : s.Ok) (q : List Instr) : ({ s with pending := q } : State).Ok := h

/-- A command keeps the invariant and the queue of commands. -/
theorem exec_keeps {c : Instr} {s t : State} (h : s.Ok) (e : exec c s = .next t) : t.pending = s.pending ∧ t.Ok := by
  have kept : Keep { queue := s.pending } t := keep_exec c (fun _ _ _ _ => id) (fun _ _ _ => id) (fun _ _ _ => id)
    (fun _ _ _ => id) ((ok_iff_keep s).mp h) t e
  obtain ⟨queue, ok, _⟩ := keep_iff.mp kept
  exact ⟨queue, ok⟩

/-- Settles O5: the idle step and every command keep the invariant. -/
theorem stepKeepsOk : Obligations.StepKeepsOk := by
  intro s t h e
  cases hq : s.pending with
  | nil =>
    rw [← Host.Outcome.next.inj ((step_idle hq).symm.trans e)]
    exact idle_ok h
  | cons c rest =>
    have runs : step s = exec c { s with pending := rest } := by rw [step, hq]
    exact (exec_keeps (ok_pending h rest) (runs.symm.trans e)).2

/-- Settles O6: every arm is a next state, and what it keeps includes the queue. -/
theorem execLeavesQueue : Obligations.ExecLeavesQueue := by
  intro c s h
  obtain ⟨t, e⟩ := exec_goes c s
  exact ⟨t, e, (exec_keeps h e).1⟩

/-! ### Who writes what (R76, R555, R595) -/

/-- What is asked for a frame: each part that `c` is no writer of stays as it is in `s`. -/
def frameOf (c : Instr) (s : State) : Hold where
  queue := s.pending
  mram m := writesMram c = false → m = s.nvm.mem
  fuses f := writesFuses c = false → f = s.fuses
  cfg g := writesCfg c = false → g = s.cfg
  safe b := writesOverride c = false → b = s.ctl.safeState

/-- A writer may change its part, and every other command leaves it. -/
theorem exec_keeps_frame {c : Instr} {s t : State} (h : s.Ok) (e : exec c s = .next t) : Keep (frameOf c s) t := by
  refine keep_exec c ?_ ?_ ?_ ?_ (keep_iff.mpr ⟨rfl, h, fun _ => rfl, fun _ => rfl, fun _ => rfl, fun _ => rfl⟩) t e
  · exact fun hw _ _ _ _ hn => by simp [hw] at hn
  · exact fun hw _ _ _ hn => by simp [hw] at hn
  · exact fun hw _ _ _ hn => by simp [hw] at hn
  · exact fun hw _ _ _ hn => by simp [hw] at hn

/-- Settles O7: the MRAM as a whole stays, and so each of its bytes. -/
theorem mramFrame : Obligations.MramFrame := by
  intro c s t h hw e a
  obtain ⟨_, _, mram, _⟩ := keep_iff.mp (exec_keeps_frame h e)
  rw [mram hw]

/-- Settles O8: one frame for the three parts. -/
theorem writerFrames : Obligations.WriterFrames := by
  intro c s t h e
  obtain ⟨_, _, _, fuses, cfg, safe⟩ := keep_iff.mp (exec_keeps_frame h e)
  exact ⟨fuses, cfg, safe⟩

/-! ### The step and reset -/

/-- Settles O1: `step` takes the front of a queue that is not empty. -/
theorem stepRunsFront : Obligations.StepRunsFront := by
  intro c rest s
  rfl

/-- Headland takes nothing where no packet waits or it does not serve. -/
theorem takeNext_of_rest {s : State} (h : s.ctl.cmdQueue = [] ∨ serving s = false) : takeNext s = s := by
  rcases h with hq | hs
  · simp only [takeNext, hq]
  · unfold takeNext
    split
    · rfl
    · simp only [hs, Bool.false_eq_true, if_false]

/-- Headland, while it serves, takes the oldest packet. -/
theorem takeNext_of_serving {s : State} {q : QueuedCmd} {rest : List QueuedCmd} (hq : s.ctl.cmdQueue = q :: rest)
    (hs : serving s = true) : takeNext s = takePacket q.op q.req { s with ctl := { s.ctl with cmdQueue := rest } } := by
  simp only [takeNext, hq, hs, if_true]

/-- A sweep that leaves the state at each of its numbers leaves it. -/
theorem eachN_fixed {s : State} {f : State → Nat → State} {l : List Nat} (h : ∀ p ∈ l, f s p = s) : eachN s l f = s := by
  induction l with
  | nil => rfl
  | cons p l ih =>
    rw [eachN, List.foldl_cons, h p (List.mem_cons_self ..)]
    exact ih fun q hq => h q (List.mem_cons_of_mem p hq)

/-- A port that is not in low-power idle, or has no reason to send, does not wake. -/
theorem lpiSettle_fixed {s : State} {p : Nat} (h : (s.port p).power.macLpi = true → txWanted s p = false) :
    lpiSettle s p = s := if_neg fun ⟨hl, hw⟩ => by simp [h hl] at hw

/-- One ticker unit has passed, and the device has ended with the request window. -/
def ticked (s : State) : State := { s with now := s.now + 1, ctl := { s.ctl with reqBusy := false } }

/-- An idle step is what Headland takes, one ticker unit, and the sweep over the ports. -/
theorem idle_eq (s : State) : idle s = eachN (ticked (takeNext s)) (List.range 128) lpiSettle := rfl

/-- Headland takes nothing in the step. -/
theorem step_of_rest {s : State} (hp : s.pending = []) (h : s.ctl.cmdQueue = [] ∨ serving s = false) :
    step s = .next (eachN (ticked s) (List.range 128) lpiSettle) := by
  rw [step_idle hp, idle_eq, takeNext_of_rest h]

/-- Settles O2: the idle step by what Headland takes, and its sweep over ports that need not wake. -/
theorem idleTicks : Obligations.IdleTicks := by
  intro s hp
  refine ⟨step_of_rest hp, fun q rest hq hs => ?_, fun hq hw => ?_⟩
  · rw [step_idle hp, idle_eq, takeNext_of_serving hq hs]
    rfl
  · rw [step_of_rest hp (.inl hq), eachN_fixed fun p hm => lpiSettle_fixed (hw p (List.mem_range.mp hm))]
    rfl

/-- Settles O3: the fields of the reset state, each by its default. -/
theorem resetHolds : Obligations.ResetHolds := by
  refine ⟨rfl, rfl, rfl, rfl, rfl, rfl, rfl, rfl, fun _ => rfl, rfl, rfl, fun _ _ _ => rfl, rfl, fun _ => rfl⟩

/-- Settles O4: every queue is empty and every table blank. -/
theorem resetOk : Obligations.ResetOk := by
  refine ⟨?_, ⟨?_, ?_⟩, ?_, ⟨.nil, ?_⟩, ⟨.nil, ?_⟩, ⟨⟨.nil, ?_⟩, ?_⟩, ?_, ?_⟩ <;> simp [State.reset]

end Sys2Proof.Machine
end

section
/-! PROOFS about packets and their replies (R40, R43, R46, R47, R50, R74): what a reply changes, what a refused packet changes, and the
order of the checks. -/

namespace Sys2Proof.Machine

/-! ### What a packet that leaves changes (R40, R43) -/

/-- An entry that is set to another value than the table's default reads back, whatever the table's form. -/
theorem Tab.get_upd_of_ne_default {α : Type} [DecidableEq α] {d : α} {t : Tab α} {k : Nat} {f : α → α}
    (h : f (Tab.get d t k) ≠ d) : Tab.get d (t.upd d k f) k = f (Tab.get d t k) := by
  unfold Tab.upd Tab.set
  rw [if_neg h]
  exact Tab.get_put_self

theorem State.egr_updEgr_ne {s : State} {e k : Nat} {f : Egress → Egress} (h : e ≠ k) : (s.updEgr k f).egr e = s.egr e :=
  Tab.get_upd_ne (d := ({} : Egress)) h

theorem State.egr_updEgr_of_ne_default {s : State} {k : Nat} {f : Egress → Egress} (h : f (s.egr k) ≠ {}) :
    (s.updEgr k f).egr k = f (s.egr k) :=
  Tab.get_upd_of_ne_default (d := ({} : Egress)) h

/-- `t` with the fields of `s` that a packet on its way out touches: the reply queue, what has been sent, the egress positions and the
counters. -/
def restoreSent (s t : State) : State :=
  { t with
    ctl := { t.ctl with spiQueue := s.ctl.spiQueue, sent := s.ctl.sent }
    fabric := { t.fabric with egress := s.fabric.egress }
    counters := s.counters }

/-- At every egress position the replies that wait there are all that differs. -/
def RepliesOnly (s t : State) : Prop := ∀ e, { t.egr e with replies := (s.egr e).replies } = s.egr e

theorem RepliesOnly.of_fabric {s t : State} (h : t.fabric = s.fabric) : RepliesOnly s t := fun e => by
  unfold State.egr
  rw [h]

theorem RepliesOnly.trans {s t u : State} (h : RepliesOnly s t) (h' : RepliesOnly t u) : RepliesOnly s u := fun e =>
  calc { u.egr e with replies := (s.egr e).replies }
      = { { u.egr e with replies := (t.egr e).replies } with replies := (s.egr e).replies } := rfl
    _ = { t.egr e with replies := (s.egr e).replies } := by rw [h' e]
    _ = s.egr e := h e

/-- From `s` to `t` no more than a packet on its way out has changed. -/
structure Sends (s t : State) : Prop where
  rest : restoreSent s t = s
  egress : RepliesOnly s t

theorem Sends.refl (s : State) : Sends s s := ⟨rfl, .of_fabric rfl⟩

theorem Sends.trans {s t u : State} (h : Sends s t) (h' : Sends t u) : Sends s u where
  rest := calc restoreSent s u = restoreSent s (restoreSent t u) := rfl
    _ = restoreSent s t := by rw [h'.rest]
    _ = s := h.rest
  egress := h.egress.trans h'.egress

theorem sends_bumpBy (s : State) (op blk idx n : Nat) : Sends s (s.bumpBy op blk idx n) := ⟨rfl, .of_fabric rfl⟩

theorem sends_bump (s : State) (op blk idx : Nat) : Sends s (s.bump op blk idx) := sends_bumpBy s op blk idx 1

theorem sends_spiQueue (s : State) (q : List Packet) : Sends s { s with ctl := { s.ctl with spiQueue := q } } :=
  ⟨rfl, .of_fabric rfl⟩

theorem sends_emitPacket (s : State) (p : Packet) : Sends s (emitPacket s p) := ⟨rfl, .of_fabric rfl⟩

/-- A packet that waits for the end of a data frame is the last of its position's replies. -/
theorem sends_linkPacket (s : State) (k : Nat) (p : Packet) : Sends s (linkPacket s k p) := by
  unfold linkPacket
  split
  · exact sends_emitPacket s p
  · refine ⟨rfl, fun e => ?_⟩
    by_cases he : e = 128 + k
    · subst he
      rw [State.egr_updEgr_of_ne_default fun h => by simpa using congrArg Egress.replies h]
    · rw [State.egr_updEgr_ne he]

theorem sends_sendPacket (s : State) (p : Packet) : Sends s (sendPacket s p) := by
  unfold sendPacket
  split
  · split
    · exact sends_spiQueue s _
    · exact (sends_spiQueue s _).trans (sends_bump _ _ _ _)
  · split
    · exact sends_emitPacket s p
    · split
      · exact sends_linkPacket s _ p
      · exact sends_bump s _ _ _

theorem sends_reply (s : State) (op : Nat) (r : Req) (st : Status) (d : List Byte) : Sends s (reply s op r st d) := by
  have counted : Sends s (if st = .busy then s.bump 0x0003 (sn r) 3 else s) := by
    split
    · exact sends_bump s _ _ _
    · exact .refl s
  unfold reply
  dsimp only
  split
  · exact counted.trans (sends_sendPacket _ _)
  · exact counted

/-! ### What a command finds after its reply -/

/-- `t` with the fields of `s` that a packet of an executed command and its reply touch: those of `restoreSent`, and the sources' last
accepted sequences. -/
def restoreHeard (s t : State) : State :=
  restoreSent s { t with ctl := { t.ctl with lastSeq := s.ctl.lastSeq } }

theorem restoreHeard_heard (r : Req) (s : State) : restoreHeard s (heard r s) = s := by
  unfold heard acceptSeq
  split <;> rfl

theorem heard_fabric (r : Req) (s : State) : (heard r s).fabric = s.fabric := by
  unfold heard acceptSeq
  split <;> rfl

/-- The packet and its reply change no more than `restoreHeard` restores. -/
theorem restoreHeard_replied (c : Cmd) (r : Req) (s : State) (st : Status) (d : List Byte) :
    restoreHeard s (replied c r s st d) = s :=
  calc restoreHeard s (replied c r s st d)
      = restoreHeard s (restoreSent (heard r s) (replied c r s st d)) := rfl
    _ = restoreHeard s (heard r s) := by rw [replied, (sends_reply _ _ _ _ _).rest]
    _ = s := restoreHeard_heard r s

/-- Settles O9: what a reply sends, after the sequence that the packet moves. -/
theorem replyFrame : Obligations.ReplyFrame := fun c r s st d =>
  ⟨restoreHeard_replied c r s st d, (RepliesOnly.of_fabric (heard_fabric r s)).trans (sends_reply _ _ _ _ _).egress⟩

/-! ### A packet that is refused (R46, R47, R50) -/

/-- `t` with the fields of `s` that a refused packet touches where Headland's command queue does not take it. -/
def restoreRefused (s t : State) : State :=
  restoreSent s { t with
    freeCtr := s.freeCtr
    ctl := { t.ctl with events := s.ctl.events, nextEvent := s.ctl.nextEvent, lost := s.ctl.lost } }

/-- From `s` to `t` no more than a refused packet has changed. -/
structure Refuses (s t : State) : Prop where
  rest : restoreRefused s t = s
  egress : RepliesOnly s t

theorem Sends.refuses {s t : State} (h : Sends s t) : Refuses s t where
  rest := calc restoreRefused s t = restoreRefused s (restoreSent s t) := rfl
    _ = s := by rw [h.rest]; rfl
  egress := h.egress

theorem Refuses.trans {s t u : State} (h : Refuses s t) (h' : Refuses t u) : Refuses s u where
  rest := calc restoreRefused s u = restoreRefused s (restoreRefused t u) := rfl
    _ = restoreRefused s t := by rw [h'.rest]
    _ = s := h.rest
  egress := h.egress.trans h'.egress

theorem refuses_draw (s : State) : Refuses s s.draw := ⟨rfl, .of_fabric rfl⟩

theorem refuses_raise (s : State) (code sev src : Nat) (d : List Byte) : Refuses s (raise s code sev src d) := by
  unfold raise raiseFor
  split
  · exact ⟨rfl, .of_fabric rfl⟩
  · exact ⟨rfl, .of_fabric rfl⟩

theorem refuses_refuse (s : State) (op : Nat) (r : Req) (st : Status) (d : List Byte) :
    Refuses s (refuse s op r st d) := by
  unfold refuse
  split
  · exact (((sends_bump s _ _ _).refuses.trans (refuses_raise _ _ _ _ _)).trans (refuses_draw _)).trans
      (sends_reply _ _ _ _ _).refuses
  · have drawn : Refuses s (if st = .busySelftest then s.draw else s) := by
      split
      · exact refuses_draw s
      · exact (Sends.refl s).refuses
    exact drawn.trans (sends_reply _ _ _ _ _).refuses

/-- What the checks refuse is discarded or answered. -/
theorem refuses_act {c : Cmd} {r : Req} {s : State} (hr : judge s c r ≠ .run) (hs : judge s c r ≠ .stage) :
    Refuses s (act s c r) := by
  unfold act
  split
  · exact (Sends.refl s).refuses
  · exact refuses_refuse s _ r _ _
  · exact absurd ‹_› hs
  · exact absurd ‹_› hr

theorem sends_frontBusy (s : State) (op : Nat) (r : Req) : Sends s (frontBusy s op r) := by
  unfold frontBusy
  split
  · exact .refl s
  · exact sends_reply s op r _ _

/-- The same, and Headland's command queue. -/
def restoreQueued (s t : State) : State :=
  restoreRefused s { t with ctl := { t.ctl with cmdQueue := s.ctl.cmdQueue } }

theorem Refuses.queued {s t : State} (h : Refuses s t) : restoreQueued s t = s :=
  calc restoreQueued s t = restoreQueued s (restoreRefused s t) := rfl
    _ = s := by rw [h.rest]; rfl

/-- Outside Headland's queue a packet that the checks refuse is refused at once. -/
theorem refuses_serve {c : Cmd} {r : Req} {s : State} (hr : judge (received r s) c r ≠ .run)
    (hs : judge (received r s) c r ≠ .stage) (hq : c.bw = true ∨ serving s = false ∨ s.ctl.cmdQueue = []) :
    Refuses s (serve c r s) := by
  have counted : Refuses s (received r s) := (sends_bump s _ _ _).refuses
  have acts : Refuses s (act (received r s) c r) := counted.trans (refuses_act hr hs)
  unfold serve
  split
  · exact (Sends.refl s).refuses
  · dsimp only
    split
    · exact acts
    · split
      · exact counted.trans (sends_frontBusy _ _ r).refuses
      · have empty : s.ctl.cmdQueue = [] := by simp_all
        rw [empty, List.isEmpty_nil, if_pos rfl]
        exact acts

/-- While Headland serves and packets wait before it, a packet of Headland's is answered BUSY or joins the queue. -/
theorem serve_of_waiting {c : Cmd} {r : Req} {s : State} (hf : s.ctl.feReady = true) (ho : sourceOpen s false (sn r) = true)
    (hb : c.bw = false) (hs : serving s = true) (hq : s.ctl.cmdQueue ≠ []) :
    serve c r s = queueIn (received r s) c.op r 0 0 := by
  simp [serve, hf, ho, hb, hs, hq, received]

/-- Until `FE_READY`, or from a source that Flaes does not take, a packet leaves no trace. -/
theorem serve_of_closed {c : Cmd} {r : Req} {s : State} (h : s.ctl.feReady = false ∨ sourceOpen s c.bw (sn r) = false) :
    serve c r s = s := by
  rcases h with h | h <;> simp [serve, h]

theorem queueIn_of_room {s : State} {op : Nat} {r : Req} {own pool : Nat} (h : queueRoom s (sn r) = true) :
    queueIn s op r own pool =
      { s with ctl := { s.ctl with cmdQueue := s.ctl.cmdQueue ++ [{ op, req := r, own, pool }] } } := if_pos h

theorem queueIn_of_full {s : State} {op : Nat} {r : Req} {own pool : Nat} (h : queueRoom s (sn r) = false) :
    queueIn s op r own pool = frontBusy s op r := if_neg (by simp [h])

/-- A packet that comes to Headland's queue leaves the rest of the state as a refused one does. -/
theorem restoreQueued_queueIn (s : State) (op : Nat) (r : Req) (own pool : Nat) :
    restoreQueued s (queueIn s op r own pool) = s ∧ RepliesOnly s (queueIn s op r own pool) := by
  cases h : queueRoom s (sn r) with
  | true => rw [queueIn_of_room h]; exact ⟨rfl, .of_fabric rfl⟩
  | false => rw [queueIn_of_full h]; exact ⟨(sends_frontBusy s op r).refuses.queued, (sends_frontBusy s op r).egress⟩

/-- Settles O10: a refused packet is refused at once, or it comes to Headland's queue. -/
theorem refusedFrame : Obligations.RefusedFrame := by
  intro c r s hr hs
  have atOnce := fun hq => refuses_serve (c := c) (s := s) hr hs hq
  have frame : restoreQueued s (serve c r s) = s ∧ RepliesOnly s (serve c r s) := by
    by_cases hq : c.bw = true ∨ serving s = false ∨ s.ctl.cmdQueue = []
    · exact ⟨(atOnce hq).queued, (atOnce hq).egress⟩
    · simp only [not_or, Bool.not_eq_true, Bool.not_eq_false] at hq
      obtain ⟨hb, hsv, hq⟩ := hq
      by_cases ho : s.ctl.feReady = false ∨ sourceOpen s c.bw (sn r) = false
      · rw [serve_of_closed ho]
        exact ⟨rfl, .of_fabric rfl⟩
      · simp only [not_or, Bool.not_eq_false, hb] at ho
        obtain ⟨rest, egress⟩ := restoreQueued_queueIn (received r s) c.op r 0 0
        rw [serve_of_waiting ho.1 ho.2 hb hsv hq]
        exact ⟨(congrArg (restoreQueued s) rest : _ = restoreQueued s (received r s)), egress⟩
  exact ⟨frame.1, frame.2, fun hq => congrArg (fun t => t.ctl.cmdQueue) (atOnce hq).rest⟩


/-! ### Which packets are served (R46, R74, R562, R668) -/

/-- While Headland does not serve, its opcodes are answered BUSY. -/
theorem serve_of_starting {c : Cmd} {r : Req} {s : State} (hf : s.ctl.feReady = true)
    (ho : sourceOpen s c.bw (sn r) = true) (h7 : r.flags.getLsbD 7 = false) (hs : serving s = false) :
    serve c r s = if c.bw then act (received r s) c r else reply (received r s) c.op r .busy [] := by
  have h7' : r.flags[7] = false := h7
  have idle : serving (s.bump 0x0003 (sn r) 0) = false := hs
  cases hb : c.bw <;> simp_all [serve, frontBusy, received]

theorem queueRoom_received (s : State) (r : Req) : queueRoom (received r s) (sn r) = queueRoom s (sn r) := rfl

/-- Settles O11: the branches of `serve`, and the entries that Headland's queue has left. -/
theorem servedStates : Obligations.ServedStates := by
  refine ⟨fun c r s hf => serve_of_closed (.inl hf), fun s hf => ?_, fun c r s hf ho h7 h2 h4 => ?_,
    fun c r s hf ho h7 hh hb hq => ⟨fun room => ?_, fun own shared => ?_⟩⟩
  · exact congrArg Host.Outcome.next (if_neg (by simp [hf]))
  · exact serve_of_starting hf ho h7 (by simp [serving, h2, h4])
  · have free : queueRoom (received r s) (sn r) = true := by
      rw [queueRoom_received]
      simpa [queueRoom] using room
    rw [serve_of_waiting hf ho hb (by simpa [serving] using hh) hq, queueIn_of_room free]
    exact ⟨rfl, rfl⟩
  · have full : queueRoom (received r s) (sn r) = false := by
      rw [queueRoom_received]
      simpa [queueRoom] using ⟨own, shared⟩
    have h7' : r.flags[7] = false := h7
    rw [serve_of_waiting hf ho hb (by simpa [serving] using hh) hq, queueIn_of_full full, frontBusy]
    simp [h7']

/-! ### The order of the checks (R47) -/

/-- Step 2. -/
theorem judge_authFail {s : State} {c : Cmd} {r : Req} (ha : authOk s c.op r = false) : judge s c r = .refuse .authFail [] := by
  simp only [judge, ha, Bool.not_false, if_true]

/-- Step 3: a packet with REPLY set is discarded. -/
theorem judge_discard {s : State} {c : Cmd} {r : Req} (ha : authOk s c.op r = true) (h7 : r.flags.getLsbD 7 = true) :
    judge s c r = .discard := by
  simp only [judge, ha, h7, Bool.not_true, Bool.false_eq_true, if_false, if_true]

/-- Step 4. -/
theorem judge_version {s : State} {c : Cmd} {r : Req} (ha : authOk s c.op r = true) (h7 : r.flags.getLsbD 7 = false)
    (hv : r.version ≠ 1) : judge s c r = .refuse .invalidOpcode [] := by
  simp only [judge, ha, h7, Bool.not_true, Bool.false_eq_true, if_false]
  exact if_pos hv

/-- Steps 2 to 5 pass. -/
theorem judge_of_permitted {s : State} {c : Cmd} {r : Req} (ha : authOk s c.op r = true) (h7 : r.flags.getLsbD 7 = false)
    (hv : r.version = 1) (hp : permitted s c r = true) : judge s c r = judge69 s c r := by
  simp only [judge, ha, h7, hv, hp, Bool.not_true, Bool.false_eq_true, ne_eq, not_true_eq_false, if_false]

/-- The configuration that steps 6 to 8 judge with: a staged packet's is the one with every staged command. -/
def judgedWith (s : State) (r : Req) : State := if staged r then s.drafted else s

/-- Step 9. -/
def lastStep (s : State) (c : Cmd) (r : Req) : Option (Status × List Byte) :=
  if staged r then step9Staged s c r else step9 s c r

/-- Step 6. -/
theorem judge69_target {s : State} {c : Cmd} {r : Req} (ht : c.target (judgedWith s r) (tw r) = false) :
    judge69 s c r = .refuse .invalidTarget [] := if_pos (by rw [judgedWith] at ht; simp [ht])

/-- Step 7. -/
theorem judge69_length {s : State} {c : Cmd} {r : Req} (ht : c.target (judgedWith s r) (tw r) = true)
    (hl : c.len r.params = false) : judge69 s c r = .refuse .invalidLength [] := by
  rw [judgedWith] at ht
  simp only [judge69, ht, hl, Bool.not_true, Bool.not_false, Bool.false_eq_true, if_false, if_true]

/-- Step 8. -/
theorem judge69_step8 {s : State} {c : Cmd} {r : Req} {st : Status} (ht : c.target (judgedWith s r) (tw r) = true)
    (hl : c.len r.params = true) (h8 : step8 (judgedWith s r) c r = some st) : judge69 s c r = .refuse st [] := by
  rw [judgedWith] at ht h8
  simp only [judge69, ht, hl, h8, Bool.not_true, Bool.false_eq_true, if_false]

/-- Step 9 decides after the others. -/
theorem judge69_step9 {s : State} {c : Cmd} {r : Req} (ht : c.target (judgedWith s r) (tw r) = true)
    (hl : c.len r.params = true) (h8 : step8 (judgedWith s r) c r = none) :
    (∀ st d, lastStep s c r = some (st, d) → judge69 s c r = .refuse st d) ∧
      (lastStep s c r = none → judge69 s c r = if staged r then .stage else .run) := by
  rw [judgedWith] at ht h8
  unfold lastStep
  refine ⟨fun st d h9 => ?_, fun h9 => ?_⟩ <;>
    simp only [judge69, ht, hl, h8, h9, Bool.not_true, Bool.false_eq_true, if_false]

/-- Settles O12: steps 2 to 9 one after the other, each under the ones before it. -/
theorem checksInOrder : Obligations.ChecksInOrder := by
  intro c r s hf ho hh
  have taken : serve c r s = act (received r s) c r := serve_eq_act hf ho hh
  have refused : ∀ {st d}, judge (received r s) c r = .refuse st d → serve c r s = refuse (received r s) c.op r st d :=
    fun h => taken.trans (act_of_judge_refuse h)
  refine ⟨fun ha => refused (judge_authFail ha), fun ha => ⟨fun h7 => ?_, fun h7 => ⟨fun hv => refused (judge_version ha h7 hv),
    fun hv => ⟨fun hp => refused (judge_not_permitted ha h7 hv hp), fun hp => ?_⟩⟩⟩⟩
  · rw [taken, act, judge_discard ha h7]
  · have steps := judge_of_permitted ha h7 hv hp
    refine ⟨fun ht => refused (steps.trans (judge69_target ht)), fun ht => ⟨fun hl => refused (steps.trans (judge69_length ht hl)),
      fun hl => ⟨fun st h8 => refused (steps.trans (judge69_step8 ht hl h8)), fun h8 => ?_⟩⟩⟩
    obtain ⟨stops, passes⟩ := judge69_step9 ht hl h8
    refine ⟨fun st d h9 => refused (steps.trans (stops st d h9)), fun h9 => ?_⟩
    rw [taken, act, steps, passes h9]
    cases staged r <;> rfl

/-- Settles O13: the distance from the last accepted sequence, modulo 65,536, lies in the window. -/
theorem sequenceWindow : Obligations.SequenceWindow := by
  intro s r hl
  have hs : r.seq.toNat < 65536 := r.seq.isLt
  generalize hb : s.ctl.lastSeq.get 0 (sn r) = last at hl
  have window : seqOk s r = true ↔
      1 ≤ (r.seq.toNat + 65536 - last) % 65536 ∧ (r.seq.toNat + 65536 - last) % 65536 ≤ 32768 := by
    simp [seqOk, within, hb]
  rw [window]
  constructor
  · intro ⟨lo, hi⟩
    exact ⟨_, lo, hi, by omega⟩
  · rintro ⟨d, lo, hi, e⟩
    omega

/-! ### Requests that come as bytes (R39, R46, R47 step 1) -/

/-- A doorbell submits the request in the window, which stands as it was before. -/
theorem exec_doorbell {s : State} (hf : s.ctl.feReady = true) : exec .mbxDoorbellSubmit s =
    .next (packetIn 0 0 (windowBytes s) 0 0 { s with ctl := { s.ctl with reqBusy := true } }) :=
  congrArg Host.Outcome.next (if_pos hf)

/-- Step 1 of R47 fails: the packet is counted in `CMD_CRC_ERR`. -/
theorem packetIn_of_bad {bs : List Byte} (h : (pktLenOk bs && pktCrcOk bs) = false) (src : SourceId) (sa own pool : Nat)
    (s : State) : packetIn src sa bs own pool s = s.bump 0x0003 src.val 1 := by
  have bad : (!pktLenOk bs || !pktCrcOk bs) = true := by rw [← Bool.not_and, h, Bool.not_false]
  exact if_pos bad

/-- Step 1 of R47 passes: the request arrives as its opcode. -/
theorem packetIn_of_good {bs : List Byte} (h : (pktLenOk bs && pktCrcOk bs) = true) (src : SourceId) (sa own pool : Nat)
    (s : State) : packetIn src sa bs own pool s = arrive (pktOp bs) (pktReq src sa bs) own pool s := by
  have good : (!pktLenOk bs || !pktCrcOk bs) = false := by rw [← Bool.not_and, h, Bool.not_true]
  exact if_neg (by simp [good])

/-- Breakwater's requests are served at once. -/
theorem arrive_breakwater {c : Cmd} {s : State} (hc : cmdOf s c.op = some c) (hb : bwOp c.op = true) (r : Req)
    (own pool : Nat) : arrive c.op r own pool s = reachHeld (serve c r s) := by
  simp only [arrive, hb, if_true, hc]

/-- Headland's requests come to its command queue. -/
theorem arrive_headland {op : Nat} {r : Req} {s : State} (hb : bwOp op = false) (hf : s.ctl.feReady = true)
    (ho : sourceOpen s false (sn r) = true) (hs : serving s = true) (own pool : Nat) :
    arrive op r own pool s = queueIn (received r s) op r own pool := by
  simp only [arrive, hb, hf, ho, hs, received, Bool.false_eq_true, Bool.not_true, Bool.or_self, if_false, if_true]

/-- A packet from Headland's queue is judged by its opcode's record. -/
theorem takePacket_of_cmdOf {c : Cmd} {s : State} (hc : cmdOf s c.op = some c) (hp : c.op ≠ 0x6007) (hw : c.op ≠ 0x3102)
    (r : Req) : takePacket c.op r s = act s c r := by
  simp only [takePacket, if_neg hp, if_neg hw, hc]

/-- Settles O14: step 1 of R47 for the window's bytes, the two ways of a request, and what Headland takes. -/
theorem submitParses : Obligations.SubmitParses := by
  refine ⟨fun s hf h => ?_, fun s hf h => ?_, fun c r s hc hb => arrive_breakwater hc hb r 0 0,
    fun op r s hb hf ho hs => arrive_headland hb hf ho hs 0 0, fun c r s hc hp hw => takePacket_of_cmdOf hc hp hw r⟩
  · rw [exec_doorbell hf, packetIn_of_bad h]
    rfl
  · rw [exec_doorbell hf, packetIn_of_good h]

end Sys2Proof.Machine
end

section
/-! PROOFS of the shared rules: check words, counters (R674), safety-relevant faults (R513, R515), the MRAM (R595), parameter checks, and
the pins, ring stops and PMBus bytes that no single command shows (R258, R259, R419, R421, R542). -/

namespace Sys2Proof.Machine

/-- Settles O15: the nine bytes go through each check. -/
theorem crcCheckValues : Obligations.CrcCheckValues := by
  refine ⟨?_, ?_, ?_, ?_⟩ <;> decide +kernel

/-! ### Counters (R674) -/

/-- A number outside a dropped range reads as before, one inside as the default. -/
theorem Tab.get_dropRange {α : Type} {d : α} (t : Tab α) (lo hi k : Nat) :
    Tab.get d (t.dropRange lo hi) k = if lo ≤ k ∧ k < hi then d else Tab.get d t k := by
  induction t with
  | nil => simp [Tab.dropRange, Tab.get]
  | cons x t ih =>
    obtain ⟨j, a⟩ := x
    have rest : Tab.get d (List.filter (fun e => decide (e.1 < lo) || decide (hi ≤ e.1)) t) k =
      if lo ≤ k ∧ k < hi then d else Tab.get d t k := ih
    by_cases kept : j < lo ∨ hi ≤ j
    · have keep : (decide (j < lo) || decide (hi ≤ j)) = true := by simpa using kept
      by_cases hk : k = j
      · subst hk
        have outside : ¬(lo ≤ k ∧ k < hi) := by omega
        simp [Tab.dropRange, Tab.get, keep, outside]
      · simp only [Tab.dropRange, List.filter_cons, keep, if_true, Tab.get, if_neg hk, rest]
    · have drop : (decide (j < lo) || decide (hi ≤ j)) = false := by simpa [not_or] using kept
      by_cases hk : k = j
      · subst hk
        have inside : lo ≤ k ∧ k < hi := by omega
        simp only [Tab.dropRange, List.filter_cons, drop, Bool.false_eq_true, if_false, rest, if_pos inside]
      · simp only [Tab.dropRange, List.filter_cons, drop, Bool.false_eq_true, if_false, Tab.get, if_neg hk, rest]

/-- Settles O18: a bump writes one number of the table of counters, a clear drops the numbers of its block. -/
theorem countersWrapAndClear : Obligations.CountersWrapAndClear := by
  refine ⟨fun s op blk idx n k hc => ?_, fun s op blk k => Tab.get_dropRange _ _ _ _⟩
  split
  · subst k
    exact cnt_bumpBy_self hc.1
  · exact Tab.get_upd_ne (d := (0 : Nat)) (f := fun v => (v + n) % 2 ^ 64) ‹_›

/-! ### Safety-relevant faults (R513, R515, R81) -/

theorem testBit_setBit (m i j : Nat) : (setBit m i).testBit j = (m.testBit j || decide (i = j)) := by
  rw [setBit, Nat.testBit_or, Nat.one_shiftLeft, Nat.testBit_two_pow]

/-- A mask of listed bits has those bits and no other. -/
theorem testBit_maskOf (l : List Nat) (i : Nat) : (maskOf l).testBit i = decide (i ∈ l) := by
  have folded : ∀ m, (l.foldl (fun m i => setBit m i) m).testBit i = (m.testBit i || decide (i ∈ l)) := by
    induction l with
    | nil => simp
    | cons a l ih =>
      intro m
      rw [List.foldl_cons, ih, testBit_setBit]
      simp [Bool.or_assoc, eq_comm]
  have := folded 0
  simpa [maskOf, setBit] using this

/-- The state in which a safety-relevant fault raises its event: recorded and latched. -/
def faultLatched (s : State) (k src : Nat) (d : List Byte) : State :=
  let s1 := faultEntry s (0x0901 + k) 3 src d
  let s2 := { s1 with integ := { s1.integ with latches := setBit s1.integ.latches k } }
  if faultN s then s2 else s2.bump 0x0905 0 6

theorem safetyFault_eq (s : State) (k src : Nat) (d : List Byte) : safetyFault s k src d =
    raise (faultLatched s k src d) (0x0901 + k) 3 src (padTo 4 d ++ be 4 (faultLatched s k src d).integ.faultSeq) := rfl

/-- The latches, the fault sequence and the record of a fault; nothing else of the integrity chain changes. -/
theorem safetyFault_integ (s : State) (k src : Nat) (d : List Byte) : (safetyFault s k src d).integ =
    { s.integ with
      latches := setBit s.integ.latches k, faultSeq := s.integ.faultSeq + 1
      record := ({ seq := s.integ.faultSeq + 1, code := 0x0901 + k, cls := 3, tmValid := s.timeValid, src, keeperTime := s.keeper,
                   tidemark := s.tidemark, detail := padTo 4 d, copied := false } :: s.integ.record).take 64 } := by
  rw [safetyFault_eq, raise_integ, faultLatched]
  dsimp only
  split <;> rfl

theorem faultLatched_events (s : State) (k src : Nat) (d : List Byte) :
    (faultLatched s k src d).ctl.events = s.ctl.events := by
  unfold faultLatched
  dsimp only
  split <;> rfl

/-- Its event finds space and is queued last. -/
theorem safetyFault_events {s : State} (h : s.ctl.events.length < 4096) (k src : Nat) (d : List Byte) :
    ∃ e : EventRec, (safetyFault s k src d).ctl.events = s.ctl.events ++ [e] ∧ e.code = 0x0901 + k ∧ e.sev = 3 ∧ e.src = src := by
  rw [safetyFault_eq, raise, raiseFor_of_room (by rwa [faultLatched_events])]
  rw [← faultLatched_events s k src d]
  exact ⟨_, rfl, rfl, rfl, rfl⟩

/-- A set latch asserts `FAULT_N`. -/
theorem faultN_of_latch {s : State} {k : Nat} (h : s.integ.latches.testBit k = true) : faultN s = true := by
  have set : s.integ.latches ≠ 0 := fun h0 => by simp [h0] at h
  simp [faultN, set]

/-- A latch whose condition is present stays. -/
theorem clearLatches_of_present {s : State} {k : Nat} (hk : k < 16) (hc : (conditions s).testBit k = true)
    (hl : s.integ.latches.testBit k = true) (mask : Nat) : (clearLatches s mask).integ.latches.testBit k = true := by
  have stays : k ∈ (maskList 16 s.integ.latches).filter fun k => !mask.testBit k || (conditions s).testBit k := by
    simp [maskList, hk, hc, hl]
  have latches : (clearLatches s mask).integ.latches =
    maskOf ((maskList 16 s.integ.latches).filter fun k => !mask.testBit k || (conditions s).testBit k) := rfl
  rw [latches, testBit_maskOf, decide_eq_true stays]

/-- Settles O19: what a fault leaves in the integrity chain, its event, and what a clear leaves. -/
theorem safetyFaultLatches : Obligations.SafetyFaultLatches := by
  intro s k src d
  have latched : (safetyFault s k src d).integ.latches.testBit k = true := by
    rw [safetyFault_integ, testBit_setBit, decide_eq_true rfl, Bool.or_true]
  refine ⟨faultN_of_latch latched, latched, fun j hj => ?_, ?_, 
    ⟨_, congrArg Integ.record (safetyFault_integ s k src d), rfl, rfl, rfl, rfl, rfl, rfl, rfl⟩,
    fun h => safetyFault_events h k src d, fun mask hk hc hl => ?_⟩
  · rw [safetyFault_integ, testBit_setBit, decide_eq_false (Ne.symm hj), Bool.or_false]
  · rw [safetyFault_integ]
  · have stays := clearLatches_of_present hk hc hl mask
    exact ⟨stays, faultN_of_latch stays⟩

/-! ### The MRAM (R595, R598) -/

/-- Settles O20: each byte inside what was written, and each outside. -/
theorem mramReadAfterWrite : Obligations.MramReadAfterWrite := by
  intro s i off bs hm
  refine ⟨List.ext_getElem (by simp [State.regionRead, mramRead]) fun j h1 h2 => ?_, fun a ha => mramByte_write_out ha⟩
  simp only [State.regionRead, mramRead, List.getElem_map, List.getElem_range]
  exact mramByte_write_in hm h2

/-! ### Parameter checks (R60, R81, R543, R595) -/

theorem rz_byte (r : Req) (off : Nat) : rz r off 1 = (p8 r off == 0) := by
  have byte : fld r.params off 1 = p8 r off := by
    rw [p8, byteAt, fld, List.getD_eq_getElem?_getD, List.take_one, List.head?_drop]
    cases r.params[off]? with
    | none => rfl
    | some b => simp [ofBe]
  rw [rz, byte]

theorem rz_half (r : Req) (off : Nat) : rz r off 2 = (p16 r off == 0) := rfl

/-- A list of checks names the status of its first check unless that check holds. -/
theorem firstFail_cons (ok : Bool) (st : Status) (l : List (Bool × Status)) :
    firstFail ((ok, st) :: l) = if ok then firstFail l else some st := rfl

/-- Settles O25: the first check of each list that fails. -/
theorem parameterRefusals : Obligations.ParameterRefusals := by
  intro s r
  refine ⟨?_, ?_, ?_, ?_, ?_⟩
  · simp only [epochOpenCmd, inv, rng, firstFail_cons]
    grind [firstFail]
  · simp only [readFaultRecordCmd, rng, firstFail_cons]
    grind [firstFail]
  · simp only [nvmReadCmd, inv, rng, rz_half, firstFail_cons]
    grind [firstFail]
  · simp only [dvfsConfigCmd, confCmd, inv, rz_half, within, firstFail_cons]
    grind [firstFail]
  · simp only [calConfigCmd, confCmd, inv, rng, rz_byte, within, firstFail_cons]
    grind [firstFail]

/-! ### The pins of a line port (R258, R259) -/

/-- A port carries or trains a link. -/
def livePins (x : Port) : Bool := x.st == .training || x.st == .up || x.st == .lpi

/-- On a mixing segment the pins are a tap in every state. -/
theorem linePins_tap {s : State} {p : Nat} (h : (if livePins (s.port p) then (s.port p).resMode == 2 else multidrop s p) = true) :
    linePins s p = .tap := if_pos h

/-- Elsewhere they are disconnected or terminated. -/
theorem linePins_of_not_tap {s : State} {p : Nat}
    (h : (if livePins (s.port p) then (s.port p).resMode == 2 else multidrop s p) = false) : linePins s p =
      if (s.port p).st = .quiet ∨ (s.port p).st = .slack ∨ ((s.port p).st = .test ∧ within (s.port p).test.action 1 3) ∨
        driversOff s then .disconnected else .terminated := if_neg (by rw [← livePins, h]; exact Bool.false_ne_true)

/-- A port that is not in mode 0x02 is no tap. -/
theorem not_tap {s : State} {p : Nat} (hr : livePins (s.port p) = true → (s.port p).resMode ≠ 2)
    (hm : (s.pcfg p).mode.mode ≠ 2) : (if livePins (s.port p) then (s.port p).resMode == 2 else multidrop s p) = false := by
  cases hl : livePins (s.port p) with
  | true => simpa using hr hl
  | false => simp [multidrop, hm]

/-- What the pins of a port present by its mode and state. -/
theorem linePins_by_mode (s : State) (p : Nat) : let x := s.port p
    (x.resMode = 2 → (s.pcfg p).mode.neg = 0 → (s.pcfg p).mode.mode = 2 → linePins s p = .tap) ∧
    (x.resMode = 1 → (s.pcfg p).mode.mode = 1 → driversOff s = false →
      (x.st = .down ∨ x.st = .negotiating ∨ x.st = .training ∨ x.st = .up ∨ x.st = .lpi) → linePins s p = .terminated) ∧
    (x.resMode = 1 → (s.pcfg p).mode.mode = 1 → driversOff s = false → x.st = .test → within x.test.action 1 3 = false →
      linePins s p = .terminated) ∧
    ((s.pcfg p).mode.mode ≠ 2 → x.st = .quiet → linePins s p = .disconnected) := by
  refine ⟨fun hr hn hm => ?_, fun hr hm hd hst => ?_, fun hr hm hd hst ha => ?_, fun hm hst => ?_⟩
  · exact linePins_tap (by simp [hr, multidrop, hn, hm])
  · rw [linePins_of_not_tap (not_tap (by simp [hr]) (by simp [hm])), if_neg]
    rcases hst with h | h | h | h | h <;> simp [h, hd]
  · rw [linePins_of_not_tap (not_tap (by simp [hr]) (by simp [hm])), if_neg]
    simp [hst, hd, ha]
  · rw [linePins_of_not_tap (not_tap (by simp [livePins, hst]) hm), if_pos (.inl hst)]

/-! ### The ring (R419, R421) -/

/-- Cells take the one segment between adjacent slices, and two in the direction of the egress position's parity otherwise. -/
theorem ringPath_by_distance {i : Nat} (e : Nat) (hi : i < 4) :
    ringPath i ((i + 1) % 4) e = [2 * i] ∧ ringPath i ((i + 3) % 4) e = [2 * i + 1] ∧ ringPath i i e = [] ∧
    (e % 2 = 0 → ringPath i ((i + 2) % 4) e = [2 * i, 2 * ((i + 1) % 4)]) ∧
    (e % 2 = 1 → ringPath i ((i + 2) % 4) e = [2 * i + 1, 2 * ((i + 3) % 4) + 1]) := by
  have one : ((i + 1) % 4 + 4 - i) % 4 = 1 := by omega
  have three : ((i + 3) % 4 + 4 - i) % 4 = 3 := by omega
  have zero : (i + 4 - i) % 4 = 0 := by omega
  have two : ((i + 2) % 4 + 4 - i) % 4 = 2 := by omega
  refine ⟨?_, ?_, ?_, fun he => ?_, fun he => ?_⟩ <;> simp [ringPath, *]

/-- No cell is lost at a ring stop. -/
theorem joinStop_perm (c : Crossing) (l : List Crossing) : (joinStop c l).Perm (c :: l) := by
  induction l with
  | nil => exact .refl _
  | cons x l ih =>
    unfold joinStop
    split
    · exact .refl _
    · exact (ih.cons x).trans (.swap c x l)

/-- Cut-through cells stay ahead of all others. -/
theorem joinStop_ordered (c : Crossing) {l : List Crossing} (h : l.Pairwise fun a b => b.cut = true → a.cut = true) :
    (joinStop c l).Pairwise fun a b => b.cut = true → a.cut = true := by
  induction l with
  | nil => exact List.pairwise_singleton _ _
  | cons x l ih =>
    obtain ⟨hx, hl⟩ := List.pairwise_cons.mp h
    unfold joinStop
    split
    · next ahead =>
      have hc : c.cut = true := (Bool.and_eq_true_iff.mp ahead).1
      exact List.pairwise_cons.mpr ⟨fun _ _ _ => hc, h⟩
    · next behind =>
      refine List.pairwise_cons.mpr ⟨fun y hy hcut => ?_, ih hl⟩
      rcases List.mem_cons.mp ((joinStop_perm c l).mem_iff.mp hy) with rfl | hy
      · simpa [hcut] using behind
      · exact hx y hy hcut

/-- A frame that is not cut through joins last. -/
theorem joinStop_last {c : Crossing} (h : c.cut = false) (l : List Crossing) : joinStop c l = l ++ [c] := by
  induction l with
  | nil => rfl
  | cons x l ih => simp [joinStop, h, ih]

/-! ### The bytes of a PMBus sequence (R540, R542) -/

/-- One byte of the packet error code. -/
def pecByte (c b : Nat) : Nat := (List.range 8).foldl (fun c _ => (c * 2 % 256) ^^^ if c.testBit 7 then 7 else 0) (c ^^^ b)

theorem pec_append (bs : List Byte) (b : Byte) : pec (bs ++ [b]) = pecByte (pec bs) b.toNat := by
  rw [pec, List.foldl_append]
  rfl

theorem pecByte_lt (c b : Nat) : pecByte c b < 256 := by
  have bit : ∀ n : Nat, (n * 2 % 256) ^^^ (if n.testBit 7 then 7 else 0) < 2 ^ 8 := fun n =>
    Nat.xor_lt_two_pow (Nat.mod_lt _ (by decide)) (by split <;> decide)
  exact bit _

theorem pec_lt (bs : List Byte) : pec bs < 256 := by
  rcases List.eq_nil_or_concat bs with rfl | ⟨l, b, rfl⟩
  · decide
  · rw [List.concat_eq_append, pec_append]
    exact pecByte_lt _ _

/-- Bytes with their own code behind them have the code 0. -/
theorem pec_append_pec (bs : List Byte) : pec (bs ++ be 1 (pec bs)) = 0 := by
  have byte : be 1 (pec bs) = [BitVec.ofNat 8 (pec bs)] := by simp [be]
  have same : (BitVec.ofNat 8 (pec bs)).toNat = pec bs := Nat.mod_eq_of_lt (pec_lt bs)
  rw [byte, pec_append, same, pecByte, Nat.xor_self]
  rfl

/-- Settles O60: pins by mode and state, paths by distance, the order of a ring stop, and the code behind a sequence. -/
theorem pinsRingAndSequencer : Obligations.PinsRingAndSequencer := by
  refine ⟨linePins_by_mode, fun i e => ringPath_by_distance e,
    fun c l => ⟨joinStop_perm c l, joinStop_ordered c, fun h => joinStop_last h l⟩, fun avs cmd data => ⟨fun h => ?_, fun h => ?_⟩,
    fun s h => ?_⟩
  · exact if_neg (by simp [h])
  · exact ⟨if_pos h, pec_append_pec _⟩
  · refine if_pos ?_
    rcases h with h | h <;> simp [h]

end Sys2Proof.Machine
end

section
/-! PROOFS about the opcodes of the host (R55, R680): a request that passes every check of R47 is served, its reply leaves, and its
command takes its effect. One rule for each form that a command has, and then each opcode by the rule of its form. -/

namespace Sys2Proof.Machine

/-! ### A request that is served -/

/-- A row that serves an opcode's record runs it for a request that passes every check. -/
theorem exec_taken {i : Instr} {c : Cmd} {r : Req} {s : State} (hi : exec i s = .next (serve c r s)) (h : Taken c r s) :
    exec i s = .next (execCmd (received r s) c r) := by
  rw [hi, serve_taken h]

/-- A command that answers at once takes its effect on the state after its reply. -/
theorem execCmd_of_answer {c : Cmd} {r : Req} {s : State} {st : Status} {d : List Byte}
    (h : (c.run (heard r s) r).2 = some (st, d)) : execCmd (received r s) c r = (c.run (replied c r s st d) r).1 := by
  rw [heard] at h
  simp only [execCmd, h, replied, heard]

/-- A command that answers later takes its effect on the state that has heard it. -/
theorem execCmd_of_late {c : Cmd} {r : Req} {s : State} (h : (c.run (heard r s) r).2 = none) :
    execCmd (received r s) c r = (c.run (heard r s) r).1 := by
  rw [heard] at h
  simp only [execCmd, h, heard]

/-- The rule of a read. By default both ties to the model are definitional: the row serves the record, and the record has the form. -/
theorem reads_of_run {i : Req → Instr} {c : Cmd} {f : State → Req → List Byte}
    (hi : ∀ r s, exec (i r) s = .next (serve c r s) := by exact fun _ _ => rfl)
    (hc : c.run = readOk f := by rfl) : Reads i c f := fun r s h => by
  rw [exec_taken (hi r s) h, execCmd_of_answer (by rw [hc]; rfl), hc]
  rfl

/-- The rule of a command that answers OK. -/
theorem does_of_run {i : Req → Instr} {c : Cmd} {f : State → Req → State}
    (hi : ∀ r s, exec (i r) s = .next (serve c r s) := by exact fun _ _ => rfl)
    (hc : c.run = doOk f := by rfl) : Does i c f := fun r s h => by
  rw [exec_taken (hi r s) h, execCmd_of_answer (by rw [hc]; rfl), hc]
  rfl

/-- The rule of a command that answers ACCEPTED. -/
theorem accepts_of_run {i : Req → Instr} {c : Cmd} {f : State → Req → State}
    (hi : ∀ r s, exec (i r) s = .next (serve c r s) := by exact fun _ _ => rfl)
    (hc : c.run = doAccepted f := by rfl) : Accepts i c f := fun r s h => by
  rw [exec_taken (hi r s) h, execCmd_of_answer (by rw [hc]; rfl), hc]
  rfl

/-- The rule of a command that answers with a status and data of its own. -/
theorem answers_of_run {i : Req → Instr} {c : Cmd} {d : State → Req → Status × List Byte} {f : State → Req → State}
    (hi : ∀ r s, exec (i r) s = .next (serve c r s) := by exact fun _ _ => rfl)
    (hc : c.run = fun s r => (f s r, some (d s r)) := by rfl) :
    Answers i c d f := fun r s h => by
  rw [exec_taken (hi r s) h, execCmd_of_answer (by rw [hc]), hc]

/-! ### What the packet and its reply leave (R35) -/

/-- What `restoreHeard` does not touch reads as before. -/
theorem field_of_restoreHeard {α : Type} {s t : State} (f : State → α) (hf : f (restoreHeard s t) = f t)
    (h : restoreHeard s t = s) : f t = f s := hf.symm.trans (congrArg f h)

section
variable (c : Cmd) (r : Req) (s : State) (st : Status) (d : List Byte)

@[simp] theorem heard_port (p : Nat) : (heard r s).port p = s.port p :=
  field_of_restoreHeard (fun t => State.port t p) rfl (restoreHeard_heard r s)
@[simp] theorem heard_rst : (heard r s).rst = s.rst := field_of_restoreHeard State.rst rfl (restoreHeard_heard r s)
@[simp] theorem heard_clk : (heard r s).clk = s.clk := field_of_restoreHeard State.clk rfl (restoreHeard_heard r s)
@[simp] theorem heard_elec : (heard r s).elec = s.elec := field_of_restoreHeard State.elec rfl (restoreHeard_heard r s)
@[simp] theorem heard_safeState : (heard r s).ctl.safeState = s.ctl.safeState :=
  field_of_restoreHeard (fun t => t.ctl.safeState) rfl (restoreHeard_heard r s)
@[simp] theorem replied_port (p : Nat) : (replied c r s st d).port p = s.port p :=
  field_of_restoreHeard (fun t => State.port t p) rfl (restoreHeard_replied c r s st d)
@[simp] theorem replied_rst : (replied c r s st d).rst = s.rst := field_of_restoreHeard State.rst rfl (restoreHeard_replied c r s st d)
@[simp] theorem replied_clk : (replied c r s st d).clk = s.clk := field_of_restoreHeard State.clk rfl (restoreHeard_replied c r s st d)
@[simp] theorem replied_now : (replied c r s st d).now = s.now := field_of_restoreHeard State.now rfl (restoreHeard_replied c r s st d)
@[simp] theorem replied_safeState : (replied c r s st d).ctl.safeState = s.ctl.safeState :=
  field_of_restoreHeard (fun t => t.ctl.safeState) rfl (restoreHeard_replied c r s st d)
@[simp] theorem replied_safeAt : (replied c r s st d).ctl.safeAt = s.ctl.safeAt :=
  field_of_restoreHeard (fun t => t.ctl.safeAt) rfl (restoreHeard_replied c r s st d)

theorem replied_sameCycle (at_ : Option (Nat × Nat)) : sameCycle (replied c r s st d) r at_ = sameCycle s r at_ :=
  field_of_restoreHeard (fun t => sameCycle t r at_) rfl (restoreHeard_replied c r s st d)
theorem replied_atBoundary (p : Nat) : atBoundary (replied c r s st d) p = atBoundary s p :=
  field_of_restoreHeard (fun t => atBoundary t p) rfl (restoreHeard_replied c r s st d)
theorem heard_atBoundary (p : Nat) : atBoundary (heard r s) p = atBoundary s p :=
  field_of_restoreHeard (fun t => atBoundary t p) rfl (restoreHeard_heard r s)
theorem heard_streamAbsent (p : Nat) : streamAbsent (heard r s) p = streamAbsent s p :=
  field_of_restoreHeard (fun t => streamAbsent t p) rfl (restoreHeard_heard r s)
theorem heard_gateAsked (i : Nat) : gateAsked (heard r s) i = gateAsked s i :=
  field_of_restoreHeard (fun t => gateAsked t i) rfl (restoreHeard_heard r s)
theorem replied_gateAsked (i : Nat) : gateAsked (replied c r s st d) i = gateAsked s i :=
  field_of_restoreHeard (fun t => gateAsked t i) rfl (restoreHeard_replied c r s st d)
theorem heard_precondFail (i : Nat) (pre : Precond) : precondFail (heard r s) i pre = precondFail s i pre :=
  field_of_restoreHeard (fun t => precondFail t i pre) rfl (restoreHeard_heard r s)
theorem replied_precondFail (i : Nat) (pre : Precond) : precondFail (replied c r s st d) i pre = precondFail s i pre :=
  field_of_restoreHeard (fun t => precondFail t i pre) rfl (restoreHeard_replied c r s st d)

end

/-! ### Opcodes whose effect goes by cases -/

theorem step8_of_taken {c : Cmd} {r : Req} {s : State} (h : Taken c r s) : step8 (received r s) c r = none := by
  obtain ⟨_, _, _, _, hf, _, hr, _, _, _, hc, _⟩ := h
  obtain ⟨_, _, reserved⟩ := flags_clear hf
  simp [step8, reserved, hr, hc]

theorem staged_of_taken {c : Cmd} {r : Req} {s : State} (h : Taken c r s) : staged r = false := by
  obtain ⟨_, _, _, _, hf, _⟩ := h
  exact (flags_clear hf).2.1

/-- A packet that passes every check fails none with RANGE: no insert is noted as failed (R449). -/
theorem noteFailed_of_taken {r : Req} {s : State} (h : Taken streamEntryWriteCmd r s) : noteFailed s r = s := by
  have passes : step8 s streamEntryWriteCmd r = none := step8_of_taken h
  exact if_neg fun ⟨_, fails⟩ => by simp [staged_of_taken h, passes] at fails

/-- STREAM_ENTRY_WRITE notes nothing before it is served. -/
theorem streamEntryWrite_taken : Does .streamEntryWrite streamEntryWriteCmd fun s r =>
    match writeEntry s.strm.excluded s.freeCtr s.cfg.streams (entryOf r) with
    | none => s
    | some (c, m) =>
      (updStrm (updStreamCfg s fun _ => c) fun x =>
        { x with moves := max x.moves m, lastHit := x.lastHit.set 0 (p32 r 44) 0,
                 ecc := x.ecc.filter fun b => ((ofHandle c (p32 r 44)).map fun y => y.1 / 4 != b).getD true }).draw := by
  intro r s h
  have serves : exec (.streamEntryWrite r) s = .next (serve streamEntryWriteCmd r s) := by
    refine congrArg (fun t => Host.Outcome.next (serve streamEntryWriteCmd r t)) ?_
    split
    · exact noteFailed_of_taken h
    · rfl
  rw [exec_taken serves h, execCmd_of_answer rfl]
  rfl

/-- The effect of SAFE_STATE (R76, R77). -/
def safeStateRun (s : State) (r : Req) : State :=
  if p8 r 0 = 1 then
    let s0 := { s with ctl := { s.ctl with safeAt := some (s.keeper, sn r) } }
    if s.ctl.safeState then s0
    else
      let s1 := { s0 with ctl := { s0.ctl with safeState := true } }
      overrideChanged (safeLanes (eachN s1 (List.range 128) fun s p => quietPort s p 5)) 0 1
  else if s.ctl.safeState && !sameCycle s r s.ctl.safeAt then
    let s1 := { s with ctl := { s.ctl with safeState := false } }
    overrideChanged (eachN s1 (List.range 128) leaveQuiet) 0 0
  else s

/-- An override is served by Breakwater, and what it holds then counts as at its boundary (R65). -/
theorem exec_override {i : Instr} {c : Cmd} {f : State → Req → State} {r : Req} {s : State}
    (hi : exec i s = .next (reachHeld (serve c r s))) (hc : c.run = doOk f) (h : Taken c r s) :
    exec i s = .next (reachHeld (f (replied c r s .ok []) r)) := by
  rw [hi, serve_taken h, execCmd_of_answer (by rw [hc]; rfl), hc]
  rfl

theorem safeState_taken (r : Req) (s : State) (h : Taken safeStateCmd r s) :
    let s0 := replied safeStateCmd r s .ok []
    let entered := { s0 with ctl := { s0.ctl with safeAt := some (s0.keeper, sn r) } }
    (p8 r 0 = 1 → s.ctl.safeState = true → exec (.safeState r) s = .next (reachHeld entered)) ∧
    (p8 r 0 = 1 → s.ctl.safeState = false → exec (.safeState r) s = .next (reachHeld (
      let s1 := { entered with ctl := { entered.ctl with safeState := true } }
      overrideChanged (safeLanes (eachN s1 (List.range 128) fun s p => quietPort s p 5)) 0 1))) ∧
    (p8 r 0 ≠ 1 → s.ctl.safeState = true → sameCycle s r s.ctl.safeAt = false → exec (.safeState r) s = .next (reachHeld (
      let s1 := { s0 with ctl := { s0.ctl with safeState := false } }
      overrideChanged (eachN s1 (List.range 128) leaveQuiet) 0 0))) ∧
    (p8 r 0 ≠ 1 → (s.ctl.safeState = false ∨ sameCycle s r s.ctl.safeAt = true) →
      exec (.safeState r) s = .next (reachHeld s0)) := by
  have runs : exec (.safeState r) s = .next (reachHeld (safeStateRun (replied safeStateCmd r s .ok []) r)) :=
    exec_override rfl rfl h
  refine ⟨fun hp hs => ?_, fun hp hs => ?_, fun hp hs hc => ?_, fun hp hk => ?_⟩
  · rw [runs, safeStateRun, if_pos hp]
    exact congrArg (Host.Outcome.next ∘ reachHeld) (if_pos (by simp [hs]))
  · rw [runs, safeStateRun, if_pos hp]
    exact congrArg (Host.Outcome.next ∘ reachHeld) (if_neg (by simp [hs]))
  · rw [runs, safeStateRun, if_neg hp, if_pos (by simp [hs, hc, replied_sameCycle])]
  · rw [runs, safeStateRun, if_neg hp, if_neg (by rcases hk with h | h <;> simp [h, replied_sameCycle])]

/-- The ports that PORT_QUIET changes: those without the hold on an enter; on a release those with it, but for one that another source
enters in the same keeper cycle. -/
def quietChanged (s : State) (r : Req) : List Nat :=
  let on := p8 r 0 == 1
  (portMask r 4).filter fun p => (s.port p).quietHold != on && (on || !sameCycle s r (s.port p).quietAt)

theorem quietChanged_replied (c : Cmd) (r : Req) (s : State) (st : Status) (d : List Byte) :
    quietChanged (replied c r s st d) r = quietChanged s r :=
  field_of_restoreHeard (fun t => quietChanged t r) rfl (restoreHeard_replied c r s st d)

theorem portQuiet_run (s : State) (r : Req) : (portQuietCmd.run s r).1 =
    let on := p8 r 0 == 1
    let noted := if on then eachN s (portMask r 4) fun s p => s.updPort p fun x => { x with quietAt := some (s.keeper, sn r) }
      else s
    let s1 := eachN noted (quietChanged s r) fun s p =>
      let s0 := s.updPort p fun x => { x with quietHold := on }
      if on then quietPort s0 p 5 else leaveQuiet s0 p
    if (quietChanged s r).isEmpty then noted else overrideChanged s1 1 (b2n on) := rfl

theorem portQuiet_taken (r : Req) (s : State) (h : Taken portQuietCmd r s) :
    let s0 := replied portQuietCmd r s .ok []
    let on := (portMask r 4).filter fun p => !(s.port p).quietHold
    let off := (portMask r 4).filter fun p => (s.port p).quietHold && !sameCycle s r (s.port p).quietAt
    let noted := eachN s0 (portMask r 4) fun s p => s.updPort p fun x => { x with quietAt := some (s.keeper, sn r) }
    (p8 r 0 = 1 → exec (.portQuiet r) s = .next (reachHeld (if on.isEmpty then noted else overrideChanged
      (eachN noted on fun s p => quietPort (s.updPort p fun x => { x with quietHold := true }) p 5) 1 1))) ∧
    (p8 r 0 ≠ 1 → exec (.portQuiet r) s = .next (reachHeld (if off.isEmpty then s0 else overrideChanged
      (eachN s0 off fun s p => leaveQuiet (s.updPort p fun x => { x with quietHold := false }) p) 1 0))) := by
  have runs : exec (.portQuiet r) s = .next (reachHeld (portQuietCmd.run (replied portQuietCmd r s .ok []) r).1) :=
    exec_override rfl rfl h
  refine ⟨fun hp => ?_, fun hp => ?_⟩
  · have changed : quietChanged s r = (portMask r 4).filter fun p => !(s.port p).quietHold := by simp [quietChanged, hp]
    rw [runs, portQuiet_run, quietChanged_replied, changed]
    simp only [hp, beq_self_eq_true, if_true, b2n]
  · have release : (p8 r 0 == 1) = false := by simpa using hp
    have changed : quietChanged s r =
        (portMask r 4).filter fun p => (s.port p).quietHold && !sameCycle s r (s.port p).quietAt := by
      simp [quietChanged, release]
    rw [runs, portQuiet_run, quietChanged_replied, changed]
    simp only [release, Bool.false_eq_true, if_false, b2n]

theorem domainReset_taken (r : Req) (s : State) (h : Taken domainResetCmd r s) : exec (.domainReset r) s =
    .next (askReset (heard r s) (tw r) 3 false (some (waiterOf 0xF003 r, 0)) (some r)) := by
  rw [exec_taken rfl h, execCmd_of_late rfl]
  rfl

/-- Some job holds the target of the request. -/
def targetHeld (s : State) (r : Req) : Bool := s.rst.jobs.any fun j => j.target == tw r && j.hold

/-- RESET_BLOCK and RESET_DOMAIN: a reset and the release of what is held are accepted, another release is OK at once (R574). -/
theorem resetRun_taken {i : Instr} {c : Cmd} {r : Req} {s : State} {op reach : Nat} (hi : exec i s = .next (serve c r s))
    (hc : c.run = resetRun op reach) (h : Taken c r s) :
    (p8 r 0 ≠ 3 → exec i s = .next (askReset (replied c r s .accepted []) (tw r) reach (p8 r 0 == 2)
      (some (waiterOf op r, if p8 r 0 = 2 then 1 else 0)) none)) ∧
    (p8 r 0 = 3 → targetHeld s r = true → exec i s =
      .next (askRelease (replied c r s .accepted []) (tw r) (some (waiterOf op r, 2)))) ∧
    (p8 r 0 = 3 → targetHeld s r = false → exec i s = .next (unrecordHold (replied c r s .ok []) (tw r))) := by
  have heardHeld : targetHeld (heard r s) r = targetHeld s r := by rw [targetHeld, heard_rst, targetHeld]
  have repliedHeld : ∀ st, targetHeld (replied c r s st []) r = targetHeld s r := fun st => by
    rw [targetHeld, replied_rst, targetHeld]
  have run : ∀ t, resetRun op reach t r =
      if p8 r 0 = 3 then
        if targetHeld t r then (askRelease t (tw r) (some (waiterOf op r, 2)), some (.accepted, []))
        else (unrecordHold t (tw r), some (.ok, []))
      else (askReset t (tw r) reach (p8 r 0 == 2) (some (waiterOf op r, if p8 r 0 = 2 then 1 else 0)) none,
        some (.accepted, [])) := fun _ => rfl
  refine ⟨fun hp => ?_, fun hp ht => ?_, fun hp ht => ?_⟩
  · rw [exec_taken hi h, execCmd_of_answer (by rw [hc, run, if_neg hp]), hc, run, if_neg hp]
  · rw [exec_taken hi h, execCmd_of_answer (by rw [hc, run, if_pos hp, heardHeld, ht, if_pos rfl]), hc, run, if_pos hp,
      repliedHeld, ht, if_pos rfl]
  · rw [exec_taken hi h, execCmd_of_answer (by rw [hc, run, if_pos hp, heardHeld, ht, if_neg Bool.false_ne_true]), hc, run,
      if_pos hp, repliedHeld, ht, if_neg Bool.false_ne_true]

theorem portModeSet_taken (r : Req) (s : State) (h : Taken portModeSetCmd r s) : (atBoundary (heard r s) (ti r) = true →
    exec (.portModeSet r) s = .next (closeWaiter (modeNow (replied portModeSetCmd r s .accepted []) (ti r) r) (waiterOf 0x1001 r)
      (tw r) .ok)) ∧ (atBoundary (heard r s) (ti r) = false →
    exec (.portModeSet r) s = .next { replied portModeSetCmd r s .accepted [] with
      modeJobs := (replied portModeSetCmd r s .accepted []).modeJobs ++ [{ req := r }] }) := by
  have run : ∀ t, portModeSetCmd.run t r =
      if atBoundary t (ti r) then (closeWaiter (modeNow t (ti r) r) (waiterOf 0x1001 r) (tw r) .ok, some (.accepted, []))
      else ({ t with modeJobs := t.modeJobs ++ [{ req := r }] }, some (.accepted, [])) := fun t =>
    if_neg (by simp [staged_of_taken h])
  refine ⟨fun hb => ?_, fun hb => ?_⟩
  · have after : atBoundary (replied portModeSetCmd r s .accepted []) (ti r) = true := by
      rw [replied_atBoundary, ← heard_atBoundary, hb]
    rw [exec_taken rfl h, execCmd_of_answer (by rw [run, if_pos hb]), run, if_pos after]
  · have after : ¬atBoundary (replied portModeSetCmd r s .accepted []) (ti r) = true := by
      rw [replied_atBoundary, ← heard_atBoundary, hb]
      exact Bool.false_ne_true
    rw [exec_taken rfl h, execCmd_of_answer (by rw [run, if_neg (by simp [hb])]), run, if_neg after]

theorem anchorControl_taken (r : Req) (s : State) (h : Taken anchorControlCmd r s) :
    (∀ m, p8 r 0 = 1 → (s.port (ti r)).health.margin = some m → exec (.anchorControl r) s =
      .next (captureAnchor (replied anchorControlCmd r s .ok []) (ti r) m)) ∧
    (p8 r 0 = 2 → exec (.anchorControl r) s = .next (
      let s1 := updDsp (heard r s) (ti r) fun d => { d with revertBy := d.revertBy ++ [r] }
      if streamAbsent s (ti r) then revertNow s1 (ti r) else s1)) ∧
    (p8 r 0 = 3 → exec (.anchorControl r) s = .next (updDsp (replied anchorControlCmd r s .ok []) (ti r) fun d =>
      { d with anchor := none })) := by
  have capture : ∀ t, p8 r 0 = 1 → anchorControlCmd.run t r = (match (t.port (ti r)).health.margin with
      | some m => captureAnchor t (ti r) m
      | none => t, some (.ok, [])) := fun t hp => if_pos hp
  have revert : ∀ t, p8 r 0 = 2 → anchorControlCmd.run t r =
      (let s1 := updDsp t (ti r) fun d => { d with revertBy := d.revertBy ++ [r] }
       if streamAbsent t (ti r) then revertNow s1 (ti r) else s1, none) := fun t hp =>
    (if_neg (by rw [hp]; decide)).trans (if_pos hp)
  have forget : ∀ t, p8 r 0 = 3 → anchorControlCmd.run t r =
      (updDsp t (ti r) fun d => { d with anchor := none }, some (.ok, [])) := fun t hp =>
    (if_neg (by rw [hp]; decide)).trans (if_neg (by rw [hp]; decide))
  refine ⟨fun m hp hm => ?_, fun hp => ?_, fun hp => ?_⟩
  · rw [exec_taken rfl h, execCmd_of_answer (by rw [capture _ hp]), capture _ hp]
    simp only [replied_port, hm]
  · rw [exec_taken rfl h, execCmd_of_late (by rw [revert _ hp]), revert _ hp, heard_streamAbsent]
  · rw [exec_taken rfl h, execCmd_of_answer (by rw [forget _ hp]), forget _ hp]

/-- The ports of the mask that PORT_SLACK moves: those that are not yet where it asks (R362). -/
def slackLeft (s : State) (r : Req) : List Nat := (portMask r 4).filter fun p => ((s.port p).st == .slack) != (p8 r 0 == 1)

theorem portSlack_run (s : State) (r : Req) : portSlackCmd.run s r =
    if (portMask r 4).isEmpty then (s, some (.ok, []))
    else if (slackLeft s r).isEmpty then (closeWaiter s (waiterOf 0x1602 r) 0 .ok, some (.accepted, []))
    else
      let s1 := updPower s fun p => { p with slackJobs := p.slackJobs ++ [{ waiter := waiterOf 0x1602 r, left := slackLeft s r }] }
      (eachN s1 (slackLeft s r) fun s p => if p8 r 0 == 1 then slackRequest s p 1 else wakePort s p 2, some (.accepted, [])) :=
  rfl

theorem portSlack_taken (r : Req) (s : State) (h : Taken portSlackCmd r s) :
    let left := (portMask r 4).filter fun p => ((s.port p).st == .slack) != (p8 r 0 == 1)
    (portMask r 4 = [] → exec (.portSlack r) s = .next (replied portSlackCmd r s .ok [])) ∧
    (portMask r 4 ≠ [] → left = [] → exec (.portSlack r) s =
      .next (closeWaiter (replied portSlackCmd r s .accepted []) (waiterOf 0x1602 r) 0 .ok)) ∧
    (left ≠ [] → exec (.portSlack r) s = .next (
      let s1 := updPower (replied portSlackCmd r s .accepted []) fun p =>
        { p with slackJobs := p.slackJobs ++ [{ waiter := waiterOf 0x1602 r, left }] }
      eachN s1 left fun s p => if p8 r 0 = 1 then slackRequest s p 1 else wakePort s p 2)) := by
  have heardLeft : slackLeft (heard r s) r = slackLeft s r :=
    field_of_restoreHeard (fun t => slackLeft t r) rfl (restoreHeard_heard r s)
  have repliedLeft : ∀ st, slackLeft (replied portSlackCmd r s st []) r = slackLeft s r := fun st =>
    field_of_restoreHeard (fun t => slackLeft t r) rfl (restoreHeard_replied portSlackCmd r s st [])
  refine ⟨fun hm => ?_, fun hm hl => ?_, fun hl => ?_⟩
  · have empty : (portMask r 4).isEmpty = true := by rw [hm]; rfl
    rw [exec_taken rfl h, execCmd_of_answer (by rw [portSlack_run, if_pos empty]), portSlack_run, if_pos empty]
  · have asked : ¬(portMask r 4).isEmpty = true := by simpa using hm
    have noneLeft : (slackLeft s r).isEmpty = true := List.isEmpty_iff.mpr hl
    rw [exec_taken rfl h, execCmd_of_answer (by rw [portSlack_run, if_neg asked, heardLeft, if_pos noneLeft]), portSlack_run,
      if_neg asked, repliedLeft, if_pos noneLeft]
  · have asked : ¬(portMask r 4).isEmpty = true := fun he => hl (by simp [List.isEmpty_iff.mp he])
    have portsLeft : ¬(slackLeft s r).isEmpty = true := fun he => hl (List.isEmpty_iff.mp he)
    rw [exec_taken rfl h, execCmd_of_answer (by rw [portSlack_run, if_neg asked, heardLeft, if_neg portsLeft]), portSlack_run,
      if_neg asked, repliedLeft, if_neg portsLeft]
    simp only [beq_iff_eq]
    rfl

/-- SLICE_GATE and ISLAND_GATE (R443, R534, R546): a gate that is asked for already is OK at once, a slice drains before its reply, another
island's request is noted, and an ungate takes effect at once. -/
theorem gateRun_taken {i : Instr} {c : Cmd} {r : Req} {s : State} {op n : Nat} (hi : exec i s = .next (serve c r s))
    (hc : ∀ t, c.run t r = gateRun t op r n) (h : Taken c r s) :
    (p8 r 0 = 1 → gateAsked s n = true → exec i s = .next (replied c r s .ok [])) ∧
    (p8 r 0 = 1 → gateAsked s n = false → ¬(24 ≤ n ∧ n < 28) → exec i s =
      .next (updClk (replied c r s .ok []) fun c => { c with gateReq := setBit c.gateReq n })) ∧
    (p8 r 0 = 1 → gateAsked s n = false → 24 ≤ n ∧ n < 28 → exec i s = .next (
      let s1 := (heard r s).updSlice (n - 24) fun x => { x with stopped := true }
      { s1 with rst := { s1.rst with gating := s1.rst.gating ++ [(n - 24, op, r, false)] } })) ∧
    (p8 r 0 ≠ 1 → exec i s = .next (ungateIsland (replied c r s .ok []) n)) := by
  have asked : ∀ t, p8 r 0 = 1 → gateAsked t n = true → c.run t r = (t, some (.ok, [])) := fun t hp ha => by
    rw [hc, gateRun, if_pos hp, gateIsland, if_pos ha]
  have noted : ∀ t, p8 r 0 = 1 → gateAsked t n = false → ¬(24 ≤ n ∧ n < 28) →
      c.run t r = (updClk t fun c => { c with gateReq := setBit c.gateReq n }, some (.ok, [])) := fun t hp ha hn => by
    rw [hc, gateRun, if_pos hp, gateIsland, if_neg (by simp [ha]), if_neg hn]
  have drains : ∀ t, p8 r 0 = 1 → gateAsked t n = false → 24 ≤ n ∧ n < 28 → c.run t r =
      (let s1 := t.updSlice (n - 24) fun x => { x with stopped := true }
       ({ s1 with rst := { s1.rst with gating := s1.rst.gating ++ [(n - 24, op, r, false)] } }, none)) := fun t hp ha hn => by
    rw [hc, gateRun, if_pos hp, gateIsland, if_neg (by simp [ha]), if_pos hn]
  have ungates : ∀ t, p8 r 0 ≠ 1 → c.run t r = (ungateIsland t n, some (.ok, [])) := fun t hp => by
    rw [hc, gateRun, if_neg hp]
  refine ⟨fun hp ha => ?_, fun hp ha hn => ?_, fun hp ha hn => ?_, fun hp => ?_⟩
  · rw [exec_taken hi h, execCmd_of_answer (by rw [asked _ hp (by rwa [heard_gateAsked])]),
      asked _ hp (by rwa [replied_gateAsked])]
  · rw [exec_taken hi h, execCmd_of_answer (by rw [noted _ hp (by rwa [heard_gateAsked]) hn]),
      noted _ hp (by rwa [replied_gateAsked]) hn]
  · rw [exec_taken hi h, execCmd_of_late (by rw [drains _ hp (by rwa [heard_gateAsked]) hn]),
      drains _ hp (by rwa [heard_gateAsked]) hn]
  · rw [exec_taken hi h, execCmd_of_answer (by rw [ungates _ hp]), ungates _ hp]

theorem sliceGate_taken (r : Req) (s : State) (h : Taken sliceGateCmd r s) :
    (p8 r 0 = 1 → gateAsked s (24 + ti r) = true → exec (.sliceGate r) s = .next (replied sliceGateCmd r s .ok [])) ∧
    (p8 r 0 = 1 → gateAsked s (24 + ti r) = false → exec (.sliceGate r) s = .next (
      let s1 := (heard r s).updSlice (ti r) fun x => { x with stopped := true }
      { s1 with rst := { s1.rst with gating := s1.rst.gating ++ [(ti r, 0x3020, r, false)] } })) ∧
    (p8 r 0 ≠ 1 → exec (.sliceGate r) s = .next (ungateIsland (replied sliceGateCmd r s .ok []) (24 + ti r))) := by
  obtain ⟨asked, _, drains, ungates⟩ := gateRun_taken (i := .sliceGate r) (n := 24 + ti r) rfl (fun _ => rfl) h
  have slice : ti r < 4 := by
    obtain ⟨_, _, _, _, _, _, _, _, ht, _⟩ := h
    exact of_decide_eq_true (Bool.and_eq_true_iff.mp ht).2
  rw [Nat.add_sub_cancel_left] at drains
  exact ⟨asked, fun hp ha => drains hp ha ⟨by omega, by omega⟩, ungates⟩

theorem islandGate_taken (r : Req) (s : State) (h : Taken islandGateCmd r s) :
    (p8 r 0 = 1 → gateAsked s (ti r) = true → exec (.islandGate r) s = .next (replied islandGateCmd r s .ok [])) ∧
    (p8 r 0 = 1 → gateAsked s (ti r) = false → ¬(24 ≤ ti r ∧ ti r < 28) → exec (.islandGate r) s =
      .next (updClk (replied islandGateCmd r s .ok []) fun c => { c with gateReq := setBit c.gateReq (ti r) })) ∧
    (p8 r 0 = 1 → gateAsked s (ti r) = false → 24 ≤ ti r ∧ ti r < 28 → exec (.islandGate r) s = .next (
      let s1 := (heard r s).updSlice (ti r - 24) fun x => { x with stopped := true }
      { s1 with rst := { s1.rst with gating := s1.rst.gating ++ [(ti r - 24, 0x5005, r, false)] } })) ∧
    (p8 r 0 ≠ 1 → exec (.islandGate r) s = .next (ungateIsland (replied islandGateCmd r s .ok []) (ti r))) :=
  gateRun_taken rfl (fun _ => rfl) h

theorem selftestRun_taken (pre : Precond) (r : Req) (s : State) (h : Taken (selftestRunCmd pre) r s) :
    (precondFail s (testIsland (tw r)) pre = none → exec (.selftestRun r pre) s = .next (
      let s1 := setTest (replied (selftestRunCmd pre) r s .accepted []) (tw r) (some {
        kind := p8 r 0, flags := p8 r 1, stage := 1, completed := 0, forced := false, waiter := waiterOf 0x8001 r, ended := none })
      if tgtDom (tw r) = 7 then s1.updSlice (ti r) fun x => { x with stopped := true } else s1)) ∧
    (∀ cause d, precondFail s (testIsland (tw r)) pre = some (cause, d) → exec (.selftestRun r pre) s = .next (
      let s1 := replied (selftestRunCmd pre) r s .bistRefused d
      { s1 with stest := { s1.stest with refusal := s1.stest.refusal.set 0 (tw r) cause } })) := by
  have run : ∀ t, (selftestRunCmd pre).run t r = match precondFail t (testIsland (tw r)) pre with
      | some (cause, d) =>
        ({ t with stest := { t.stest with refusal := t.stest.refusal.set 0 (tw r) cause } }, some (.bistRefused, d))
      | none =>
        let s1 := setTest t (tw r) (some {
          kind := p8 r 0, flags := p8 r 1, stage := 1, completed := 0, forced := false, waiter := waiterOf 0x8001 r, ended := none })
        (if tgtDom (tw r) = 7 then s1.updSlice (ti r) fun x => { x with stopped := true } else s1, some (.accepted, [])) :=
    fun _ => rfl
  refine ⟨fun hn => ?_, fun cause d hn => ?_⟩
  · rw [exec_taken rfl h, execCmd_of_answer (by rw [run, heard_precondFail, hn]), run, replied_precondFail, hn]
  · rw [exec_taken rfl h, execCmd_of_answer (by rw [run, heard_precondFail, hn]), run, replied_precondFail, hn]

theorem repairFuse_taken (pre : Precond) (r : Req) (s : State) (h : Taken (repairFuseCmd pre) r s) :
    (p32 r 0 = 0 → exec (.repairFuse r pre) s = .next (replied (repairFuseCmd pre) r s .ok [])) ∧
    (p32 r 0 ≠ 0 → exec (.repairFuse r pre) s = .next (
      let s1 := replied (repairFuseCmd pre) r s .accepted []
      { s1 with stest := { s1.stest with fuseJob := some (ti r, p32 r 0, waiterOf 0x8011 r) } })) := by
  have noBank : ∀ t, p32 r 0 = 0 → (repairFuseCmd pre).run t r = (t, some (.ok, [])) := fun t hp => if_pos hp
  have banks : ∀ t, p32 r 0 ≠ 0 → (repairFuseCmd pre).run t r =
      ({ t with stest := { t.stest with fuseJob := some (ti r, p32 r 0, waiterOf 0x8011 r) } }, some (.accepted, [])) :=
    fun t hp => if_neg hp
  refine ⟨fun hp => ?_, fun hp => ?_⟩
  · rw [exec_taken rfl h, execCmd_of_answer (by rw [noBank _ hp]), noBank _ hp]
  · rw [exec_taken rfl h, execCmd_of_answer (by rw [banks _ hp]), banks _ hp]


/-! ### The opcodes by family -/

/-- Settles O27: each opcode by the rule of its form. -/
theorem hostSessionCommands : Obligations.HostSessionCommands :=
  ⟨reads_of_run, reads_of_run, reads_of_run, reads_of_run, reads_of_run, does_of_run, does_of_run, does_of_run, does_of_run,
    reads_of_run, does_of_run, reads_of_run⟩

/-- Settles O28: each opcode by the rule of its form. -/
theorem keyAndEpochCommands : Obligations.KeyAndEpochCommands :=
  ⟨does_of_run, does_of_run, does_of_run, answers_of_run, accepts_of_run, does_of_run, reads_of_run, accepts_of_run⟩

/-- Settles O29: each opcode by the rule of its form, those whose effect depends on the state by their cases. -/
theorem overrideAndResetCommands : Obligations.OverrideAndResetCommands :=
  ⟨safeState_taken, portQuiet_taken, domainReset_taken, does_of_run, fun _ _ h => resetRun_taken rfl rfl h,
    fun _ _ h => resetRun_taken rfl rfl h, reads_of_run, reads_of_run, does_of_run, reads_of_run, does_of_run, does_of_run⟩

/-- Settles O30: each opcode by the rule of its form. -/
theorem integrityCommands : Obligations.IntegrityCommands :=
  ⟨does_of_run, reads_of_run, answers_of_run, reads_of_run, reads_of_run, does_of_run, does_of_run⟩

/-- Settles O31: each opcode by the rule of its form, those whose effect depends on the state by their cases. -/
theorem portCommands : Obligations.PortCommands :=
  ⟨portModeSet_taken, reads_of_run, does_of_run, reads_of_run, reads_of_run, does_of_run, reads_of_run, does_of_run,
    reads_of_run, reads_of_run, does_of_run, reads_of_run, does_of_run, does_of_run⟩

/-- Settles O32: each opcode by the rule of its form, those whose effect depends on the state by their cases. -/
theorem vs50AndDspCommands : Obligations.Vs50AndDspCommands :=
  ⟨does_of_run, reads_of_run, reads_of_run, does_of_run, does_of_run, answers_of_run, does_of_run, reads_of_run, does_of_run,
    reads_of_run, reads_of_run, does_of_run, anchorControl_taken, reads_of_run, does_of_run, reads_of_run⟩

/-- Settles O33: each opcode by the rule of its form. -/
theorem multidropCommands : Obligations.MultidropCommands :=
  ⟨does_of_run, reads_of_run, reads_of_run, does_of_run, reads_of_run, does_of_run⟩

/-- Settles O34: each opcode by the rule of its form. -/
theorem healthCommands : Obligations.HealthCommands :=
  ⟨does_of_run, reads_of_run, reads_of_run, does_of_run, does_of_run, accepts_of_run, reads_of_run, reads_of_run, does_of_run,
    reads_of_run, does_of_run, accepts_of_run, reads_of_run, reads_of_run⟩

/-- Settles O35: each opcode by the rule of its form, those whose effect depends on the state by their cases. -/
theorem powerCommands : Obligations.PowerCommands :=
  ⟨does_of_run, portSlack_taken, reads_of_run, accepts_of_run, reads_of_run, does_of_run, reads_of_run, does_of_run⟩

/-- Settles O36: each opcode by the rule of its form. -/
theorem hostLinkCommands : Obligations.HostLinkCommands :=
  ⟨does_of_run, does_of_run, does_of_run, does_of_run, accepts_of_run, does_of_run, reads_of_run, reads_of_run, reads_of_run,
    does_of_run, reads_of_run, does_of_run, accepts_of_run, reads_of_run⟩

/-- Settles O37: each opcode by the rule of its form, those whose effect depends on the state by their cases. -/
theorem fabricCommands : Obligations.FabricCommands :=
  ⟨does_of_run, reads_of_run, does_of_run, does_of_run, does_of_run, does_of_run, reads_of_run, reads_of_run, does_of_run,
    reads_of_run, does_of_run, sliceGate_taken⟩

/-- Settles O38: each opcode by the rule of its form, those whose effect depends on the state by their cases. -/
theorem streamCommands : Obligations.StreamCommands :=
  ⟨does_of_run, streamEntryWrite_taken, does_of_run, reads_of_run, reads_of_run, reads_of_run, does_of_run, does_of_run,
    does_of_run, does_of_run, does_of_run, reads_of_run, does_of_run, does_of_run, does_of_run, reads_of_run, does_of_run,
    reads_of_run, does_of_run⟩

/-- Settles O39: each opcode by the rule of its form. -/
theorem gateAndTimeCommands : Obligations.GateAndTimeCommands :=
  ⟨does_of_run, does_of_run, reads_of_run, reads_of_run, does_of_run, reads_of_run, reads_of_run, does_of_run, reads_of_run,
    does_of_run, does_of_run, does_of_run, reads_of_run, reads_of_run, does_of_run, reads_of_run⟩

/-- Settles O40: each opcode by the rule of its form. -/
theorem tideTableCommands : Obligations.TideTableCommands :=
  ⟨does_of_run, does_of_run, does_of_run, does_of_run, does_of_run, does_of_run, does_of_run, reads_of_run, does_of_run,
    reads_of_run, reads_of_run, does_of_run, reads_of_run, does_of_run⟩

/-- Settles O41: each opcode by the rule of its form, those whose effect depends on the state by their cases. -/
theorem clockAndCalibrationCommands : Obligations.ClockAndCalibrationCommands :=
  ⟨reads_of_run, does_of_run, does_of_run, islandGate_taken, does_of_run, reads_of_run, does_of_run, does_of_run,
    accepts_of_run, reads_of_run, accepts_of_run, reads_of_run, does_of_run⟩

/-- Settles O42: each opcode by the rule of its form. -/
theorem nvmCommands : Obligations.NvmCommands :=
  ⟨reads_of_run, reads_of_run, does_of_run, answers_of_run, does_of_run, answers_of_run, accepts_of_run, does_of_run,
    reads_of_run, does_of_run⟩

/-- Settles O43: each opcode by the rule of its form, those whose effect depends on the state by their cases. -/
theorem selfTestCommands : Obligations.SelfTestCommands :=
  ⟨selftestRun_taken, reads_of_run, does_of_run, reads_of_run, reads_of_run, repairFuse_taken, does_of_run, does_of_run,
    reads_of_run, does_of_run⟩

end Sys2Proof.Machine
end

section
/-! PROOFS about the events of the start-up (R548 to R572) and of the control path (R39, R40, R60 to R69): clause by clause, the row's
action under the conditions that the clause states. -/

namespace Sys2Proof.Machine

/-- Settles O44: each row of power, of a reset or of the start acts under the conditions that its clause states. -/
theorem startUpEvents : Obligations.StartUpEvents := by
  intro s
  refine ⟨?_, ?_, ?_, ?_, ?_, ?_, ?_, ?_, ?_, ?_, ?_, ?_, ?_, ?_, ?_, ?_, ?_, ?_⟩
  · show execPowerOnRelease s = _
    simp [execPowerOnRelease]
  · intro por h1
    have acts : (!por && startHolds s 0) = false := by rcases h1 with h | h <;> simp [h]
    show execColdResetAssert por s = _
    simp only [execColdResetAssert, acts, Bool.false_eq_true, if_false]
  · intro h1
    show execColdResetAssert false s = _
    simp [execColdResetAssert, recordDue, h1]
  · intro h1 h2 h3
    show execPinResetAssert s = _
    simp [execPinResetAssert, h1, h2, h3]
  · intro h1 h2
    have released : s.rst.asserted = false := by
      simp only [startHolds, Bool.and_eq_true, Bool.not_eq_true'] at h2
      exact h2.1.1.2
    show execPinResetAssert s = _
    simp [execPinResetAssert, recordDue, h1, h2, released]
  · intro b h1 h2 h3
    show execColdStart b s = _
    simp [execColdStart, h1, h2, h3]
  · intro b h1 h2
    show execColdStart b s = _
    simp [execColdStart, h1, h2]
  · intro b h1 h2 h3
    show execPinStart b s = _
    simp [execPinStart, h1, h2, h3]
  · intro h1 h2 h3 h4 h5
    show execWarmResetAssert s = _
    simp [execWarmResetAssert, h1, h2, h3, h4, h5]
  · intro h1 h2
    show execWarmStart s = _
    simp [execWarmStart, h1, h2]
  · intro h1 h2 h3
    show execFuseLoadDone s = _
    simp [execFuseLoadDone, h1, h2, h3]
  · intro a b v slot h1 h2 h3 h4 h5 h6
    show execFirmwareSignatureDone a b v s = _
    simp [execFirmwareSignatureDone, h1, h2, h3, h4, h5, h6]
  · intro j h1 h2
    show execHeadlandResetRelease s = _
    simp [execHeadlandResetRelease, h1, h2]
  · intro h1 h2
    show execHeadlandReady s = _
    simp [execHeadlandReady, h1, h2]
  · intro j h1 h2 h3 h4
    show execHeadlandReady s = _
    simp [execHeadlandReady, h1, h2, h3, h4]
  · intro h1 h2
    show execWatchdogExpiry s = _
    simp [execWatchdogExpiry, h1, h2]
  · intro h1 h2
    show execStartupTimerExpiry s = _
    simp [execStartupTimerExpiry, h1, h2]
  · intro t j h1 h2 h3
    show execResetStartupDone t s = _
    simp only [execResetStartupDone, h1]
    rw [if_pos ⟨h2, h3⟩]

/-- A row at a block's open boundary, where no change of mode waits, is the commit's boundary. -/
theorem commitFirst_of_open {s : State} {b : Nat} (hb : boundaryOpen s b = true) (hm : modeJobsAt s b = []) :
    commitFirst s b = atCommitBoundary s b := by
  simp [commitFirst, hb, hm]

/-- Settles O45: a row of a commit is the commit's own boundary where no change of mode waits (`commitFirst_of_open`). -/
theorem controlEvents : Obligations.ControlEvents := by
  intro s
  refine ⟨?_, ?_, ?_, ?_, ?_, ?_, ?_, ?_, ?_, ?_, ?_, ?_⟩
  · show execMbxDoorbellRelease s = _
    simp [execMbxDoorbellRelease]
  · intro a bs h1
    show execRequestWindowWrite a bs s = _
    simp [execRequestWindowWrite, h1]
  · intro a bs h1
    show execRequestWindowWrite a bs s = _
    simp [execRequestWindowWrite, h1]
  · intro h1 h2 h3
    show execEventNotify s = _
    simp [execEventNotify, h1, h2, h3]
  · intro up
    show execManagementLaneLinkChange up s = _
    simp [execManagementLaneLinkChange]
  · intro h1 h2
    show execEpochIdleTimeout s = _
    simp [execEpochIdleTimeout, h1, h2]
  · intro h1
    show execCommitPrepareDone s = _
    simp [execCommitPrepareDone, h1]
  · intro b h1 h2 h3 h4 h5
    show execCommitBoundaryApply b s = _
    rw [execCommitBoundaryApply, commitFirst_of_open h1 h2]
    simp [atCommitBoundary, h3, h4, show b.toNat ∈ s.epoch.waiting by simpa using h5]
  · intro b h1 h2 h3 h4 h5
    show execCommitBoundaryApply b s = _
    rw [execCommitBoundaryApply, commitFirst_of_open h1 h2]
    simp [atCommitBoundary, h3, Option.isSome_iff_ne_none.mpr h4, show b.toNat ∈ s.epoch.applied by simpa using h5]
  · intro b h1 h2
    show execCommitBoundaryApply b s = _
    simp [execCommitBoundaryApply, commitFirst, modeJobsApply, h1, h2]
  · intro s1 h1 h2
    show execCommitTimeout none s = _
    exact congrArg Host.Outcome.next (if_pos ⟨h1, Option.isNone_iff_eq_none.mpr h2⟩)
  · intro p
    show execCommitTimeout (some p) s = _
    simp [execCommitTimeout]

end Sys2Proof.Machine
end

section
/-! PROOFS about the events of references, PLLs, islands and operating points (R521 to R543). -/

namespace Sys2Proof.Machine

/-- No demand of a window is above the greatest. -/
theorem le_greatest (s : State) {i k n : Nat} (h1 : k ≤ i) (h2 : i < k + n) : s.fabric.load.get 0 i ≤ greatest s k n := by
  have listed : s.fabric.load.get 0 i ∈ (List.range n).map fun j => s.fabric.load.get 0 (k + j) :=
    List.mem_map.mpr ⟨i - k, List.mem_range.mpr (by omega), by rw [Nat.add_sub_cancel' h1]⟩
  rw [greatest, List.foldl_eq_foldr]
  exact List.le_max_of_le' 0 listed (Nat.le_refl _)

/-- Settles O46: the load that counts is the greatest of the window (`le_greatest`); the other clauses are a row each. -/
theorem clockEvents : Obligations.ClockEvents := by
  intro s
  refine ⟨?_, ?_, ?_, ?_, ?_, ?_, ?_, ?_, ?_, ?_, ?_, ?_, ?_, ?_, ?_, ?_, ?_, ?_, ?_, ?_, ?_, ?_, ?_, ?_, ?_⟩
  · intro d h1 h2 h3
    show execPmbusWriteDone true d s = _
    simp [execPmbusWriteDone, h1, h2, h3]
  · intro d h1 h2 h3 h4
    show execPmbusWriteDone true d s = _
    simp [execPmbusWriteDone, h1, h2, h3, h4]
  · intro d h1 h2 h3 h4
    show execPmbusWriteDone true d s = _
    simp [execPmbusWriteDone, h1, h2, h3, h4]
  · intro d h1 h2 h3
    show execPmbusWriteDone true d s = _
    simp [execPmbusWriteDone, h1, h2, h3]
  · intro d h1 h2 h3
    show execPmbusWriteDone false d s = _
    simp [execPmbusWriteDone, h1, h2, h3]
  · intro mv h1 h2
    show execDvfsSettled mv s = _
    simp [execDvfsSettled, h1, h2]
  · intro mv t h1 h2 h3 h4 h5
    have up : ¬t.toPt < t.fromPt := by omega
    show execDvfsSettled mv s = _
    simp [execDvfsSettled, h1, h2, h3, h4, h5, up]
  · intro mv h1
    show execDvfsSettleTimeout mv s = _
    simp [execDvfsSettleTimeout, h1]
  · intro mv t h1 h2 h3
    show execDvfsSettleTimeout mv s = _
    simp [execDvfsSettleTimeout, h1, h2, h3]
  · intro h1
    show execLoadWindowEnd s = _
    simp [execLoadWindowEnd, h1]
  · intro h1 h2 h3 h4 h5 h6
    rw [h6] at h5
    show execLoadWindowEnd s = _
    simp [execLoadWindowEnd, h1, h2, h3, h4, h5, h6]
  · intro i k n h1 h2
    exact le_greatest s h1 h2
  · intro c st h1 h2 h3 h4 h5
    show execClockFail c st s = _
    simp [execClockFail, h1, h2, h3, h4, h5]
  · intro c st h1 h2 h3
    show execClockFail c st s = _
    simp [execClockFail, h1, h2, h3]
  · intro f h1 h2 h3
    show execLrefStable f s = _
    rcases h3 with h | h <;> simp [execLrefStable, h1, h2, h]
  · intro h1 h2 h3
    show execLrefStartTimeout s = _
    simp [execLrefStartTimeout, h1, h2, h3]
  · intro h1 h2 h3
    show execHrefPresent s = _
    simp [execHrefPresent, h1, h2, h3]
  · intro c h1 h2 h3 h4 h5
    have cove : ¬16 ≤ c.val ∧ c.val ≠ 24 := by omega
    show execPllLock c s = _
    simp [execPllLock, h2, h3, h4, h5, cove]
  · intro h1 h2 h3 h4 h5 h6
    show execPllLock 24 s = _
    simp [execPllLock, h1, h2, h3, h4, h5, h6]
  · intro c h1 h2
    show execClockReturn c s = _
    simp [execClockReturn, h1, h2]
  · intro i t h1 h2 h3 h4 h5
    show execClockForcedSwitch i s = _
    simp [execClockForcedSwitch, h1, h2, h3, h4, h5]
  · intro f h1 h2 h3
    show execKeeperFreqFault f s = _
    simp [execKeeperFreqFault, h1, h2, h3]
  · intro i h1 h2 h3 h4 h5
    have noSlice : ¬24 ≤ i.val := by omega
    show execIslandGateEffect i s = _
    simp [execIslandGateEffect, h1, h2, h3, h5, noSlice]
  · intro i h1 h2 h3 h4
    show execIslandGateEffect i s = _
    simp [execIslandGateEffect, h1, h2, h3, h4]
  · intro i
    show execBridgesOpen i s = _
    simp [execBridgesOpen]

end Sys2Proof.Machine
end

section
/-! PROOFS about the events of calibration (R581 to R606), of self-tests and drains (R612 to R623), and of the integrity chain (R513 to
R517). -/

namespace Sys2Proof.Machine

/-- Sensor 0 stands twice in the table of the sensors, which is not in its canonical form: the power-on reset state with port 0 up,
two entries of sensor 0 and the reference of cove 0 at 25 degrees. -/
def sensorListedTwice : State := { State.reset with
  ports := [(0, { st := .up })]
  calib := { sensors := [(0, 0), (0, 100)], refs := [(0, 100)] } }

/-- A reading of 0 takes the first entry of sensor 0 off, the second stands, and no run begins. -/
theorem tempTrigger_sensorListedTwice : exec (.undertowTempTrigger 0 0) sensorListedTwice =
    .next { sensorListedTwice with calib := { sensorListedTwice.calib with sensors := [(0, 100)] } } := rfl

/-- What O47 asks for where the sensors' table is in its canonical form: a reading far enough from the reference begins the runs. -/
theorem tempTrigger_of_wf {s : State} {k : Fin 24} {v : Int} (hw : Tab.wf 0 s.calib.sensors) (h1 : s.cfg.dev.calMode = 2)
    (h2 : 4 * s.cfg.dev.calDelta ≤ (v - s.calib.refs.get 0 k.val).natAbs) :
    exec (.undertowTempTrigger k v) s = .next (eachN
      { s with calib := { s.calib with sensors := s.calib.sensors.set 0 k.val v } } (sensorBlocks k.val) beginRun) := by
  show Host.Outcome.next (tempCompare _ _) = _
  rw [tempCompare]
  refine congrArg Host.Outcome.next (if_pos ⟨h1, ?_⟩)
  rwa [Tab.get_set_self hw]

/-- Refutes O47: its states need not hold their tables in canonical form. In `sensorListedTwice` the reading 0 lies 25 degrees from
the reference, so the statement has the runs of cove 0 begin; the model compares what the table then reads for the sensor, which is
the second entry, and begins none. In canonical form the clause holds: `tempTrigger_of_wf`. -/
theorem not_calibrationAndNvmEvents : ¬ Obligations.CalibrationAndNvmEvents := by
  intro h
  obtain ⟨-, begins, -⟩ := h sensorListedTwice
  have same := (begins 0 0 rfl (by decide)).symm.trans tempTrigger_sensorListedTwice
  have running : (sensorListedTwice.cal 0).running = true :=
    (congrArg (fun t : State => (t.cal 0).running) (Host.Outcome.next.inj same)).symm
  exact absurd running (by decide)

/-- Settles O48: the memory test of a start runs where the preconditions of all four slices hold; the other clauses are a row each. -/
theorem selfTestEvents : Obligations.SelfTestEvents := by
  intro s
  refine ⟨?_, ?_, ?_, ?_, ?_, ?_, ?_, ?_, ?_⟩
  · intro t o j h1 h2
    show execSelftestStepDone t o s = _
    simp [execSelftestStepDone, h1, h2]
  · intro t pre j h1 h2 h3
    show execSelftestPreconditionCheck t pre s = _
    simp [execSelftestPreconditionCheck, h1, h2, h3]
  · intro t h1
    show execDrainComplete t s = _
    simp [execDrainComplete, h1]
  · intro t
    show execDrainTimeout t s = _
    simp [execDrainTimeout]
  · intro pre sl b g h1 h2 h3 h4 h5
    have passed : ((List.range 4).findSome? fun i => precondFail s (24 + i) pre) = none :=
      List.findSome?_eq_none_iff.mpr fun i hi => h5 i (List.mem_range.mp hi)
    show execMemoryBistDone pre sl b g s = _
    simp [execMemoryBistDone, h1, h2, h3, h4, passed]
  · intro h1 h2
    show execRepairLogWriteDone true s = _
    simp [execRepairLogWriteDone, h1, h2]
  · intro h1 h2
    show execRepairLogWriteDone false s = _
    simp [execRepairLogWriteDone, h1, h2]
  · intro n i mask w h1
    show execAgentSequenceComplete n s = _
    simp [execAgentSequenceComplete, h1]
  · intro n h1 h2 h3
    show execAgentSequenceComplete n s = _
    simp [execAgentSequenceComplete, h1, h2, h3]

/-- Settles O49: each row of a rail, of a temperature, of the keepers or of the scrubber acts as its clause states. -/
theorem integrityEvents : Obligations.IntegrityEvents := by
  intro s
  refine ⟨?_, ?_, ?_, ?_, ?_, ?_, ?_, ?_, ?_, ?_⟩
  · intro k mv h1 h2 h3
    show execRailLimit k mv s = _
    simp [execRailLimit, h1, h2, h3]
  · intro k mv h1
    show execRailLimit k mv s = _
    simp [execRailLimit, h1]
  · intro k mv
    exact ⟨_, rfl, rfl, by simp⟩
  · intro k v h1 h2
    show execThermalLimit k v s = _
    simp [execThermalLimit, h1, h2]
  · intro w
    show execKeeperParity w s = _
    simp [execKeeperParity]
  · show execIntegrityWindowEnd s = _
    simp [execIntegrityWindowEnd]
  · intro e l h1 h2
    show execFaultRecordCopy true s = _
    simp [execFaultRecordCopy, h1, h2]
  · intro e l h1 h2
    show execFaultRecordCopy false s = _
    simp [execFaultRecordCopy, h1, h2]
  · intro b r n h1 h2
    show execScrubRead b r n false false true s = _
    simp [execScrubRead, h1, h2]
  · intro b r n live h1 h2
    show execScrubRead b r n true live false s = _
    simp [execScrubRead, h1, h2]

end Sys2Proof.Machine
end

section
/-! PROOFS about the events of VS50 (R134 to R170). A port with a resolved mode is not at its reset value, so it reads as it was set. -/

namespace Sys2Proof.Machine

/-- A live port sends no idle test pattern. -/
theorem idleTest_of_portLive {s : State} {p : Nat} (h : portLive s p = true) : idleTest (s.port p) = false := by
  rcases (by simpa [portLive] using h : (s.port p).st = .up ∨ (s.port p).st = .lpi) with h | h <;> simp [idleTest, h]

/-- A live port does not loop its far end back. -/
theorem farEnd_of_portLive {s : State} {p : Nat} (h : portLive s p = true) : farEnd (s.port p) = false := by
  rcases (by simpa [portLive] using h : (s.port p).st = .up ∨ (s.port p).st = .lpi) with h | h <;> simp [farEnd, h]

/-- A port with a resolved mode is not at its reset value, so it reads as it was set. -/
theorem port_updPort_of_resMode {s : State} {p : Nat} {f : Port → Port} (h : (f (s.port p)).resMode ≠ 0) :
    (s.updPort p f).port p = f (s.port p) :=
  port_updPort_self fun e => h (congrArg Port.resMode e)

/-- The VS50 part of a port with a resolved mode reads as it was set. -/
theorem port_updVs_of_resMode {s : State} {p : Nat} {f : Vs50 → Vs50} (h : (s.port p).resMode ≠ 0) :
    (updVs s p f).port p = { s.port p with vs := f (s.port p).vs } :=
  port_updPort_of_resMode h

/-- The header's flags leave the resolved mode, the lock and the count of valid headers as they were. -/
theorem headerFlags_lock {s : State} {p : Nat} {h : Vs50Hdr} (hm : (s.port p).resMode ≠ 0) :
    ((headerFlags s p h).port p).resMode = (s.port p).resMode ∧
      ((headerFlags s p h).port p).vs.lock = (s.port p).vs.lock ∧
      ((headerFlags s p h).port p).vs.confirm = (s.port p).vs.confirm := by
  unfold headerFlags
  extract_lets v s1 s2
  have same : s2.port p = s.port p := by
    simp only [s2, s1]
    split <;> split <;> simp
  rw [port_updPort_of_resMode (by rw [same]; exact hm), same]
  exact ⟨rfl, rfl, rfl⟩

/-- Settles O51: a valid header counts towards lock, since its flags leave the lock's count alone (`headerFlags_lock`). -/
theorem vs50Events : Obligations.Vs50Events := by
  intro p s
  refine ⟨?_, ?_, ?_, ?_, ?_, ?_, ?_, ?_, ?_, ?_, ?_, ?_, ?_, ?_, ?_, ?_, ?_, ?_⟩
  · intro hdr region margin h1 h2 h3
    show execVs50FrameRx p hdr region margin s = _
    simp [execVs50FrameRx, h1, h2, h3]
  · intro hdr region margin h1 h2 h3 h4 h5
    show execVs50FrameRx p hdr region margin s = _
    simp [execVs50FrameRx, h1, h2, h3, h4, h5]
  · intro hdr region margin h h1 h2 h3 h4 h5
    have valid : execVs50FrameRx p hdr region margin s = .next (updVs (headerFlags s p h) p fun v => { v with
        confirm := v.confirm + 1, lock := if v.confirm + 1 = 4 then 2 else 1 }) := by
      simp [execVs50FrameRx, h1, h2, h3, h4, h5]
    obtain ⟨mode, -, confirm⟩ := headerFlags_lock (s := s) (p := p.val) (h := h) (by omega)
    refine ⟨_, valid, ?_⟩
    rw [port_updVs_of_resMode (by omega), confirm]
    simp
  · intro hdr region margin h1 h2 h3 h4 h5
    show execVs50FrameRx p hdr region margin s = _
    simp [execVs50FrameRx, h1, h2, h3, h4, h5]
  · intro words type phase h1 h2 h3 s1 h4
    show execVs50FrameTx p words s = _
    simp only [execVs50FrameTx, h1, h2, h3, idleTest_of_portLive h2, farEnd_of_portLive h2, Bool.false_eq_true, and_false,
      or_self, if_false, ne_eq, not_true, Bool.or_true, Bool.not_true]
    rw [show txKind (wantAmp (applyAnnounced (updVs s p fun v => { v with txWords := v.txWords ++ words }) p) p) p = _ from h4]
  · intro words h1
    show execVs50FrameTx p words s = _
    simp [execVs50FrameTx, h1]
  · intro h1 h2 h3 h4
    show execLpiSleepEntry p s = _
    simp [execLpiSleepEntry, h1, h2, h3, h4]
  · intro h1 h2 h3
    show execLpiSleepEnd p s = _
    simp [execLpiSleepEnd, h1, h2, h3]
  · intro h1 h2 h3
    show execLpiQuietEnd p s = _
    simp [execLpiQuietEnd, h1, h2, h3]
  · intro h1 h2 h3
    show execLpiRefreshEnd p s = _
    simp [execLpiRefreshEnd, h1, h2, h3]
  · intro h1 h2
    show execLpiWakeStart p s = _
    simp [execLpiWakeStart, h1, h2]
  · intro h1 h2 h3
    show execLpiWakeEnd p s = _
    simp [execLpiWakeEnd, h1, h2, h3]
  · intro h1 h2 h3 h4
    show execRefreshMissed p s = _
    simp [execRefreshMissed, h1, h2, h3, h4]
  · intro h1 h2 h3 h4
    show execRefreshMissed p s = _
    simp [execRefreshMissed, h1, h2, h3, h4]
  · intro h1 h2 h3
    show execPartnerRfTimeout p s = _
    simp [execPartnerRfTimeout, h1, h2, h3]
  · intro h1
    show execOamStatusSend p s = _
    simp [execOamStatusSend, h1]
  · intro w lost h1 h2
    show execOamWordRx p s = _
    simp [execOamWordRx, h1, h2]
  · intro w h1 h2 h3 h4 h5
    show execOamWordRx p s = _
    simp [execOamWordRx, h1, h2, h3, h4, h5]

end Sys2Proof.Machine
end

section
/-! PROOFS about the events of the receive signal processing (R171 to R216). A port whose adaptation has begun is not at its reset
value, so it reads as it was set through each step of a Gauge window. -/

namespace Sys2Proof.Machine

/-- Where no commit waits and no mode change is due at a block, its boundary changes nothing. -/
theorem commitFirst_of_nothing_due {s : State} {b : Nat} (h1 : s.epoch.state ≠ 3) (h2 : modeJobsAt s b = []) :
    commitFirst s b = s := by
  simp only [commitFirst, h2, List.isEmpty_nil, if_true, atCommitBoundary, if_pos h1, ite_self]

/-- The receive part of a port whose adaptation has begun reads as it was set, as long as it is not returned to state 0. -/
theorem port_updDsp_of_st {s : State} {p : Nat} {f : Dsp → Dsp} (h : (f (s.port p).dsp).st ≠ 0) :
    (updDsp s p f).port p = { s.port p with dsp := f (s.port p).dsp } :=
  port_updPort_self fun e => h (congrArg (fun x : Port => x.dsp.st) e)

/-- The health part of a port whose adaptation has begun reads as it was set. -/
theorem port_updHealth_of_st {s : State} {p : Nat} {f : Health → Health} (h : (s.port p).dsp.st ≠ 0) :
    (updHealth s p f).port p = { s.port p with health := f (s.port p).health } :=
  port_updPort_self fun e => h (congrArg (fun x : Port => x.dsp.st) e)

/-- Low-power idle leaves the receive part of a port as it was. -/
theorem dsp_setLpi {s : State} {p : Nat} {tx rx : Bool} (h : (s.port p).dsp.st ≠ 0) :
    ((setLpi s p tx rx).port p).dsp = (s.port p).dsp := by
  unfold setLpi
  extract_lets x s1 s2 st
  have same : s2.port p = s.port p := by
    simp only [s2, s1]
    split <;> split <;> simp
  rw [port_updPort_self fun e => h (by simpa [same] using congrArg (fun x : Port => x.dsp.st) e), same]

/-- Low-power idle draws no free value. -/
theorem freeCtr_setLpi {s : State} {p : Nat} {tx rx : Bool} : (setLpi s p tx rx).freeCtr = s.freeCtr := by
  unfold setLpi
  extract_lets x s1 s2 st
  rw [State.updPort_freeCtr]
  simp only [s2, s1]
  split <;> split <;> simp

/-- A port leaves adaptation state 0 by no window. -/
theorem nextAdapt_ne_zero {n : Nat} {guarded : Bool} (h : n ≠ 0) : nextAdapt n guarded ≠ 0 := by
  unfold nextAdapt
  split
  · cases guarded <;> simp
  · cases guarded <;> simp
  · cases guarded <;> simp
  · exact h

/-- A Gauge window of a port that neither tracks nor holds, and has no margin yet: it draws one free value, counts a suspended drift
check down, adapts the taps, and notes whether the signal is absent. -/
theorem gaugeWindow_untracked {s : State} {q : Nat} {w : GaugeWin} (h0 : (s.port q).dsp.st ≠ 0) (h2 : (s.port q).dsp.st ≠ 2)
    (h3 : (s.port q).dsp.st ≠ 3) (hm : (s.port q).health.margin = none) :
    (gaugeWindow s q w).freeCtr = s.freeCtr + 1 ∧
      ((gaugeWindow s q w).port q).dsp.suspend = (s.port q).dsp.suspend - 1 ∧
      ((gaugeWindow s q w).port q).dsp.taps = adaptWindow s q w (gaugeRx s q w.rx) (gaugeTx s q w.tx)
        ((List.range 3).map fun k => gaugeNext s q k (w.aggr.getD k noStream)) ∧
      ((gaugeWindow s q w).port q).health.absent = (portLive s q && 3 ≤ (s.port q).resMode && !(gaugeRx s q w.rx).present) := by
  unfold gaugeWindow
  extract_lets m eee partnerLpi rx tx nx guarded live s0 s1 s2 taps partner own pre idle s3 s4
  have before : (s2.port q).dsp = (s.port q).dsp ∧ s2.freeCtr = s.freeCtr := by
    have sleep : (s0.port q).dsp = (s.port q).dsp ∧ s0.freeCtr = s.freeCtr := by
      simp only [s0]
      split
      · exact ⟨dsp_setLpi h0, freeCtr_setLpi⟩
      · exact ⟨rfl, rfl⟩
    simp only [s2, s1]
    split <;> split <;> simpa using sleep
  obtain ⟨dsp, free⟩ := before
  rw [if_neg (by simp [h2, h3])]
  simp only [hm, Bool.false_eq_true, if_false]
  have adapted : (s3.port q).dsp.st = (s.port q).dsp.st ∧ (s3.port q).dsp.suspend = (s.port q).dsp.suspend ∧
      (s3.port q).dsp.taps = taps := by
    simp only [s3]
    rw [port_updDsp_of_st (by simpa [ctleWindow, dsp] using h0)]
    simp [ctleWindow, dsp]
  obtain ⟨st, suspend, tapsNow⟩ := adapted
  have noted : s4.port q = _ := port_updHealth_of_st (by rwa [st])
  have counted : (updDsp s4 q fun d => { d with suspend := d.suspend - 1 }).port q = _ :=
    port_updDsp_of_st (by rw [noted]; simpa [st] using h0)
  rw [port_updDsp_of_st (nextAdapt_ne_zero h0), counted, noted]
  refine ⟨?_, ?_, tapsNow, rfl⟩
  · simp [s4, s3, free]
  · simp [suspend]

/-- A window of a test changes the port's test part alone. -/
theorem port_testWindow {s : State} {p : Nat} {w : TestWin} (h : (s.port p).st = .test) :
    ∃ t, (testWindow s p w).port p = { s.port p with test := t } := by
  have read (f : Port → Port) (hf : (f (s.port p)).st = .test) : (s.updPort p f).port p = f (s.port p) :=
    port_updPort_self fun e => by simp [e] at hf
  unfold testWindow
  extract_lets x t r rx pre checks chk lost
  split
  · exact ⟨_, by rw [port_bumpBy, read _ h]⟩
  split
  · exact ⟨_, rfl⟩
  split
  · split
    · exact ⟨t, by simp only [port_bumpBy, x, t]⟩
    · exact ⟨_, rfl⟩
  split
  · exact ⟨_, rfl⟩
  · exact ⟨_, by simp only [port_bumpBy]; rw [read _ h]⟩

/-- Settles O52: a Gauge window is followed through its steps (`gaugeWindow_untracked`), a test window touches the test part alone
(`port_testWindow`). -/
theorem dspEvents : Obligations.DspEvents := by
  intro p s
  refine ⟨?_, ?_, ?_, ?_, ?_, ?_, ?_, ?_, ?_, ?_, ?_, ?_⟩
  · intro w h1 h2
    obtain ⟨t, only⟩ := port_testWindow (w := w.test) h1
    refine ⟨by rw [only], ?_⟩
    show execGaugeWindowEnd p w s = _
    simp only [execGaugeWindowEnd, if_pos h1]
    rw [if_pos (by rw [only]; exact h2)]
  · intro w h1 h2 h3 h4 h5
    refine ⟨gaugeWindow s p.val w, ?_, gaugeWindow_untracked h2 h3 h4 h5⟩
    show execGaugeWindowEnd p w s = _
    simp only [execGaugeWindowEnd, if_neg h1, if_neg h2]
  · intro h1 h2 h3
    show execAnchorReversion p s = _
    simp [execAnchorReversion, h1, commitFirst_of_nothing_due h2 h3]
  · intro h1 h2
    show execAnchorReversion p s = _
    simp [execAnchorReversion, h1, h2]
  · intro h1 h2 h3 h4 h5 h6
    show execCtleStep p s = _
    simp [execCtleStep, h1, h2, h3, h4, h5, h6]
  · intro h1 h2 h3 h4 h5 h6 h7
    have waited : ¬(s.port p.val).dsp.ctleWait < 256 := by omega
    have noRise : ¬16 ≤ (s.port p.val).dsp.ctleUp := by omega
    show execCtleStep p s = _
    simp [execCtleStep, h1, h2, waited, noRise, h5, h6, h7]
  · intro segs cancelled next removed h1 h2 h3
    have whole : ¬(s.port p.val).dsp.scoutWins < cycleWins s p.val := by omega
    have runs : ¬((s.port p.val).dsp.st ≠ 2 ∨ (!portLive s p.val) = true ∨ (s.port p.val).dsp.scoutWins < cycleWins s p.val) := by
      simp only [h1, h2, whole, ne_eq, not_true, Bool.not_true, Bool.false_eq_true, or_self, not_false_iff]
    exact congrArg Host.Outcome.next (if_neg runs)
  · intro taps w a h1 h2
    have moves : ¬((s.port p.val).dsp.st ≠ 2 ∧ (s.port p.val).dsp.st ≠ 3) := by omega
    show execEchoWindowTakeover p s = _
    simp only [execEchoWindowTakeover, h1, moves, ne_eq, not_true, or_self, if_false]
  · intro k a off taps h1 h2 h3
    show execAggressorReplace p s = _
    simp [execAggressorReplace, h1, h2, h3]
  · intro k
    show execNextSeedEnd p k s = _
    simp [execNextSeedEnd]
  · intro h1
    show execBundleGroupApply p s = _
    simp [execBundleGroupApply, h1]
  · intro r h1 h2 h3 h4 h5 h6 h7
    show execTxAdjustRequest p s = _
    simp [execTxAdjustRequest, h1, h2, h3, h4, h5, h6, h7]

end Sys2Proof.Machine
end

section
/-! PROOFS about the events of 10BASE-T1S (R265 to R290). -/

namespace Sys2Proof.Machine

/-- Two changes of a port's segment part that agree on what stands there are one change. -/
theorem updMd_congr {s : State} {p : Nat} {f g : Md → Md} (h : f (s.port p).md = g (s.port p).md) : updMd s p f = updMd s p g := by
  show { s with ports := Tab.set {} s.ports p { s.port p with md := f (s.port p).md } } =
    { s with ports := Tab.set {} s.ports p { s.port p with md := g (s.port p).md } }
  rw [h]

/-- Settles O53: changes of the segment part that the model and the clause write differently agree on what stands there (`updMd_congr`). -/
theorem multidropEvents : Obligations.MultidropEvents := by
  intro p s
  refine ⟨?_, ?_, ?_, ?_, ?_, ?_, ?_, ?_, ?_, ?_, ?_, ?_, ?_, ?_, ?_⟩
  · intro level mv h1 h2 h3
    show execPreambleDetect p level mv s = _
    simp only [execPreambleDetect, if_pos (And.intro h1 (And.intro h2 h3))]
    exact congrArg Host.Outcome.next (updMd_congr rfl)
  · intro strength h1 h2 h3 h4
    show execSsdDetect p strength false s = _
    simp only [execSsdDetect, if_pos (And.intro h1 h2), if_neg h4]
    exact congrArg Host.Outcome.next (updMd_congr (by simp [h3]))
  · intro h1 h2 h3
    show execSsdDetect p 0x80 true s = _
    simp only [execSsdDetect, if_pos (And.intro h1 h2)]
    exact congrArg Host.Outcome.next (updMd_congr (by simp [h3]))
  · intro h1 h2
    show execSsdSearchTimeout p s = _
    simp [execSsdSearchTimeout, h1, h2]
  · intro rise h1 h2 h3
    show execRxRearm p rise s = _
    simp [execRxRearm, h1, h2, h3]
  · intro rise h1 h2 h3 h4 h5 h6
    have unheard : ¬(s.port p.val).md.rxOpp < 255 := by omega
    show execRxOverlap p rise s = _
    simp [execRxOverlap, h1, h2, h3, h4, unheard]
  · intro h1 h2
    show execBeaconRx p s = _
    simp [execBeaconRx, h1, h2]
  · intro h1 h2 h3 h4 h5
    show execBeaconRx p s = _
    simp only [execBeaconRx, h1, h2, h4, h5, ← h3, ne_eq, not_true, false_and, Bool.not_true, Bool.false_eq_true,
      reduceCtorEq, if_false]
  · intro h1 h2 h3 h4
    show execPlcaListenTimeout p s = _
    simp [execPlcaListenTimeout, h1, h2, h3, h4]
  · intro h1 h2 h3 h4 h5
    show execBeaconLossTimeout p s = _
    simp [execBeaconLossTimeout, h1, h2, h3, h4, h5]
  · intro h1 h2 h3 h4 h5
    show execPlcaCycleStart p s = _
    simp [execPlcaCycleStart, h1, h2, h3, h4, h5]
  · intro h1 h2 h3 h4
    show execTxOpportunity p s = _
    simp only [execTxOpportunity, h1, h2, h3, h4, ne_eq, not_true, Bool.not_true, Bool.false_eq_true, or_self, if_false]
    exact congrArg Host.Outcome.next (updMd_congr rfl)
  · intro rise f h1 h2 h3 h4 h5
    show execTxCollision p rise s = _
    simp [execTxCollision, h1, h2, h3, h4, h5]
  · intro rise f h1 h2 h3 h4 h5
    show execTxCollision p rise s = _
    simp [execTxCollision, h1, h2, h3, h4, h5]
  · intro h1 h2 h3 h4
    show execCsmaBackoffExpiry p s = _
    simp [execCsmaBackoffExpiry, h1, h2, h3, h4]

end Sys2Proof.Machine
end

section
/-! PROOFS about the events of link health, Sounding and the cable test (R296 to R339). -/

namespace Sys2Proof.Machine

/-- The health part of a port with a resolved mode reads as it was set. -/
theorem port_updHealth_of_resMode {s : State} {p : Nat} {f : Health → Health} (h : (s.port p).resMode ≠ 0) :
    (updHealth s p f).port p = { s.port p with health := f (s.port p).health } :=
  port_updPort_of_resMode h

/-- The receive part of a port with a resolved mode reads as it was set. -/
theorem port_updDsp_of_resMode {s : State} {p : Nat} {f : Dsp → Dsp} (h : (s.port p).resMode ≠ 0) :
    (updDsp s p f).port p = { s.port p with dsp := f (s.port p).dsp } :=
  port_updPort_of_resMode h

/-- The margin alarm leaves the margin, the greatest and the least SNR of a port as they were. -/
theorem health_marginAlarm {s : State} {p : Nat} {m : Int} (h : (s.port p).resMode ≠ 0) :
    ((marginAlarm s p m).port p).health.margin = (s.port p).health.margin ∧
      ((marginAlarm s p m).port p).health.snr = (s.port p).health.snr ∧
      ((marginAlarm s p m).port p).health.worst = (s.port p).health.worst := by
  unfold marginAlarm
  extract_lets c was now s1 s2
  split
  · exact ⟨rfl, rfl, rfl⟩
  · have alarm : s2.port p = s1.port p := by
      simp only [s2]
      split <;> simp
    rw [port_raise, alarm, port_updHealth_of_resMode h]
    exact ⟨rfl, rfl, rfl⟩

/-- What a margin measured notes in the health part, the history and the alarm that follow it leave. -/
theorem health_measured {s : State} {p : Nat} {m : Int} {f : Health → Health} {g : Dsp → Dsp} (h : (s.port p).resMode ≠ 0) :
    ((marginAlarm (updDsp (updHealth s p f) p g) p m).port p).health.margin = (f (s.port p).health).margin ∧
      ((marginAlarm (updDsp (updHealth s p f) p g) p m).port p).health.snr = (f (s.port p).health).snr ∧
      ((marginAlarm (updDsp (updHealth s p f) p g) p m).port p).health.worst = (f (s.port p).health).worst := by
  have first : (updHealth s p f).port p = _ := port_updHealth_of_resMode h
  have second : (updDsp (updHealth s p f) p g).port p = _ := port_updDsp_of_resMode (by rw [first]; exact h)
  obtain ⟨margin, snr, worst⟩ :=
    health_marginAlarm (m := m) (show ((updDsp (updHealth s p f) p g).port p).resMode ≠ 0 by rw [second, first]; exact h)
  rw [margin, snr, worst, second, first]
  exact ⟨rfl, rfl, rfl⟩

/-- Settles O54: the margin, the SNR and the least margin stand as measured through the history and the alarm (`health_measured`). -/
theorem healthEvents : Obligations.HealthEvents := by
  intro p s
  refine ⟨?_, ?_, ?_, ?_, ?_, ?_, ?_, ?_, ?_⟩
  · intro snr errs h1 h2
    have live : ¬(!portLive s p.val) = true := by simp [h1]
    have mode : (s.port p.val).resMode ≠ 0 := by omega
    refine ⟨_, rfl, ?_⟩
    simp only [if_neg live, if_pos h2, show referenceSnr (s.port p.val).resMode = referenceSnr 9 by rw [h2],
      show ¬referenceSnr 9 = 0 by decide, if_false]
    exact health_measured mode
  · intro ports
    show execFecWindowEnd ports s = _
    simp [execFecWindowEnd]
  · intro h1 h2 h3 h4 h5 h6
    show execHealthDrop p false s = _
    simp [execHealthDrop, h1, h2, h3, h4, h5, h6, b2n]
  · intro h1 h2
    show execSoundingPeriodicStart p s = _
    simp [execSoundingPeriodicStart, h1, h2]
  · intro r h1 h2 h3 h4 h5
    show execSoundingDone p s = _
    simp [execSoundingDone, h1, h2, h3, h4, h5]
  · intro r h1 h2
    show execSoundingRunTimeout p s = _
    simp [execSoundingRunTimeout, h1, h2]
  · intro partner c h1 h2
    show execCableTestStimulusStart p partner s = _
    simp [execCableTestStimulusStart, h1, h2]
  · intro c h1 h2
    show execCableTestStimulusEnd p s = _
    simp [execCableTestStimulusEnd, h1, h2]
  · intro rho c h1 h2
    show execCableTestDone p rho s = _
    simp [execCableTestDone, h1, h2]

end Sys2Proof.Machine
end

section
/-! PROOFS about the events of Slack, wakes and Parked (R340 to R360). -/

namespace Sys2Proof.Machine

/-- Settles O55: a pulse at WAKE_N is taken from 10 us and never below 1 us; the other clauses are a row each. -/
theorem powerEvents : Obligations.PowerEvents := by
  intro p s
  refine ⟨?_, ?_, ?_, ?_, ?_, ?_, ?_, ?_, ?_, ?_, ?_, ?_, ?_, ?_, ?_, ?_, ?_⟩
  · intro h1 h2 h3 h4
    show execLpiAssert p s = _
    simp [execLpiAssert, h1, h2, h3, h4]
  · intro h1 h2 h3 h4
    show execLpiAssert p s = _
    simp [execLpiAssert, h1, h2, h3, h4]
  · intro token h1 h2 counted
    have taken (sub : Nat) : slackRx s p.val sub token.toNat = slackIn counted p.val sub token.toNat := if_pos ⟨h1, h2⟩
    exact ⟨congrArg Host.Outcome.next (taken 1), congrArg Host.Outcome.next (taken 2), congrArg Host.Outcome.next (taken 3)⟩
  · intro h1 h2 h3
    show execSlackRequestResend p s = _
    simp [execSlackRequestResend, h1, h2, h3]
  · intro h1 h2
    have asked : ¬(s.port p.val).power.sent = 0 := by omega
    have spent : ¬(s.port p.val).power.sent < 10 := by omega
    show execSlackRequestResend p s = _
    simp [execSlackRequestResend, h1, asked, spent]
  · intro h1 h2
    show execSlackAcceptSilence p s = _
    simp [execSlackAcceptSilence, h1, h2]
  · intro mv h1 h2 h3 h4
    have asleep : ¬((s.port p.val).st ≠ .slack ∨ (s.port p.val).power.waking ≠ 0 ∨ (s.port p.val).power.held.isSome = true ∨
        mv ≤ (s.pcfg p.val).power.wakeMv) := by
      simp [h1, h2, h3, h4]
    refine ⟨?_, ?_⟩
    · intro h5 h6
      refine ⟨_, rfl, ?_⟩
      simp [asleep, h5, h6]
    · intro h5 h6
      show execLineWake p mv s = _
      simp [execLineWake, asleep, h5, h6]
  · intro mv h1
    show execLineWake p mv s = _
    simp [execLineWake, h1]
  · intro mv h1 h2 h3
    show execLineWakeQuiet p mv s = _
    simp [execLineWakeQuiet, h1, h2, h3]
  · intro h1 h2
    show execWakeBurstEnd p s = _
    simp [execWakeBurstEnd, h1, h2]
  · intro ns h1 h2 h3
    have free : ¬(s.elec.wakeDriven = true ∨ s.now < s.elec.wakeFrom) := by simp [h1, h2]
    have long : wakeAccepted s ns = true := by simp [wakeAccepted, h3]
    have noDraw : ¬ns < 10000 := by omega
    show execWakeNAssert ns s = _
    simp [execWakeNAssert, free, long, noDraw]
  · intro ns h1
    show execWakeNAssert ns s = _
    refine congrArg Host.Outcome.next ?_
    by_cases early : s.elec.wakeDriven = true ∨ s.now < s.elec.wakeFrom
    · exact if_pos early
    · have short : ¬1000 ≤ ns ∧ ¬10000 ≤ ns := by
        rw [← or_assoc, or_iff_right early] at h1
        omega
      simp [early, wakeAccepted, short]
  · intro h1
    show execWakeNPulseEnd s = _
    simp [execWakeNPulseEnd, h1]
  · intro h1
    have kept : (if s.elec.wakeDriven then s.now + 40000 else s.elec.wakeFrom) = s.elec.wakeFrom := by simp [h1]
    show execWakeNPulseEnd s = _
    rw [execWakeNPulseEnd, kept, ← h1]
  · intro h1 h2 h3 h4 h5
    have quiet : (List.range 128).any (fun p => portLive s p || (s.port p).power.handshake != 0) = false := by
      rw [List.any_eq_false]
      intro q hq
      obtain ⟨live, handshake⟩ := h4 q (List.mem_range.mp hq)
      simp [live, handshake]
    have idle : (List.range 4).all (sliceIdle s) = true :=
      List.all_eq_true.mpr fun i hi => h5 i (List.mem_range.mp hi)
    show execParkedHandshakeEnd s = _
    simp only [execParkedHandshakeEnd, h1, h2, h3, quiet, idle, ne_eq, not_true, or_self, if_false, Bool.or_self,
      Bool.not_true, Bool.false_eq_true]
  · intro h1 h2 h3
    show execParkedHandshakeEnd s = _
    simp [execParkedHandshakeEnd, h1, h2, h3]
  · intro h1
    show execDevicePowerTimeout s = _
    simp [execDevicePowerTimeout, h1]

end Sys2Proof.Machine
end

section
/-! PROOFS about the events of host lanes and links (R366 to R411). -/

namespace Sys2Proof.Machine

/-- Settles O56: a link rises where its lanes align and are all up; the other clauses are a row each. -/
theorem hostLaneEvents : Obligations.HostLaneEvents := by
  intro m k s
  refine ⟨?_, ?_, ?_, ?_, ?_, ?_, ?_, ?_, ?_, ?_, ?_, ?_, ?_, ?_, ?_⟩
  · intro foms req tx h1 h2
    show execLaneTrainingComplete m foms req tx s = _
    simp [execLaneTrainingComplete, h1, h2]
  · intro h1
    show execLaneTrainingTimeout m s = _
    simp [execLaneTrainingTimeout, h1]
  · intro x h1
    show execFomIntervalEnd m x s = _
    simp [execFomIntervalEnd, h1]
  · intro c h1 h2
    show execHostCtleStep m s = _
    simp [execHostCtleStep, h1, h2]
  · intro h1 h2 h3 h4
    have free : ¬((s.lane m.val).ctleHold = true ∨ (s.lane m.val).stepFrom.isSome = true) := by simp [h3, h4]
    refine ⟨?_, ?_⟩
    · intro h5 h6
      show execHostCtleStep m s = _
      simp [execHostCtleStep, h1, h2, free, h5, h6]
    · intro h5 h6 h7
      have noRise : ¬4 ≤ (s.lane m.val).postLow := by omega
      show execHostCtleStep m s = _
      simp [execHostCtleStep, h1, h2, free, noRise, h6, h7]
  · show execHostCtleHoldEnd m s = _
    simp [execHostCtleHoldEnd]
  · intro skew order h1 h2 h3 h4 h5 h6
    have aligned : linkAligns s k.val skew.toNat order = true := by
      simpa [linkAligns, h3, h4] using h5
    have ready : (s.linkLanes k.val).all (fun m => (s.lane m).st == .up && !(s.lane m).rebond) = true := by
      rw [List.all_eq_true]
      intro n hn
      obtain ⟨up, bonded⟩ := h6 n hn
      simp [up, bonded]
    show execHostLinkUp k skew order s = _
    simp only [execHostLinkUp, h1, h2, aligned, ready, Bool.not_true, Bool.false_eq_true, or_self, if_false]
  · intro h1 h2
    have stays : ¬(autoEbb s k.val = true ∧ 0 = s.linkWidth k.val) := by
      rintro ⟨auto, width⟩
      rcases h2 with h2 | h2
      · rw [h2] at auto
        cases auto
      · exact h2 width.symm
    refine ⟨?_, ?_⟩
    · show execHostLinkDown k [] true false s = _
      simp [execHostLinkDown, h1, stays, eachN]
    · show execHostLinkDown k [] false true s = _
      simp [execHostLinkDown, h1, stays, eachN]
  · intro am fec h1 h2 h3 h4
    show execHostLinkDown k [m] am fec s = _
    simp [execHostLinkDown, h1, h3, h4, eachN]
  · intro h1 h2
    show execEbbAutoEntry k s = _
    simp [execEbbAutoEntry, h1, h2]
  · intro l h1 h2
    show execEbbSignalDetect m s = _
    simp [execEbbSignalDetect, h1, h2]
  · intro l h1 h2 h3
    show execEbbRetrainTimeout m s = _
    simp [execEbbRetrainTimeout, h1, h2, h3]
  · intro errors x h1 h2 h3
    show execEyeScanPointEnd m errors s = _
    simp [execEyeScanPointEnd, h1, h2, h3]
  · intro x h1 h2 h3
    show execEyeScanDone m s = _
    simp [execEyeScanDone, h1, h2, h3]
  · intro h1 h2
    show execLinkEgressFlush k s = _
    simp [execLinkEgressFlush, h1, h2]

end Sys2Proof.Machine
end

section
/-! PROOFS about frames into and out of the fabric (R102, R114 to R116, R426 to R437). -/

namespace Sys2Proof.Machine

/-- A frame at a live position that runs no test, and is no 10BASE-T1S segment, is taken at once. -/
theorem frameRx_of_live {e : Fin 192} {s : State} {x : RxFrame}
    (h1 : e.val < 128 → (s.port e.val).st ≠ .test ∧ 2 < (s.port e.val).resMode) (h2 : egressLive s e.val = true) :
    exec (.frameRx e.castSucc x) s = .next (liveRx s e.val x) := by
  have line : ¬e.val = 192 := by omega
  have noTest : ¬(e.val < 128 ∧ (s.port e.val).st = .test) := fun ⟨h, test⟩ => (h1 h).1 test
  have point : ¬(e.val < 128 ∧ (s.port e.val).resMode ≤ 2) := fun ⟨h, low⟩ => absurd (h1 h).2 (by omega)
  show execFrameRx e.castSucc x s = _
  simp [execFrameRx, line, h2, noTest, point]

/-- The end of a packet leaves the frame's own code error standing. -/
theorem packetRx_codeErr {s : State} {pos : Nat} {x : RxFrame} (h : x.codeErr = true) : (packetRx s pos x).2.codeErr = true := by
  unfold packetRx
  split
  · split
    · simp [h]
    · exact h
  · exact h

/-- Settles O57: a frame at a live position is taken at once (`frameRx_of_live`), and a code error stands through the packet's end
(`packetRx_codeErr`). -/
theorem frameEvents : Obligations.FrameEvents := by
  intro e s
  refine ⟨?_, ?_, ?_, ?_, ?_, ?_, ?_, ?_⟩
  · intro x h1 h2
    exact frameRx_of_live h1 h2
  · intro x
    rfl
  · intro x h1 h2
    have line : ¬e.val = 192 := by omega
    show execFrameRx e.castSucc x s = _
    simp [execFrameRx, line, h1, h2]
  · intro x h1 h2 h3 h4 h5 h6 y
    have err : y.2.codeErr = true := packetRx_codeErr h6
    have open_ : (drainingPos s e.val && !x.began) = false := by
      rcases h5 with h5 | h5 <;> simp [h5]
    refine ⟨?_, err⟩
    rw [frameRx_of_live (fun _ => ⟨h2, h3⟩) h4]
    have bad : rxOutcome y.1 e.val y.2 = 1 := if_pos err
    simp only [liveRx, open_, Bool.false_eq_true, if_false, if_pos h1]
    rw [show rxOutcome (packetRx s e.val x).1 e.val (packetRx s e.val x).2 = 1 from bad]
    rfl
  · intro x h1 h2 h3 h4 h5 h6
    rw [frameRx_of_live (fun _ => ⟨h2, h3⟩) h4]
    simp only [liveRx, h5, h6, Bool.not_false, Bool.and_self, if_true]
  · intro started x t ds turn h1 h2 s1 h3 h4
    have point : ¬(e.val < 128 ∧ (s.port e.val).resMode ≤ 2 ∧ (takeTurn s e.val).isNone = true) :=
      fun ⟨h, low, _⟩ => absurd (h2 h) (by omega)
    show execFrameDequeue e started x s = _
    simp only [execFrameDequeue, h1, point, Bool.not_true, Bool.false_eq_true, or_self, if_false]
    simp only [s1] at h3 h4
    simp only [h3, h4, Bool.not_true, Bool.false_eq_true, if_false]
    rfl
  · intro x upset under h1 h2
    show execFrameTxComplete e x upset under s = _
    simp [execFrameTxComplete, h1, h2]
  · intro x upset under m h1 h2 h3
    have noTest : ¬(e.val < 128 ∧ (s.port e.val).st = .test) := fun ⟨h, test⟩ => h1 h test
    show execFrameTxComplete e x upset under s = _
    simp [execFrameTxComplete, noTest, h2, h3]

end Sys2Proof.Machine
end

section
/-! PROOFS about the events of gates, FRER, preemption and time (R459 to R478), and of the Tide Table (R484 to R499). -/

namespace Sys2Proof.Machine

/-- Settles O58: a gate list goes on unless its cycle extends into the next configuration; the other clauses are a row each. -/
theorem streamAndTimeEvents : Obligations.StreamAndTimeEvents := by
  intro e s
  refine ⟨?_, ?_, ?_, ?_, ?_, ?_, ?_, ?_, ?_, ?_, ?_, ?_, ?_, ?_, ?_⟩
  · intro l h1
    refine ⟨?_, ?_⟩
    · intro h2
      have goesOn : (!(operOf s e.val).realign && l.length ≤ (operOf s e.val).cur + 1 && cycleExtends s e.val) = false := by
        rcases h2 with h2 | h2 | h2 <;> simp [h2]
      show execGateChange e s = _
      simp only [execGateChange, h1, if_true]
      exact congrArg Host.Outcome.next (if_neg (by rw [goesOn]; decide))
    · intro h2 h3 h4
      have stays : (!(operOf s e.val).realign && l.length ≤ (operOf s e.val).cur + 1 && cycleExtends s e.val) = true := by
        simp [h2, h3, h4]
      show execGateChange e s = _
      simp only [execGateChange, h1, if_true]
      exact congrArg Host.Outcome.next (if_pos stays)
  · intro h1
    exact congrArg Host.Outcome.next (if_pos h1)
  · intro g
    show execStreamGateChange g true s = _
    simp [execStreamGateChange]
  · intro g run h1
    show execStreamGateChange g false s = _
    simp [execStreamGateChange, h1]
  · intro i h1 h2 h3
    obtain ⟨c, hc⟩ := Option.ne_none_iff_exists'.mp h1
    show execFrerResetTimeout i s = _
    simp [execFrerResetTimeout, hc, h2, h3, expireRec]
  · intro i c h1 h2
    show execFrerLatentTest i s = _
    simp [execFrerLatentTest, h1, h2]
  · intro p ok h1
    show execPreemptVerifyDone p ok s = _
    simp [execPreemptVerifyDone, h1]
  · intro i off rate h1 h2
    show execGptpMessageRx i e (.sync off rate) s = _
    simp [execGptpMessageRx, h1, h2]
  · intro i off rate h1 h2
    show execGptpMessageRx i e (.sync off rate) s = _
    simp [execGptpMessageRx, h1, h2]
  · intro i h1
    show execGptpMessageRx i e .pdelayReq s = _
    simp [execGptpMessageRx, h1]
  · intro i m h1
    show execGptpMessageRx i e m s = _
    simp [execGptpMessageRx, h1]
  · intro i h1 h2 h3
    show execGptpSyncTx i e s = _
    simp [execGptpSyncTx, h1, h2, h3]
  · intro i h1 h2
    show execGptpPdelayTx i e s = _
    simp [execGptpPdelayTx, h1, h2]
  · intro rise
    show execPpsOutPulse rise s = _
    simp [execPpsOutPulse]
  · intro h1 h2
    have apart : ((s.strm.edge.map fun x => decide (s.now - x.ticker < 4000000)).getD false) = false := by
      cases edge : s.strm.edge with
      | none => rfl
      | some x => simpa using h2 x edge
    show execPpsInEdge s = _
    simp only [execPpsInEdge, h1, apart, Bool.not_true, Bool.false_eq_true, if_false]

/-- Settles O59: while the Tide Table runs, each row acts as its clause states. -/
theorem tideTableEvents : Obligations.TideTableEvents := by
  intro s h1
  refine ⟨?_, ?_, ?_, ?_, ?_⟩
  · intro e parity corrected bad c l h2
    show execTtCopyProcess e parity corrected bad s = _
    simp [execTtCopyProcess, h1, h2]
  · intro n l d h2 h3 h4 h5
    show execTtSignalStale n s = _
    simp [execTtSignalStale, h1, h2, h3, h4, h5]
  · intro k h2
    show execTtDigestFlush k s = _
    simp [execTtDigestFlush, h1, h2]
  · intro l c h2 h3
    show execTtComposePeriodic l s = _
    simp only [execTtComposePeriodic, h1, h2, h3, Option.map_some, Option.getD_some, Bool.and_self, if_true]
  · intro l c h2 h3
    show execTtComposeHoldEnd l s = _
    simp [execTtComposeHoldEnd, h1, h2, h3]

end Sys2Proof.Machine
end
